-- ==== Sys2Proof/Word.lean ====
section
/-! DEFINITION. The word types of the Pripra instruction set and their plainest arithmetic (spec/00_scope.md R4, R5). -/

namespace Sys2Proof

/-- One byte of memory. -/
abbrev Byte := BitVec 8
/-- One 32-bit register lane. -/
abbrev Word := BitVec 32
/-- A register pair, an address, a microprogram word. -/
abbrev Dword := BitVec 64
/-- A set of lanes of one crew: bit l names lane l. -/
abbrev Mask := BitVec 32
/-- A register number w0 to w63. -/
abbrev Reg := BitVec 6
/-- A condition-code register c0 to c3. -/
abbrev Cc := BitVec 2

/-- The 64-bit value of a pair: the even register holds bits 31:0 (R5). -/
def pairOf (lo hi : Word) : Dword := hi ++ lo

/-- The even register's half of a 64-bit value (R5). -/
def loWord (x : Dword) : Word := x.extractLsb' 0 32
/-- The odd register's half of a 64-bit value (R5). -/
def hiWord (x : Dword) : Word := x.extractLsb' 32 32

/-- Bits h:l of a number, h = l + n - 1 (R4). -/
def bitsOf (x l n : Nat) : Nat := x / 2 ^ l % 2 ^ n

/-- The n-bit number x read as two's complement. -/
def signedNat (x n : Nat) : Int := if x < 2 ^ (n - 1) then (x : Int) else (x : Int) - 2 ^ n

/-- The number of a list of bytes, the first byte holding bits 7:0 (R4). -/
def leNat : List Byte → Nat
  | [] => 0
  | b :: bs => b.toNat + 256 * leNat bs

/-- The n bytes of a number, lowest first (R4). -/
def leBytes : Nat → Nat → List Byte
  | 0, _ => []
  | n + 1, x => BitVec.ofNat 8 x :: leBytes n (x / 256)

/-- The lanes 0 to 31 of a crew, in ascending order. -/
def laneList : List Nat := List.range 32

end Sys2Proof
end

