-- ==== Sys2Proof/Machine/Float.lean ====
section
/-! DEFINITION. Number formats and exact arithmetic (spec/05_numbers.md R84 to R104): values are exact dyadic numbers, every result
is formed exactly and rounded once. Flags are numbers with the bits of FSTAT (R93). -/

namespace Sys2Proof.Machine

/-- Invalid, divide by zero, overflow, underflow, inexact: the bits of FSTAT (R93). -/
def fNV : Nat := 16
def fDZ : Nat := 8
def fOF : Nat := 4
def fUF : Nat := 2
def fNX : Nat := 1

/-- A floating-point format of R84: exponent and fraction bits, bias, the largest finite encoding, whether it has infinities, and
whether FTZ (rather than FTZN) flushes it (R91). -/
structure Fmt where
  eb : Nat
  mb : Nat
  bias : Nat
  largest : Nat
  inf : Bool
  wide : Bool
  deriving DecidableEq, Repr

def fp32 : Fmt := ⟨8, 23, 127, 0x7f7fffff, true, true⟩
def fp16 : Fmt := ⟨5, 10, 15, 0x7bff, true, true⟩
def bf16 : Fmt := ⟨8, 7, 127, 0x7f7f, true, true⟩
def e4m3 : Fmt := ⟨4, 3, 7, 0x7e, false, false⟩
def e5m2 : Fmt := ⟨5, 2, 15, 0x7b, true, false⟩

/-- Bits of a format, by its code (R84). -/
def fmtWidth (code : Nat) : Nat :=
  match code with
  | 0 | 7 => 32
  | 1 | 2 => 16
  | 6 => 4
  | _ => 8

/-- The floating-point format of a code (R84). -/
def fmtOf (code : Nat) : Fmt :=
  match code with
  | 1 => fp16
  | 2 => bf16
  | 3 => e4m3
  | 4 => e5m2
  | _ => fp32

/-- The element size in bytes of a format in memory; a Q4N element of a COPY is one byte of two codes (R153, R160). -/
def fmtBytes (code : Nat) : Nat :=
  match code with
  | 0 | 7 => 4
  | 1 | 2 => 2
  | _ => 1

/-- Bits of an encoding without the sign. -/
def Fmt.magBits (f : Fmt) : Nat := f.eb + f.mb
/-- The encoding of positive infinity, in a format that has one. -/
def Fmt.infBits (f : Fmt) : Nat := f.largest + 1
/-- The sign bit as a number. -/
def Fmt.signBit (f : Fmt) (neg : Bool) : Nat := if neg then 2 ^ f.magBits else 0
/-- The canonical NaN (R94). -/
def Fmt.canonical (f : Fmt) : Nat := if f.inf then f.infBits + 2 ^ (f.mb - 1) else f.largest + 1
/-- The smallest exponent of a normal number. -/
def Fmt.emin (f : Fmt) : Int := 1 - (f.bias : Int)

/-- An exact value: a finite number is (-1)^neg * m * 2^e. A NaN keeps its sign, its fraction with the width of that fraction, and
its quiet bit (R84, R94). -/
inductive FVal where
  | fin (neg : Bool) (m : Nat) (e : Int)
  | inf (neg : Bool)
  | nan (neg quiet : Bool) (frac width : Nat)
  deriving DecidableEq, Repr

/-- The value of an encoding (R84). -/
def Fmt.value (f : Fmt) (x : Nat) : FVal :=
  let neg := x / 2 ^ f.magBits % 2 == 1
  let mag := x % 2 ^ f.magBits
  let frac := mag % 2 ^ f.mb
  let ex := mag / 2 ^ f.mb
  if mag > f.largest then
    if f.inf && frac == 0 then .inf neg
    else .nan neg (!f.inf || frac ≥ 2 ^ (f.mb - 1)) frac f.mb
  else if ex == 0 then .fin neg frac (f.emin - f.mb)
  else .fin neg (2 ^ f.mb + frac) (f.emin - f.mb + (ex - 1))

/-- Whether an encoding is subnormal. -/
def Fmt.subnormal (f : Fmt) (x : Nat) : Bool :=
  let mag := x % 2 ^ f.magBits
  mag != 0 && mag < 2 ^ f.mb

/-- The settings of an operation: rounding mode as FCW codes it (0 nearest even, 1 toward zero, 2 up, 3 down), FTZ, FTZN, DN and
saturation (R90, R91). -/
structure FCtx where
  mode : Nat := 0
  ftz : Bool := false
  ftzn : Bool := false
  dn : Bool := false
  sat : Bool := false
  deriving DecidableEq, Repr

/-- The settings that a thread's FCW and an instruction's rounding code give (R90, R91). -/
def fctx (fcw : Word) (code : Nat) (sat : Bool) : FCtx :=
  { mode := if code == 0 then (fcw.extractLsb' 0 2).toNat else code - 1
    ftz := fcw.getLsbD 2, ftzn := fcw.getLsbD 3, dn := fcw.getLsbD 4, sat := sat }

/-- Whether the settings flush inputs of a format (R92). -/
def FCtx.flushes (c : FCtx) (f : Fmt) : Bool := if f.wide then c.ftz else c.ftzn

/-- An operand after input flushing (R92). -/
def FCtx.operand (c : FCtx) (f : Fmt) (x : Nat) : FVal :=
  if c.flushes f && f.subnormal x then f.value (x / 2 ^ f.magBits * 2 ^ f.magBits) else f.value x

def FVal.isNan : FVal → Bool
  | .nan .. => true
  | _ => false
def FVal.signalling : FVal → Bool
  | .nan _ q _ _ => !q
  | _ => false
def FVal.isZero : FVal → Bool
  | .fin _ m _ => m == 0
  | _ => false
def FVal.isInf : FVal → Bool
  | .inf _ => true
  | _ => false
def FVal.neg : FVal → Bool
  | .fin n _ _ => n
  | .inf n => n
  | .nan n _ _ _ => n
def FVal.negate : FVal → FVal
  | .fin n m e => .fin (!n) m e
  | .inf n => .inf (!n)
  | .nan n q fr w => .nan n q fr w

/-- Whether a remainder rem of 2^sh under the kept digits n rounds the magnitude up (R90). -/
def roundsUp (mode : Nat) (neg : Bool) (n rem sh : Nat) : Bool :=
  match mode with
  | 0 => 2 * rem > 2 ^ sh || (2 * rem == 2 ^ sh && n % 2 == 1)
  | 1 => false
  | 2 => rem != 0 && !neg
  | _ => rem != 0 && neg

/-- The result of an overflow (R90), without saturation. In E4M3, which has no infinity, it is the NaN of its sign, as R90 says, also under DN,
where R91 and R94 speak of the canonical NaN: DESIGN CHOICE (log 71). -/
def Fmt.overflow (f : Fmt) (mode : Nat) (neg : Bool) : Nat :=
  if !f.inf then f.largest + 1
  else
    match mode with
    | 0 => f.infBits
    | 1 => f.largest
    | 2 => if neg then f.largest else f.infBits
    | _ => if neg then f.infBits else f.largest

/-- Round the nonzero value (-1)^neg * m * 2^e once to a format (R90, R92, R93): the encoding and the flags. -/
def Fmt.round (f : Fmt) (c : FCtx) (neg : Bool) (m : Nat) (e : Int) : Nat × Nat :=
  let top : Int := (m.log2 : Int) + e
  let tiny := top < f.emin
  let q : Int := (if tiny then f.emin else top) - f.mb
  let sh := (q - e).toNat
  let n0 := if e ≥ q then m * 2 ^ (e - q).toNat else m / 2 ^ sh
  let rem := if e ≥ q then 0 else m % 2 ^ sh
  let n := if roundsUp c.mode neg n0 rem sh then n0 + 1 else n0
  let packed := (q - (f.emin - f.mb)).toNat * 2 ^ f.mb + n
  let s := f.signBit neg
  if packed > f.largest then
    (s + (if c.sat then f.largest else f.overflow c.mode neg), fOF + fNX)
  else if f.wide && c.ftz && packed != 0 && packed < 2 ^ f.mb then (s, fUF + fNX)
  else (s + packed, if rem == 0 then 0 else fNX + (if tiny then fUF else 0))

/-- Deliver an infinite value (R90): E4M3 has none, and takes the NaN of its sign (log 71). -/
def Fmt.deliverInf (f : Fmt) (c : FCtx) (neg : Bool) : Nat × Nat :=
  if c.sat then (f.signBit neg + f.largest, 0)
  else if f.inf then (f.signBit neg + f.infBits, 0)
  else (f.signBit neg + f.largest + 1, fNV)

/-- A NaN operand, quieted, in a format (R94). -/
def Fmt.quieted (f : Fmt) (neg : Bool) (frac width : Nat) : Nat :=
  if !f.inf then f.signBit neg + f.largest + 1
  else
    let fr := if width ≤ f.mb then frac * 2 ^ (f.mb - width) else frac / 2 ^ (width - f.mb)
    f.signBit neg + f.infBits + (if fr ≥ 2 ^ (f.mb - 1) then fr else fr + 2 ^ (f.mb - 1))

/-- The NaN of an operation (R94): canonical under DN or with no NaN operand, otherwise the first NaN operand, quieted. -/
def Fmt.nanOf (f : Fmt) (c : FCtx) (ops : List FVal) : Nat :=
  match c.dn, ops.find? FVal.isNan with
  | false, some (.nan neg _ frac width) => f.quieted neg frac width
  | _, _ => f.canonical

/-- The flags of an operation's NaN operands: a signalling one is invalid (R93). -/
def sigFlags (ops : List FVal) : Nat := if ops.any FVal.signalling then fNV else 0

/-- An exact result before rounding. -/
inductive Exact where
  | invalid
  | inf (neg : Bool)
  | num (neg : Bool) (m : Nat) (e : Int)
  deriving DecidableEq, Repr

/-- Deliver an exact result in a format; the operands are those whose NaNs the result may take (R90, R92, R94). -/
def Fmt.deliver (f : Fmt) (c : FCtx) (ops : List FVal) (x : Exact) : Nat × Nat :=
  match x with
  | .invalid => (f.nanOf c ops, fNV)
  | .inf neg => f.deliverInf c neg
  | .num neg m e => if m == 0 then (f.signBit neg, 0) else f.round c neg m e

/-- The exact product of two values that are no NaN (R99). -/
def mulExact : FVal → FVal → Exact
  | .fin n m e, .fin n' m' e' => .num (xor n n') (m * m') (e + e')
  | .inf n, y => if y.isZero then .invalid else .inf (xor n y.neg)
  | x, .inf n => if x.isZero then .invalid else .inf (xor x.neg n)
  | _, _ => .invalid

/-- An exact finite value as a multiple of 2^e. -/
def toScale (neg : Bool) (m : Nat) (e e0 : Int) : Int :=
  let v : Int := (m : Int) * 2 ^ (e - e0).toNat
  if neg then -v else v

/-- Terms whose sum is invalid: an invalid product, or opposite infinities (R102). -/
def sumInvalid (ts : List Exact) : Bool := ts.any (· == .invalid) || (ts.any (· == .inf true) && ts.any (· == .inf false))

/-- The exact sum of terms that are exact results: opposite infinities are invalid; a zero sum is −0 when every term is −0, and
otherwise +0, or −0 in mode down unless every term is +0. R90 says so of a zero sum of nonzero terms; for zero terms of mixed sign it is a
DESIGN CHOICE (log 70). -/
def sumExact (mode : Nat) (ts : List Exact) : Exact :=
  if ts.any (· == .invalid) then .invalid
  else
    let negInf := ts.any (· == .inf true)
    let posInf := ts.any (· == .inf false)
    if negInf && posInf then .invalid
    else if negInf then .inf true
    else if posInf then .inf false
    else
      let e0 := ts.foldl (fun (acc : Int) t => match t with | .num _ m e => if m != 0 && e < acc then e else acc | _ => acc) 4096
      let s := ts.foldl (fun (acc : Int) t => match t with | .num n m e => if m == 0 then acc else acc + toScale n m e e0 | _ => acc) 0
      if s == 0 then
        let allNeg := ts.all fun t => match t with | .num n m _ => n && m == 0 | _ => false
        let allPos := ts.all fun t => match t with | .num n m _ => !n && m == 0 | _ => false
        .num (if allNeg then true else if allPos then false else mode == 3) 0 0
      else .num (s < 0) s.natAbs e0

/-- A value that is no NaN as an exact result. -/
def FVal.exact : FVal → Exact
  | .fin n m e => .num n m e
  | .inf n => .inf n
  | .nan .. => .invalid

/-- An operation on operands, any of which may be a NaN: a NaN operand gives the NaN of R94; otherwise the exact result. -/
def Fmt.apply (f : Fmt) (c : FCtx) (ops : List FVal) (x : Exact) : Nat × Nat :=
  if ops.any FVal.isNan then (f.nanOf c ops, sigFlags ops) else f.deliver c ops x

/-- FADD, H2ADD (R99, R303). -/
def fAdd (f : Fmt) (c : FCtx) (a b : Nat) : Nat × Nat :=
  let x := c.operand f a
  let y := c.operand f b
  f.apply c [x, y] (sumExact c.mode [x.exact, y.exact])

/-- FSUB (R99, R303). -/
def fSub (f : Fmt) (c : FCtx) (a b : Nat) : Nat × Nat :=
  let x := c.operand f a
  let y := c.operand f b
  f.apply c [x, y] (sumExact c.mode [x.exact, y.negate.exact])

/-- FMUL, H2MUL (R99, R303). -/
def fMul (f : Fmt) (c : FCtx) (a b : Nat) : Nat × Nat :=
  let x := c.operand f a
  let y := c.operand f b
  f.apply c [x, y] (mulExact x y)

/-- A sum of products and addends with one rounding: DOT4, FFMA, H2FMA (R99, R102, R312). ops is the operand order of R94. Beside a NaN, a
product 0 × ∞ or opposite infinities among the other terms still set NV. -/
def fDot (f : Fmt) (c : FCtx) (ops : List FVal) (pairs : List (FVal × FVal)) (addend : FVal) : Nat × Nat :=
  let products := (pairs.filter fun p => !p.1.isNan && !p.2.isNan).map fun p => mulExact p.1 p.2
  let known := products ++ (if addend.isNan then [] else [addend.exact])
  if ops.any FVal.isNan then (f.nanOf c ops, if sumInvalid known then fNV else sigFlags ops)
  else f.deliver c ops (sumExact c.mode (pairs.map (fun p => mulExact p.1 p.2) ++ [addend.exact]))

/-- FFMA, H2FMA: a × b + d with one rounding (R312, R317). -/
def fFma (f : Fmt) (c : FCtx) (a b d : Nat) : Nat × Nat :=
  let x := c.operand f a
  let y := c.operand f b
  let z := c.operand f d
  fDot f c [x, y, z] [(x, y)] z

/-- Whether x is below y, for values that are no NaN, with −0 below +0 (R98). -/
def belowOrdered (x y : FVal) : Bool :=
  let key : FVal → Int × Int := fun v => match v with
    | .inf n => (if n then -1 else 1, 0)
    | _ => (0, 0)
  match x, y with
  | .fin n m e, .fin n' m' e' =>
    let e0 := min e e'
    let a := toScale n m e e0
    let b := toScale n' m' e' e0
    a < b || (a == b && n && !n')
  | _, _ => (key x).1 < (key y).1

/-- FMIN, FMAX and the halves (R98): an operand that is the only NaN gives way to the other. The result is never rounded; FTZ applies
to it. -/
def fMinMax (f : Fmt) (c : FCtx) (greater : Bool) (a b : Nat) : Nat × Nat :=
  let flush : Nat → Nat := fun x => if c.flushes f && f.subnormal x then x / 2 ^ f.magBits * 2 ^ f.magBits else x
  let a := flush a
  let b := flush b
  let x := f.value a
  let y := f.value b
  let fl := sigFlags [x, y]
  if x.isNan && y.isNan then (f.nanOf c [x, y], fl)
  else if x.isNan then (b, fl)
  else if y.isNan then (a, fl)
  else if greater then (if belowOrdered x y then b else a, fl)
  else (if belowOrdered y x then b else a, fl)

/-- The relation of FCMP (R97), ±0 equal: -1 below, 0 equal, 1 above, none unordered. -/
def fRelation (x y : FVal) : Option Int :=
  if x.isNan || y.isNan then none
  else if x.isZero && y.isZero then some 0
  else if belowOrdered x y then some (-1)
  else if belowOrdered y x then some 1
  else some 0

/-- The greatest r with r * r at most n, found bit by bit. -/
def isqrtAux (n : Nat) : Nat → Nat → Nat
  | 0, r => r
  | k + 1, r => let r' := r + 2 ^ k; isqrtAux n k (if r' * r' ≤ n then r' else r)

def isqrt (n : Nat) : Nat := isqrtAux n (n.log2 / 2 + 1) 0

/-- A positive value known as k + something in (0, 1) units of 2^e, or exactly k units, as a dyadic that rounds alike (R99): an odd
digit stands for the part below. -/
def sticky (neg : Bool) (k : Nat) (e : Int) (isExact : Bool) : Exact :=
  if isExact then .num neg k e else .num neg (2 * k + 1) (e - 1)

/-- 1 / x of a nonzero finite value (R309). -/
def rcpExact (neg : Bool) (m : Nat) (e : Int) : Exact :=
  let p := m.log2 + 40
  sticky neg (2 ^ p / m) (-e - p) (2 ^ p % m == 0)

/-- √x of a positive finite value (R309). -/
def sqrtExact (m : Nat) (e : Int) : Exact :=
  let odd := e % 2 != 0
  let m' := (if odd then 2 * m else m) * 2 ^ 60
  let e' := (if odd then e - 1 else e) / 2 - 30
  let r := isqrt m'
  sticky false r e' (r * r == m')

/-- 1 / √x of a positive finite value (R309). -/
def rsqExact (m : Nat) (e : Int) : Exact :=
  let odd := e % 2 != 0
  let m' := if odd then 2 * m else m
  let e' := (if odd then e - 1 else e) / 2
  let p := m'.log2 + 40
  let r := isqrt (2 ^ (2 * p) / m')
  sticky false r (-e' - p) (r * r * m' == 2 ^ (2 * p))

/-- The digits of the fixed-point arithmetic behind FEXP2 and FLOG2 (log 9). -/
def fixBits : Nat := 240

/-- z + z^3/3 + z^5/5 + ... in units of 2^-fixBits, n terms, each cut down; zz is z squared and t the running power. -/
def atanhSum (zz : Nat) : Nat → Nat → Nat → Nat
  | 0, _, _ => 0
  | n + 1, i, t => t / (2 * i + 1) + atanhSum zz n (i + 1) (t * zz / 2 ^ fixBits)

/-- atanh z for z = num / den at most 1/3, in units of 2^-fixBits. -/
def atanhFix (num den : Nat) : Nat :=
  let z := num * 2 ^ fixBits / den
  atanhSum (z * z / 2 ^ fixBits) 110 0 z

/-- ln 2 = 2 atanh (1/3), in units of 2^-fixBits. -/
def ln2Fix : Nat := 2 * atanhFix 1 3

/-- 1 + z + z^2/2! + ... in units of 2^-fixBits, n terms. -/
def expSum (z : Nat) : Nat → Nat → Nat → Nat
  | 0, _, _ => 0
  | n + 1, i, t => t + expSum z n (i + 1) (t * z / 2 ^ fixBits / (i + 1))

/-- 2^x of a nonzero finite value (R309): exact for an integer, and otherwise the enclosure's lower end with an odd digit below. -/
def exp2Exact (neg : Bool) (m : Nat) (e : Int) : Exact :=
  if (m.log2 : Int) + e ≥ 8 then (if neg then .num false 3 (-301) else .num false 1 300)
  else
    let k := (-e).toNat
    let x : Int := if neg then -(m * 2 ^ e.toNat : Nat) else (m * 2 ^ e.toNat : Nat)
    let n := x / 2 ^ k
    let fr := (x % 2 ^ k).toNat
    if fr == 0 then .num false 1 n
    else
      let z := fr * ln2Fix / 2 ^ k
      sticky false (expSum z 80 0 (2 ^ fixBits)) (n - fixBits) false

/-- log2 x of a positive finite value that is no power of two (R309), or exactly the exponent of a power of two. -/
def log2Exact (m : Nat) (e : Int) : Exact :=
  let l := m.log2
  let k : Int := l + e
  if m == 2 ^ l then .num (k < 0) k.natAbs 0
  else
    let lnY := 2 * atanhFix (m - 2 ^ l) (m + 2 ^ l)
    let v : Int := k * 2 ^ fixBits + (lnY * 2 ^ fixBits / ln2Fix : Nat)
    if v ≥ 0 then sticky false v.toNat (-fixBits) false else sticky true (v.natAbs - 1) (-fixBits) false

/-- FRCP (R99, R309). -/
def fRcp (c : FCtx) (a : Nat) : Nat × Nat :=
  match c.operand fp32 a with
  | .fin neg m e => if m == 0 then (fp32.signBit neg + fp32.infBits, fDZ) else fp32.deliver c [] (rcpExact neg m e)
  | .inf neg => (fp32.signBit neg, 0)
  | x => fp32.apply c [x] .invalid

/-- FRSQ (R99, R309). -/
def fRsq (c : FCtx) (a : Nat) : Nat × Nat :=
  match c.operand fp32 a with
  | .fin neg m e =>
    if m == 0 then (fp32.signBit neg + fp32.infBits, fDZ)
    else if neg then fp32.deliver c [] .invalid else fp32.deliver c [] (rsqExact m e)
  | .inf neg => if neg then fp32.deliver c [] .invalid else (0, 0)
  | x => fp32.apply c [x] .invalid

/-- FSQRT (R99, R309). -/
def fSqrt (c : FCtx) (a : Nat) : Nat × Nat :=
  match c.operand fp32 a with
  | .fin neg m e =>
    if m == 0 then (fp32.signBit neg, 0)
    else if neg then fp32.deliver c [] .invalid else fp32.deliver c [] (sqrtExact m e)
  | .inf neg => if neg then fp32.deliver c [] .invalid else (fp32.infBits, 0)
  | x => fp32.apply c [x] .invalid

/-- FEXP2 (R99, R309). -/
def fExp2 (c : FCtx) (a : Nat) : Nat × Nat :=
  match c.operand fp32 a with
  | .fin neg m e => if m == 0 then (0x3f800000, 0) else fp32.deliver c [] (exp2Exact neg m e)
  | .inf neg => (if neg then 0 else fp32.infBits, 0)
  | x => fp32.apply c [x] .invalid

/-- FLOG2 (R99, R309). -/
def fLog2 (c : FCtx) (a : Nat) : Nat × Nat :=
  match c.operand fp32 a with
  | .fin neg m e =>
    if m == 0 then (fp32.signBit true + fp32.infBits, fDZ)
    else if neg then fp32.deliver c [] .invalid else fp32.deliver c [] (log2Exact m e)
  | .inf neg => if neg then fp32.deliver c [] .invalid else (fp32.infBits, 0)
  | x => fp32.apply c [x] .invalid

/-- FCLASS: the one-hot class of an FP32 encoding, never flushed (R100). -/
def fClass (a : Nat) : Nat :=
  match fp32.value a with
  | .nan _ q _ _ => if q then 0x200 else 0x100
  | .inf neg => if neg then 1 else 0x80
  | .fin neg m _ =>
    if m == 0 then (if neg then 8 else 0x10)
    else if fp32.subnormal a then (if neg then 4 else 0x20)
    else if neg then 2 else 0x40

/-- The least and greatest value of an integer format. -/
def intMin (code : Nat) : Int := -(2 ^ (fmtWidth code - 1) : Nat)
def intMax (code : Nat) : Int := (2 ^ (fmtWidth code - 1) : Nat) - 1

/-- Clamp between bounds. -/
def clampInt (lo hi x : Int) : Int := if x < lo then lo else if x > hi then hi else x

/-- An integer as an encoding of w bits. -/
def intBits (w : Nat) (x : Int) : Nat := (x % (2 ^ w : Nat)).toNat

/-- Round a nonzero finite value to an integer (R95): the integer and whether it is exact. -/
def roundInt (mode : Nat) (neg : Bool) (m : Nat) (e : Int) : Int × Bool :=
  let sh := (-e).toNat
  let n0 := if e ≥ 0 then m * 2 ^ e.toNat else m / 2 ^ sh
  let rem := if e ≥ 0 then 0 else m % 2 ^ sh
  let n := if roundsUp mode neg n0 rem sh then n0 + 1 else n0
  (if neg then -(n : Int) else n, rem == 0)

/-- Whether a code is an integer format. -/
def isIntFmt (code : Nat) : Bool := code == 5 || code == 7

/-- Deliver an exact value in a format of any code (R95): integer targets are clamped with NV when out of range, floats rounded. -/
def deliverCode (g : Nat) (c : FCtx) (ops : List FVal) (x : Exact) : Nat × Nat :=
  if isIntFmt g then
    match x with
    | .invalid => (0, fNV)
    | .inf neg => (intBits (fmtWidth g) (if neg then intMin g else intMax g), fNV)
    | .num neg m e =>
      let r := roundInt c.mode neg m e
      if r.1 < intMin g || r.1 > intMax g then (intBits (fmtWidth g) (clampInt (intMin g) (intMax g) r.1), fNV)
      else (intBits (fmtWidth g) r.1, if r.2 then 0 else fNX)
  else (fmtOf g).deliver c ops x

/-- convert of R95: from format f to format g. -/
def convert (c : FCtx) (f g : Nat) (x : Nat) : Nat × Nat :=
  if isIntFmt f then
    let v := signedNat x (fmtWidth f)
    if isIntFmt g then
      (intBits (fmtWidth g) (if c.sat then clampInt (intMin g) (intMax g) v else v), 0)
    else (fmtOf g).deliver c [] (.num (v < 0) v.natAbs 0)
  else
    let v := c.operand (fmtOf f) x
    if v.isNan then
      if isIntFmt g then (0, fNV) else ((fmtOf g).nanOf c [v], sigFlags [v])
    else deliverCode g c [v] v.exact

/-- The Q4N levels in 64ths (R87). -/
def q4Level (code : Nat) : Int :=
  let t : List Int := [-64, -45, -35, -27, -20, -14, -8, -3, 3, 8, 14, 20, 27, 35, 45, 64]
  t.getD (code % 16) 0

/-- The value of a Q4N element: level × s × F rounded once to nearest even in FP32 (R88). -/
def dequant (c : FCtx) (code s : Nat) (sf : Nat) : Nat × Nat :=
  let c := { c with mode := 0, sat := false }
  let l := q4Level code
  let x : FVal := .fin (l < 0) (l.natAbs * s) (-6)
  let y := c.operand fp32 sf
  fp32.apply c [y] (mulExact x y)

/-- The exact value of a format's element, for the engines: integers are exact and their zero is +0, DESIGN CHOICE (R102, R103, log 18). -/
def elemValue (c : FCtx) (code : Nat) (x : Nat) : FVal :=
  if isIntFmt code then
    let v := signedNat x (fmtWidth code)
    .fin (v < 0) v.natAbs 0
  else c.operand (fmtOf code) x

/-- The value of an E8M0 byte: 2^(e − 127) (R85); 0xff is NaN. -/
def e8m0Exp (b : Nat) : Option Int := if b % 256 == 255 then none else some ((b % 256 : Nat) - 127)

end Sys2Proof.Machine
end

