-- ==== Sys2Proof/Syntax.lean ====
section
/-! DEFINITION. The one inductive of instructions, operations and events: one constructor per row of spec/opcode_table.json.
The first part is the Pripra instruction set (R71, R72), the second the near-memory microprogram (R200), the third the events
of the table, each one indivisible step of some other agent (spec/95_what_each_step_holds.md). Operand fields stand as the
encoding has them; an event carries what its agent brings to it. -/

namespace Sys2Proof

/-- An entry of an address space's page tables (R112, R120): that of an address in the table of a level, 1 to 3. -/
structure TablePlace where
  va : Dword
  level : Nat
  deriving DecidableEq, Repr

/-- An error in DRAM (R122): the cell, and whether it was corrected. -/
structure DramError where
  cell : Nat
  corrected : Bool
  deriving DecidableEq, Repr

/-- A physical address in the name of a virtual interface (R246, R250). -/
structure PortAddr where
  vi : Nat
  pa : Nat
  deriving DecidableEq, Repr

/-- What the sensor of a compute die reads (R251), in 1/16 degree. -/
structure DieReading where
  die : Nat
  temp : Nat
  deriving DecidableEq, Repr

/-- What a peer transfer moves (R248): n bytes, read from the peer or written to it. -/
structure PeerRange where
  n : Nat
  read : Bool
  deriving DecidableEq, Repr

/-- Where an uncorrectable error of the unified store strikes (R123). -/
inductive EccPlace where
  /-- a sector of a line held in the core's L1 -/
  | l1 (line sector : Nat)
  /-- the 64-byte sector of a launch's scratch that holds this offset -/
  | scratch (launch off : Nat)
  /-- the sector of 16 accumulator cells that holds this cell -/
  | acc (launch cell : Nat)
  /-- the sector that holds this drain scale -/
  | drainScale (launch idx : Nat)
  /-- the sector that holds this block scale -/
  | blockScale (launch idx : Nat)
  /-- lanes 0-15 (half 0) or 16-31 (half 1) of the physical register that a crew's register names -/
  | preg (crew reg half : Nat)
  deriving DecidableEq, Repr

/-- An error in the unified store (R122, R123): its place, and whether it was corrected. -/
structure StoreError where
  place : EccPlace
  corrected : Bool
  deriving DecidableEq, Repr

/-- What a debugger halts, steps or dumps: a herd, or a thread that has no herd with its crew (R256). -/
inductive HaltTarget where
  | herd (h : Nat)
  | thread (tid : Word)
  deriving DecidableEq, Repr

/-- What the resident service makes of a remote client's frame (R247): a bag put or a launch record of the client's interface,
or a request that it answers itself. -/
inductive UeRequest where
  /-- a put into a bag of an address space, with the handle's index and generation, key and record bytes -/
  | put (asid idx gen : Nat) (key : Word) (record : List Byte)
  /-- a launch record for a queue of a virtual interface -/
  | launch (vi queue : Nat) (record : List Byte)
  /-- any other request -/
  | other (bytes : List Byte)
  deriving DecidableEq, Repr

/-- Instructions, microprogram operations and events. -/
inductive Instr where
  -- integer (0x00 to 0x3c)
  | nop
  | add (d a b : Reg) (f : Bool) (n : Cc)
  | addI (d a : Reg) (i : BitVec 12)
  | addc (d a b : Reg) (f : Bool) (n : Cc)
  | sub (d a b : Reg) (f : Bool) (n : Cc)
  | subb (d a b : Reg) (f : Bool) (n : Cc)
  | mul (d a b : Reg)
  | mulI (d a : Reg) (i : BitVec 12)
  | mulh (d a b : Reg) (s : Bool)
  | mad (d a b c : Reg)
  | div (d a b : Reg) (s : Bool)
  | rem (d a b : Reg) (s : Bool)
  | min (d a b : Reg) (s : Bool)
  | minI (d a : Reg) (i : BitVec 12)
  | max (d a b : Reg) (s : Bool)
  | maxI (d a : Reg) (i : BitVec 12)
  | abs (d a : Reg)
  | and (d a b : Reg)
  | andI (d a : Reg) (i : BitVec 12)
  | or (d a b : Reg)
  | orI (d a : Reg) (i : BitVec 12)
  | xor (d a b : Reg)
  | xorI (d a : Reg) (i : BitVec 12)
  | andn (d a b : Reg)
  | shl (d a b : Reg)
  | shlI (d a : Reg) (i : BitVec 12)
  | shr (d a b : Reg)
  | shrI (d a : Reg) (i : BitVec 12)
  | sar (d a b : Reg)
  | sarI (d a : Reg) (i : BitVec 12)
  | rot (d a b : Reg)
  | rotI (d a : Reg) (i : BitVec 12)
  | clz (d a : Reg)
  | popc (d a : Reg)
  | brev (d a : Reg)
  | bfx (d a b : Reg) (s : Bool)
  | bfi (d a b c : Reg)
  | perm (d a b c : Reg)
  | sel (d a b : Reg) (n : Cc) (k : BitVec 4)
  | cmp (n : Cc) (a b : Reg)
  | cmpI (n : Cc) (a : Reg) (i : BitVec 12)
  | lea (d a b : Reg) (x : Bool) (t : BitVec 3)
  | clmul (d a b : Reg) (h : Bool)
  | mov (d a : Reg)
  | add64 (d a b : Reg) (f : Bool) (n : Cc)
  | cmp64 (n : Cc) (a b : Reg)
  | movi (d : Reg) (k : BitVec 2) (i : Word)
  -- floating point (0x40 to 0x4d)
  | fadd (d a b : Reg) (r : BitVec 3)
  | fsub (d a b : Reg) (r : BitVec 3)
  | fmul (d a b : Reg) (r : BitVec 3)
  | ffma (d a b : Reg) (r : BitVec 3)
  | fmin (d a b : Reg)
  | fmax (d a b : Reg)
  | fcmp (n : Cc) (a b : Reg)
  | fclass (d a : Reg)
  | frcp (d a : Reg) (r : BitVec 3)
  | frsq (d a : Reg) (r : BitVec 3)
  | fsqrt (d a : Reg) (r : BitVec 3)
  | fexp2 (d a : Reg) (r : BitVec 3)
  | flog2 (d a : Reg) (r : BitVec 3)
  | dot4 (d a b : Reg) (e r : BitVec 3)
  -- packed halves and conversion (0x60 to 0x66)
  | h2add (d a b : Reg) (h : Bool) (r : BitVec 3)
  | h2mul (d a b : Reg) (h : Bool) (r : BitVec 3)
  | h2fma (d a b : Reg) (h : Bool) (r : BitVec 3)
  | h2min (d a b : Reg) (h : Bool)
  | h2max (d a b : Reg) (h : Bool)
  | cvt (d a : Reg) (s t : BitVec 3) (i : BitVec 2) (q : Bool) (r : BitVec 3)
  | dq4 (d a b c : Reg)
  -- across lanes (0x70 to 0x73)
  | shfl (d a b : Reg) (z : Bool) (m : BitVec 2)
  | vote (d a : Reg) (k : BitVec 2)
  | scan (d a : Reg) (s x : Bool) (o : BitVec 3)
  | topk (d a b k : Reg)
  -- memory (0x80 to 0x89)
  | ld (d a b : Reg) (z : BitVec 3) (p : BitVec 2) (x : Bool)
  | ldWide (d a b : Reg) (z : BitVec 3) (p : BitVec 2) (x : Bool) (off : Word)
  | st (d a b : Reg) (z : BitVec 3) (p : BitVec 2)
  | stWide (d a b : Reg) (z : BitVec 3) (p : BitVec 2) (off : Word)
  | lda (d a b : Reg) (z : BitVec 3) (p : BitVec 2) (x : Bool)
  | strel (d a b : Reg) (z : BitVec 3) (p : BitVec 2)
  | ldnc (d a b : Reg) (z : BitVec 3) (p : BitVec 2) (x : Bool)
  | stnc (d a b : Reg) (z : BitVec 3) (p : BitVec 2)
  | atom (d a b : Reg) (o : BitVec 4) (s p : Bool)
  | fenceCore
  | fenceDev
  | fenceSys
  -- control, meetings, herds, broods (0xa0 to 0xac)
  | br (o : BitVec 24)
  | call (o : BitVec 24)
  | jmp (a : Reg)
  | ret (a : Reg)
  | mpush (o : BitVec 24)
  | mjoin (i : BitVec 12)
  | mdrop (i : BitVec 12)
  | exit
  | bar (i : BitVec 12)
  | bara (i : BitVec 12)
  | yield
  | spawn (a n : Reg) (entry : BitVec 24) (t : BitVec 8)
  | regroup (a : Reg) (entry : BitVec 24) (t : BitVec 8)
  -- futures, copy engine, trigger counters (0xb0 to 0xbb)
  | fwait (d a : Reg) (t : Bool)
  | ftest (d a : Reg)
  | fcancel (a : Reg)
  | fwany (d a : Reg)
  | fwall (a : Reg)
  | ffirst (d a : Reg)
  | copy (d a b : Reg) (dir : BitVec 2) (shape : BitVec 20) (n : BitVec 4) (t : Bool)
  | copys (d a b : Reg) (k : Bool)
  | ctset (n : BitVec 4) (a : Reg)
  | ctadd (n : BitVec 4) (a : Reg)
  | fetch (d a : Reg) (q : BitVec 4)
  | launch (d a : Reg)
  -- matrix engine (0xc0 to 0xc2)
  | mma (d a b : Reg) (na nb za q t : Bool) (acc : BitVec 17) (n : BitVec 4) (thr : BitVec 11)
  | mdrain (d a b : Reg) (rs cs sat : Bool) (r : BitVec 3) (acc : BitVec 17)
  | mzero (d a b : Reg)
  -- bags (0xc8 to 0xcd)
  | bput (d a b : Reg) (f : Bool) (n : Cc)
  | btake (d a b : Reg) (f : Bool) (n : Cc)
  | bdrain (d a b c : Reg)
  | bscan (d a b c : Reg)
  | bcount (d a : Reg)
  | binfo (d a b : Reg)
  -- near memory (0xd0 to 0xd3)
  | nmload (d a b n : Reg)
  | nmarm (d a : Reg)
  | nmrun (d a : Reg)
  | nmdisarm (d a : Reg)
  -- system (0xd8 to 0xdd)
  | scall (d a : Reg) (i : BitVec 12)
  | trap (i : BitVec 12)
  | tret
  | sread (d : Reg) (i : BitVec 12)
  | swrite (a : Reg) (i : BitVec 12)
  | bkpt (i : BitVec 12)
  -- the near-memory microprogram (R200, R201)
  | mEnd
  | mRows (s : BitVec 2)
  | mCols (s : BitVec 2) (d : Bool)
  | mBvec
  | mMacb
  | mAxpy
  | mRed
  | mActv
  | mWcol (s : BitVec 2)
  | mWmbx
  | mLoop (n : BitVec 16) (target : BitVec 6)
  -- traps, meetings, holds, broods
  | takeTrap (cause : Word) (va : Dword)
  | trapPolicy (k : Nat)
  | pageRepair (k : Nat)
  | debuggerRelease (launch : Nat) (tid : Word) (kill : Bool)
  | meetDeadline (crew meeting : Nat)
  | yieldExpiry (crew lane : Nat)
  | binTimerExpiry (cluster bin : Nat)
  -- the register pool and scratch banks
  | poolGrow (core : Nat)
  | poolBankJoin (core : Nat)
  | poolBankReturn (core : Nat)
  | poolSpill (core : Nat)
  | registerRefill (crew reg : Nat)
  | scratchBankJoin (core launch : Nat)
  -- home controllers
  | loadFill (core asid : Nat) (va : Dword)
  | storeHomeApply (k : Nat)
  | completionTimeReturn (k : Nat)
  | atomHome (core asid : Nat) (va : Dword) (o : BitVec 4) (s : Bool) (operand comparand : Dword)
  -- engines
  | copyComplete (id : Nat)
  | fetchComplete (id : Nat) (data : List Byte) (status : BitVec 11)
  | mmaStart (core : Nat)
  | mmaComplete (core : Nat)
  | drainStageStart (core : Nat)
  | mdrainComplete (core : Nat)
  | mzeroComplete (core : Nat)
  | copysComplete (core : Nat)
  -- bags
  | reservationServe (k : Nat)
  | placementBatch (asid idx share : Nat)
  | placementComplete (asid idx share : Nat)
  | drainRound (id : Nat)
  -- near memory
  | nmloadComplete (id : Nat)
  | nmarmSeal (id : Nat)
  | nmrunStart (stack : Nat)
  | nmrunComplete (id : Nat)
  | nmdisarmComplete (id : Nat)
  | refresh (pc : Nat)
  | computeResume (pc : Nat)
  -- the resident service's calls
  | serviceReply (id : Nat)
  | allocSvc (id lane : Nat)
  | freeSvc (id lane : Nat)
  | bagnewSvc (id lane : Nat)
  | bagfreeSvc (id lane : Nat)
  | printSvc (id lane : Nat)
  -- launches and admission
  | doorbellWrite (vi offset : Nat) (tail : Word)
  | launchRecordAccept (vi queue : Nat)
  | launchStart (lid : Nat)
  | launchCompletion (lid : Nat)
  | crewAdmit (cluster : Nat)
  | preempt (cluster : Nat)
  | ballastWindow (core port : Nat)
  -- mapping, errors, host, fabric
  | mapExecutable (asid : Nat) (pages : List (Dword × Dword × Bool))
  | shootdown (asid : Nat) (place : TablePlace) (entry : Dword)
  | eccUncorrectable (e : DramError)
  | storeEccError (core : Nat) (e : StoreError)
  | hostWrite (dest : PortAddr) (data : List Byte)
  | hostRead (dest : PortAddr) (n : Nat)
  | supexWriteIn (port : Nat) (dest : PortAddr) (data : List Byte) (poison : List Bool)
  | supexReadIn (port : Nat) (dest : PortAddr) (reply : Option (List Byte × List Bool))
  | flitRetry (port : Nat)
  | supexPortDown (port : Nat)
  | ueFrameReceive (port : Nat) (req : UeRequest)
  | ueLinkDown (port : Nat)
  | linkTrain (rates : List Nat) (width : Nat)
  | resetBoot (image : List Byte)
  | thermalWarning (die temp : Nat)
  | dieClockStep (die temp : Nat)
  | thermalTrip (reading : DieReading)
  | refreshTierChange (stack temp : Nat)
  | governorPeriod (power : Nat)
  | setPowerCap (watts : Nat)
  | setBallastSetpoint (watts : Option Nat)
  | checkpoint
  | checkpointComplete
  -- debugger
  | haltHerd (lid : Nat) (t : HaltTarget)
  | dbgStep (lid : Nat) (t : HaltTarget)
  | dump (lid : Nat) (t : HaltTarget)
  -- time, acknowledgement, walks
  | dtimePassed (t : Nat)
  | hostGloballyObservedAck (k : Nat)
  | tableWalkComplete (die asid : Nat) (va : Dword)
  -- system software
  | debuggerAttach (lid : Nat)
  | systemSoftwareKill (lid : Nat)
  | addressSpaceCreate (vi asid root lease : Nat)
  | addressSpaceDestroy (asid : Nat)
  | virtualInterfaceCreate (vi asidQuota memQuota weight : Nat) (pcs : List Nat)
  | queuePairBind (vi q ctrl nsid lbaSize : Nat)
  | launchQueueSetup (vi queue : Nat) (base : Dword) (log2 : Nat)
  | rangeRegister (asid : Nat) (base : Dword) (pages : Nat)
  | setAdmissionWeight (vi weight : Nat)
  | firewallRangeGrant (vi base units : Nat)
  | peerTransfer (port pa : Nat) (what : PeerRange)
  | recoveryLoad (port : Bool) (image : List Byte)
  deriving DecidableEq, Repr

end Sys2Proof
end

