-- ==== Sys2Proof/WellFormed.lean ====
section
/-! DEFINITION. The operand limits that the page scanner enforces (R41, R46, R70, R72, R73, R74, R76): which reasons an
instruction gives for refusing its page, and which last-use positions name a source register. An instruction is well formed
when it gives no reason. -/

namespace Sys2Proof

/-- The reasons of a mapping refusal, in the order of R76. -/
inductive Reason where
  | gen | reserved | opcode | wide | operand | grouping | guard | lastUse | wx
  deriving DecidableEq, Repr

/-- The number that R76 gives a reason. -/
def Reason.number : Reason → Nat
  | .gen => 1 | .reserved => 2 | .opcode => 3 | .wide => 4 | .operand => 5 | .grouping => 6 | .guard => 7 | .lastUse => 8
  | .wx => 9

/-- The first register of a pair is even (R46). -/
def evenReg (r : Reg) : Bool := r.toNat % 2 == 0
/-- The first register of a group is a multiple of 4 (R46). -/
def quadReg (r : Reg) : Bool := r.toNat % 4 == 0

/-- The reason, when the limit does not hold. -/
def need (ok : Bool) (r : Reason) : List Reason := if ok then [] else [r]

/-- Rounding codes 0 to 4 are accepted (R73). -/
def rndReasons (r : BitVec 3) : List Reason := need (r.toNat ≤ 4) .operand

/-- The cc field is 0 when F is clear (R72). -/
def ccReasons (f : Bool) (n : Cc) : List Reason := need (f || n == 0) .reserved

/-- Shift immediates run from 0 to 31 (R72). -/
def shiftReasons (i : BitVec 12) : List Reason := need (i.toNat ≤ 31) .operand

/-- A data register of the size's width is grouped as R73 and R46 say. -/
def sizeGroup (z : BitVec 3) (d : Reg) : Bool :=
  match z.toNat with
  | 3 => evenReg d
  | 4 => quadReg d
  | _ => true

/-- The memory fn of R73 for an access with data register d and base a; scratch says whether space 1 is accepted. -/
def memReasons (d a : Reg) (z : BitVec 3) (p : BitVec 2) (x scratch : Bool) : List Reason :=
  need (z.toNat ≤ 4) .operand ++ need (p.toNat ≤ 2 && (scratch || p != 1)) .operand ++ need (!x || z.toNat ≤ 1) .operand ++
  need (sizeGroup z d) .grouping ++ need (p == 1 || evenReg a) .grouping

/-- The element index limit of CVT (R297). -/
def cvtIndexOk (s t : BitVec 3) (i : BitVec 2) : Bool :=
  let w : BitVec 3 → Nat := fun c => match c.toNat with | 0 => 32 | 1 => 16 | 2 => 16 | 7 => 32 | _ => 8
  let side := if w s < 32 then w s else w t
  i.toNat < 32 / side

/-- The special registers that SREAD accepts (R356). -/
def sreadOk (n : Nat) : Bool :=
  n ≤ 6 || (8 ≤ n && n ≤ 0xc) || n == 0x10 || n == 0x12 || (0x14 ≤ n && n ≤ 0x18) || n == 0x20 || n == 0x21 || n == 0x30 ||
  n == 0x31 || n == 0x33 || (0x40 ≤ n && n ≤ 0x4f)

/-- The special registers that SREAD delivers in a pair (R356). -/
def sreadPair (n : Nat) : Bool := n == 0x10 || n == 0x12 || n == 0x18 || n == 0x31 || n == 0x33

/-- Every reason for which the scanner refuses the instruction's fields; none for an instruction within its limits. R76 does not say which reason
the odd first record register of BPUT or BTAKE reports: DESIGN CHOICE, GROUPING (log 90). A
microprogram word's limits are those of R200 that its own fields can break. Events have no encoding and no limit. -/
def Instr.reasons : Instr → List Reason
  | .add _ _ _ f n | .sub _ _ _ f n => ccReasons f n
  | .shlI _ _ i | .shrI _ _ i | .sarI _ _ i | .rotI _ _ i => shiftReasons i
  | .sel _ _ _ _ k => need (k != 0 && k != 15) .operand
  | .lea d a _ _ _ => need (evenReg d && evenReg a) .grouping
  | .add64 d a b f n => ccReasons f n ++ need (evenReg d && evenReg a && evenReg b) .grouping
  | .cmp64 _ a b => need (evenReg a && evenReg b) .grouping
  | .movi d k _ => need (k == 0 || evenReg d) .grouping
  | .fadd _ _ _ r | .fsub _ _ _ r | .fmul _ _ _ r | .ffma _ _ _ r => rndReasons r
  | .frcp _ _ r | .frsq _ _ r | .fsqrt _ _ r | .fexp2 _ _ r | .flog2 _ _ r => rndReasons r
  | .dot4 _ _ _ e r => need (3 ≤ e.toNat && e.toNat ≤ 5) .operand ++ rndReasons r
  | .h2add _ _ _ _ r | .h2mul _ _ _ _ r | .h2fma _ _ _ _ r => rndReasons r
  | .cvt _ _ s t i _ r => need (s != 6 && t != 6) .operand ++ need (cvtIndexOk s t i) .operand ++ rndReasons r
  | .scan _ _ s _ o => need (o.toNat ≤ 5 && (!s || o == 1 || o == 2)) .operand
  | .topk d _ b k => need (1 ≤ k.toNat && k.toNat ≤ 8 && d != b) .operand
  | .ld d a _ z p x | .ldWide d a _ z p x _ | .lda d a _ z p x => memReasons d a z p x true
  | .ldnc d a _ z p x => memReasons d a z p x false
  | .st d a _ z p | .stWide d a _ z p _ | .strel d a _ z p => memReasons d a z p false true
  | .stnc d a _ z p => memReasons d a z p false false
  | .atom d a b o s p =>
    need (o.toNat ≤ 10 && !(o == 10 && s)) .operand ++
    need ((p || evenReg a) && (!s || (evenReg d && evenReg b))) .grouping
  | .jmp a | .ret a | .fwany _ a | .fwall a | .ffirst _ a | .fetch _ a _ | .launch _ a => need (evenReg a) .grouping
  | .mjoin i => need (i.toNat ≤ 2047) .operand
  | .mdrop i => need (1 ≤ i.toNat && i.toNat ≤ 16) .operand
  | .bar i | .bara i => need (i.toNat ≤ 3) .operand
  | .spawn a n _ _ =>
    need (n.toNat ≤ 8 && a.toNat + n.toNat ≤ 64) .operand ++ need (n != 0 || a == 0) .reserved
  | .copy _ a b dir shape n t =>
    need (dir != 3 && shape.toNat % 32 == 0) .operand ++ need (t || n == 0) .reserved ++
    need ((dir == 1 || evenReg a) && (dir == 0 || evenReg b)) .grouping
  | .mma _ _ _ _ _ _ _ t _ n thr => need (t || (n == 0 && thr == 0)) .reserved
  | .mdrain _ _ _ _ _ _ r _ => rndReasons r
  | .bput d a _ f n | .btake d a _ f n => ccReasons f n ++ need (evenReg d && evenReg a) .grouping
  | .bdrain _ a _ _ | .bcount _ a | .binfo _ a _ | .nmload _ a _ _ | .nmarm _ a | .nmrun _ a | .nmdisarm _ a =>
    need (evenReg a) .grouping
  | .bscan d a _ _ => need (quadReg d && evenReg a) .grouping
  | .scall _ a i => need (i.toNat ≤ 2047) .operand ++ need (quadReg a) .grouping
  | .trap i | .bkpt i => need (i.toNat ≤ 2047) .operand
  | .sread d i => need (sreadOk i.toNat) .operand ++ need (!sreadPair i.toNat || evenReg d) .grouping
  | .swrite _ i => need (i == 0x14 || i == 0x15 || i == 0x16) .operand
  | .mLoop n _ => need (n != 0) .operand
  | _ => []

/-- Within every limit that the scanner checks on the instruction's own fields. -/
def Instr.wf (i : Instr) : Bool := i.reasons == []

/-- The wide instructions, which take an extension word (R68). -/
def Instr.isWide : Instr → Bool
  | .movi .. | .ldWide .. | .stWide .. | .spawn .. | .regroup .. | .copy .. | .mma .. | .mdrain .. => true
  | _ => false

/-- The last-use positions that name a source register (R70): bit 0 for sa, bit 1 for sb, bit 2 for sc or a store's data. An
index of 0 names no register (R73). -/
def Instr.sources : Instr → BitVec 3
  | .mad .. | .bfi .. | .perm .. | .dq4 .. | .bput .. | .bdrain .. | .bscan .. => 0b111
  | .ld _ _ b _ _ _ | .ldWide _ _ b _ _ _ _ | .lda _ _ b _ _ _ | .ldnc _ _ b _ _ _ => if b == 0 then 0b001 else 0b011
  | .st _ _ b _ _ | .stWide _ _ b _ _ _ | .strel _ _ b _ _ | .stnc _ _ b _ _ => if b == 0 then 0b101 else 0b111
  | .add .. | .addc .. | .sub .. | .subb .. | .mul .. | .mulh .. | .div .. | .rem .. | .min .. | .max .. | .and .. | .or ..
  | .xor .. | .andn .. | .shl .. | .shr .. | .sar .. | .rot .. | .bfx .. | .sel .. | .cmp .. | .lea .. | .clmul .. | .add64 ..
  | .cmp64 .. | .fadd .. | .fsub .. | .fmul .. | .ffma .. | .fmin .. | .fmax .. | .fcmp .. | .dot4 .. | .h2add .. | .h2mul ..
  | .h2fma .. | .h2min .. | .h2max .. | .shfl .. | .atom .. | .copy .. | .copys .. | .mma .. | .mdrain .. | .mzero ..
  | .btake .. | .binfo .. | .nmload .. => 0b011
  | .addI .. | .mulI .. | .minI .. | .maxI .. | .abs .. | .andI .. | .orI .. | .xorI .. | .shlI .. | .shrI .. | .sarI ..
  | .rotI .. | .clz .. | .popc .. | .brev .. | .cmpI .. | .mov .. | .fclass .. | .frcp .. | .frsq .. | .fsqrt .. | .fexp2 ..
  | .flog2 .. | .cvt .. | .vote .. | .scan .. | .topk .. | .jmp .. | .ret .. | .regroup .. | .fwait .. | .ftest ..
  | .fcancel .. | .fwany .. | .fwall .. | .ffirst .. | .ctset .. | .ctadd .. | .fetch .. | .launch .. | .bcount .. | .nmarm ..
  | .nmrun .. | .nmdisarm .. | .scall .. | .swrite .. => 0b001
  | .spawn _ n _ _ => if n == 0 then 0 else 0b001
  | _ => 0

/-- A guard with AL or NV leaves its register field 00 (R47). -/
def guardOk (g : BitVec 6) : Bool :=
  !(g.extractLsb' 0 4 == 0 || g.extractLsb' 0 4 == 15) || g.extractLsb' 4 2 == 0

/-- A last-use bit stands only where the position names a source (R70). -/
def lastUseOk (i : Instr) (lu : BitVec 3) : Bool := lu &&& ~~~ i.sources == 0

end Sys2Proof
end

