-- ==== Sys2Proof/Decode.lean ====
section
/-! DEFINITION. Packets and instruction words (R65 to R73), the microprogram words of R200, their decoders, total on any bits and
refusing by the reasons of R76, and the encoder, written from the same tables. -/

namespace Sys2Proof

/-- The five fields of an R-form word (R69). -/
structure Fields where
  op : BitVec 8
  d : Reg
  a : Reg
  b : Reg
  fn : Reg
  deriving DecidableEq, Repr

/-- The fields of a word (R69). -/
def fieldsOf (w : Word) : Fields :=
  ⟨w.extractLsb' 24 8, w.extractLsb' 18 6, w.extractLsb' 12 6, w.extractLsb' 6 6, w.extractLsb' 0 6⟩

/-- The imm12 of an I-form word: the sb and fn fields together (R69). -/
def Fields.imm (f : Fields) : BitVec 12 := f.b ++ f.fn

/-- The off24 of a B-form word (R69). -/
def Fields.off (f : Fields) : BitVec 24 := f.d ++ f.a ++ f.b ++ f.fn

/-- Accept the instruction when its must-be-zero fields are zero (R6, R74). -/
def zeroed (ok : Bool) (i : Instr) : Except Reason Instr := if ok then .ok i else .error .reserved

/-- Bit n of the fn field. -/
def Fields.bit (f : Fields) (n : Nat) : Bool := f.fn.getLsbD n
/-- The cc field in fn bits 1:0. -/
def Fields.cc (f : Fields) : Cc := f.fn.extractLsb' 0 2
/-- The cc field in dst bits 1:0. -/
def Fields.dcc (f : Fields) : Cc := f.d.extractLsb' 0 2
/-- fn bits 2:0, a rounding code or a selector. -/
def Fields.lo3 (f : Fields) : BitVec 3 := f.fn.extractLsb' 0 3
/-- fn bits 5:3. -/
def Fields.hi3 (f : Fields) : BitVec 3 := f.fn.extractLsb' 3 3
/-- fn bits 2:1, the space of the memory fn (R73). -/
def Fields.space (f : Fields) : BitVec 2 := f.fn.extractLsb' 1 2

/-- Opcodes 0x00 to 0x0f (R71, R72). -/
def decode0 (lo : Nat) (f : Fields) : Except Reason Instr :=
  match lo with
  | 0 => zeroed (f.d == 0 && f.a == 0 && f.b == 0 && f.fn == 0) .nop
  | 1 => zeroed (f.hi3 == 0) (.add f.d f.a f.b (f.bit 2) f.cc)
  | 2 => zeroed (f.hi3 == 0) (.addc f.d f.a f.b (f.bit 2) f.cc)
  | 3 => zeroed (f.hi3 == 0) (.sub f.d f.a f.b (f.bit 2) f.cc)
  | 4 => zeroed (f.hi3 == 0) (.subb f.d f.a f.b (f.bit 2) f.cc)
  | 5 => zeroed (f.fn == 0) (.mul f.d f.a f.b)
  | 6 => zeroed (f.fn.extractLsb' 1 5 == 0) (.mulh f.d f.a f.b (f.bit 0))
  | 7 => .ok (.mad f.d f.a f.b f.fn)
  | 8 => zeroed (f.fn.extractLsb' 1 5 == 0) (.div f.d f.a f.b (f.bit 0))
  | 9 => zeroed (f.fn.extractLsb' 1 5 == 0) (.rem f.d f.a f.b (f.bit 0))
  | 10 => zeroed (f.fn.extractLsb' 1 5 == 0) (.min f.d f.a f.b (f.bit 0))
  | 11 => zeroed (f.fn.extractLsb' 1 5 == 0) (.max f.d f.a f.b (f.bit 0))
  | 12 => zeroed (f.b == 0 && f.fn == 0) (.abs f.d f.a)
  | 13 => zeroed (f.fn == 0) (.and f.d f.a f.b)
  | 14 => zeroed (f.fn == 0) (.or f.d f.a f.b)
  | 15 => zeroed (f.fn == 0) (.xor f.d f.a f.b)
  | _ => .error .opcode

/-- Opcodes 0x10 to 0x1f (R71, R72). -/
def decode1 (lo : Nat) (f : Fields) : Except Reason Instr :=
  match lo with
  | 0 => zeroed (f.fn == 0) (.andn f.d f.a f.b)
  | 1 => zeroed (f.fn == 0) (.shl f.d f.a f.b)
  | 2 => zeroed (f.fn == 0) (.shr f.d f.a f.b)
  | 3 => zeroed (f.fn == 0) (.sar f.d f.a f.b)
  | 4 => zeroed (f.fn == 0) (.rot f.d f.a f.b)
  | 5 => zeroed (f.b == 0 && f.fn == 0) (.clz f.d f.a)
  | 6 => zeroed (f.b == 0 && f.fn == 0) (.popc f.d f.a)
  | 7 => zeroed (f.b == 0 && f.fn == 0) (.brev f.d f.a)
  | 8 => zeroed (f.fn.extractLsb' 1 5 == 0) (.bfx f.d f.a f.b (f.bit 0))
  | 9 => .ok (.bfi f.d f.a f.b f.fn)
  | 10 => .ok (.perm f.d f.a f.b f.fn)
  | 11 => .ok (.sel f.d f.a f.b (f.fn.extractLsb' 4 2) (f.fn.extractLsb' 0 4))
  | 12 => zeroed (f.d.extractLsb' 2 4 == 0 && f.fn == 0) (.cmp f.dcc f.a f.b)
  | 13 => zeroed (f.fn.extractLsb' 4 2 == 0) (.lea f.d f.a f.b (f.bit 3) f.lo3)
  | 14 => zeroed (f.fn.extractLsb' 1 5 == 0) (.clmul f.d f.a f.b (f.bit 0))
  | 15 => zeroed (f.b == 0 && f.fn == 0) (.mov f.d f.a)
  | _ => .error .opcode

/-- Opcodes 0x20 to 0x2f, the I forms of 0x00 to 0x0f (R71, R72). -/
def decode2 (lo : Nat) (f : Fields) : Except Reason Instr :=
  match lo with
  | 1 => .ok (.addI f.d f.a f.imm)
  | 5 => .ok (.mulI f.d f.a f.imm)
  | 10 => .ok (.minI f.d f.a f.imm)
  | 11 => .ok (.maxI f.d f.a f.imm)
  | 13 => .ok (.andI f.d f.a f.imm)
  | 14 => .ok (.orI f.d f.a f.imm)
  | 15 => .ok (.xorI f.d f.a f.imm)
  | _ => .error .opcode

/-- Opcodes 0x30 to 0x3f (R71, R72); MOVI takes the extension word. -/
def decode3 (lo : Nat) (f : Fields) (ext : Word) : Except Reason Instr :=
  match lo with
  | 1 => .ok (.shlI f.d f.a f.imm)
  | 2 => .ok (.shrI f.d f.a f.imm)
  | 3 => .ok (.sarI f.d f.a f.imm)
  | 4 => .ok (.rotI f.d f.a f.imm)
  | 8 => zeroed (f.hi3 == 0) (.add64 f.d f.a f.b (f.bit 2) f.cc)
  | 9 => zeroed (f.d.extractLsb' 2 4 == 0 && f.fn == 0) (.cmp64 f.dcc f.a f.b)
  | 10 =>
    if f.a == 0 && f.b == 0 then (if f.fn.extractLsb' 2 4 == 0 then .ok (.movi f.d f.cc ext) else .error .operand) else .error .reserved
  | 12 => zeroed (f.d.extractLsb' 2 4 == 0) (.cmpI f.dcc f.a f.imm)
  | _ => .error .opcode

/-- Opcodes 0x40 to 0x4f (R71, R72). -/
def decode4 (lo : Nat) (f : Fields) : Except Reason Instr :=
  match lo with
  | 0 => zeroed (f.hi3 == 0) (.fadd f.d f.a f.b f.lo3)
  | 1 => zeroed (f.hi3 == 0) (.fsub f.d f.a f.b f.lo3)
  | 2 => zeroed (f.hi3 == 0) (.fmul f.d f.a f.b f.lo3)
  | 3 => zeroed (f.hi3 == 0) (.ffma f.d f.a f.b f.lo3)
  | 4 => zeroed (f.fn == 0) (.fmin f.d f.a f.b)
  | 5 => zeroed (f.fn == 0) (.fmax f.d f.a f.b)
  | 6 => zeroed (f.d.extractLsb' 2 4 == 0 && f.fn == 0) (.fcmp f.dcc f.a f.b)
  | 7 => zeroed (f.b == 0 && f.fn == 0) (.fclass f.d f.a)
  | 8 => zeroed (f.b == 0 && f.hi3 == 0) (.frcp f.d f.a f.lo3)
  | 9 => zeroed (f.b == 0 && f.hi3 == 0) (.frsq f.d f.a f.lo3)
  | 10 => zeroed (f.b == 0 && f.hi3 == 0) (.fsqrt f.d f.a f.lo3)
  | 11 => zeroed (f.b == 0 && f.hi3 == 0) (.fexp2 f.d f.a f.lo3)
  | 12 => zeroed (f.b == 0 && f.hi3 == 0) (.flog2 f.d f.a f.lo3)
  | 13 => .ok (.dot4 f.d f.a f.b f.hi3 f.lo3)
  | _ => .error .opcode

/-- Opcodes 0x60 to 0x6f (R71, R72). -/
def decode6 (lo : Nat) (f : Fields) : Except Reason Instr :=
  match lo with
  | 0 => zeroed (f.fn.extractLsb' 4 2 == 0) (.h2add f.d f.a f.b (f.bit 3) f.lo3)
  | 1 => zeroed (f.fn.extractLsb' 4 2 == 0) (.h2mul f.d f.a f.b (f.bit 3) f.lo3)
  | 2 => zeroed (f.fn.extractLsb' 4 2 == 0) (.h2fma f.d f.a f.b (f.bit 3) f.lo3)
  | 3 => zeroed (f.fn.extractLsb' 4 2 == 0 && f.lo3 == 0) (.h2min f.d f.a f.b (f.bit 3))
  | 4 => zeroed (f.fn.extractLsb' 4 2 == 0 && f.lo3 == 0) (.h2max f.d f.a f.b (f.bit 3))
  | 5 => .ok (.cvt f.d f.a (f.b.extractLsb' 3 3) (f.b.extractLsb' 0 3) (f.fn.extractLsb' 4 2) (f.bit 3) f.lo3)
  | 6 => .ok (.dq4 f.d f.a f.b f.fn)
  | _ => .error .opcode

/-- Opcodes 0x70 to 0x7f (R71, R72). -/
def decode7 (lo : Nat) (f : Fields) : Except Reason Instr :=
  match lo with
  | 0 => zeroed (f.hi3 == 0) (.shfl f.d f.a f.b (f.bit 2) f.cc)
  | 1 => zeroed (f.b == 0 && f.fn.extractLsb' 2 4 == 0) (.vote f.d f.a f.cc)
  | 2 => zeroed (f.b == 0 && !f.bit 5) (.scan f.d f.a (f.bit 4) (f.bit 3) f.lo3)
  | 3 => .ok (.topk f.d f.a f.b f.fn)
  | _ => .error .opcode

/-- Opcodes 0x80 to 0x8f (R71, R72); the wide forms take the extension word. -/
def decode8 (lo : Nat) (f : Fields) (ext : Word) : Except Reason Instr :=
  match lo with
  | 0 => .ok (.ld f.d f.a f.b f.hi3 f.space (f.bit 0))
  | 1 => .ok (.ldWide f.d f.a f.b f.hi3 f.space (f.bit 0) ext)
  | 2 => zeroed (!f.bit 0) (.st f.d f.a f.b f.hi3 f.space)
  | 3 => zeroed (!f.bit 0) (.stWide f.d f.a f.b f.hi3 f.space ext)
  | 4 => .ok (.lda f.d f.a f.b f.hi3 f.space (f.bit 0))
  | 5 => zeroed (!f.bit 0) (.strel f.d f.a f.b f.hi3 f.space)
  | 6 => .ok (.ldnc f.d f.a f.b f.hi3 f.space (f.bit 0))
  | 7 => zeroed (!f.bit 0) (.stnc f.d f.a f.b f.hi3 f.space)
  | 8 => .ok (.atom f.d f.a f.b (f.fn.extractLsb' 2 4) (f.bit 1) (f.bit 0))
  | 9 =>
    if f.d == 0 && f.a == 0 && f.b == 0 then
      match f.fn.toNat with
      | 0 => .ok .fenceCore
      | 1 => .ok .fenceDev
      | 2 => .ok .fenceSys
      | _ => .error .operand
    else .error .reserved
  | _ => .error .opcode

/-- Opcodes 0xa0 to 0xaf (R41, R71, R72); SPAWN and REGROUP take the extension word. -/
def decodeA (lo : Nat) (f : Fields) (ext : Word) : Except Reason Instr :=
  match lo with
  | 0 => .ok (.br f.off)
  | 1 => .ok (.call f.off)
  | 2 => zeroed (f.d == 0 && f.b == 0 && f.fn == 0) (.jmp f.a)
  | 3 => zeroed (f.d == 0 && f.b == 0 && f.fn == 0) (.ret f.a)
  | 4 => .ok (.mpush f.off)
  | 5 => zeroed (f.d == 0 && f.a == 0) (.mjoin f.imm)
  | 6 => zeroed (f.d == 0 && f.a == 0) (.mdrop f.imm)
  | 7 => zeroed (f.d == 0 && f.a == 0 && f.b == 0 && f.fn == 0) .exit
  | 8 => zeroed (f.d == 0 && f.a == 0) (.bar f.imm)
  | 9 => zeroed (f.d == 0 && f.a == 0) (.bara f.imm)
  | 10 => zeroed (f.d == 0 && f.a == 0 && f.b == 0 && f.fn == 0) .yield
  | 11 => zeroed (f.d == 0 && f.b == 0) (.spawn f.a f.fn (ext.extractLsb' 8 24) (ext.extractLsb' 0 8))
  | 12 => zeroed (f.d == 0 && f.b == 0 && f.fn == 0) (.regroup f.a (ext.extractLsb' 8 24) (ext.extractLsb' 0 8))
  | _ => .error .opcode

/-- Opcodes 0xb0 to 0xbf (R71, R72); COPY takes the extension word. -/
def decodeB (lo : Nat) (f : Fields) (ext : Word) : Except Reason Instr :=
  match lo with
  | 0 => zeroed (f.b == 0 && f.fn.extractLsb' 1 5 == 0) (.fwait f.d f.a (f.bit 0))
  | 1 => zeroed (f.b == 0 && f.fn == 0) (.ftest f.d f.a)
  | 2 => zeroed (f.d == 0 && f.b == 0 && f.fn == 0) (.fcancel f.a)
  | 3 => zeroed (f.b == 0 && f.fn == 0) (.fwany f.d f.a)
  | 4 => zeroed (f.d == 0 && f.b == 0 && f.fn == 0) (.fwall f.a)
  | 5 => zeroed (f.b == 0 && f.fn == 0) (.ffirst f.d f.a)
  | 6 =>
    zeroed (f.fn.extractLsb' 2 4 == 0 && ext.extractLsb' 25 7 == 0)
      (.copy f.d f.a f.b f.cc (ext.extractLsb' 0 20) (ext.extractLsb' 20 4) (ext.getLsbD 24))
  | 7 => zeroed (f.fn.extractLsb' 1 5 == 0) (.copys f.d f.a f.b (f.bit 0))
  | 8 =>
    if f.b == 0 && f.fn == 0 then (if f.d.extractLsb' 4 2 == 0 then .ok (.ctset (f.d.extractLsb' 0 4) f.a) else .error .operand)
    else .error .reserved
  | 9 =>
    if f.b == 0 && f.fn == 0 then (if f.d.extractLsb' 4 2 == 0 then .ok (.ctadd (f.d.extractLsb' 0 4) f.a) else .error .operand)
    else .error .reserved
  | 10 => zeroed (f.b == 0 && f.fn.extractLsb' 4 2 == 0) (.fetch f.d f.a (f.fn.extractLsb' 0 4))
  | 11 => zeroed (f.b == 0 && f.fn == 0) (.launch f.d f.a)
  | _ => .error .opcode

/-- Opcodes 0xc0 to 0xcf (R71, R72); MMA and MDRAIN take the extension word. -/
def decodeC (lo : Nat) (f : Fields) (ext : Word) : Except Reason Instr :=
  match lo with
  | 0 =>
    zeroed (!f.bit 5) (.mma f.d f.a f.b (f.bit 0) (f.bit 1) (f.bit 2) (f.bit 3) (f.bit 4) (ext.extractLsb' 0 17)
      (ext.extractLsb' 17 4) (ext.extractLsb' 21 11))
  | 1 =>
    zeroed (ext.extractLsb' 17 15 == 0)
      (.mdrain f.d f.a f.b (f.bit 0) (f.bit 1) (f.bit 2) f.hi3 (ext.extractLsb' 0 17))
  | 2 => zeroed (f.fn == 0) (.mzero f.d f.a f.b)
  | 8 => zeroed (f.hi3 == 0) (.bput f.d f.a f.b (f.bit 2) f.cc)
  | 9 => zeroed (f.hi3 == 0) (.btake f.d f.a f.b (f.bit 2) f.cc)
  | 10 => .ok (.bdrain f.d f.a f.b f.fn)
  | 11 => .ok (.bscan f.d f.a f.b f.fn)
  | 12 => zeroed (f.b == 0 && f.fn == 0) (.bcount f.d f.a)
  | 13 => zeroed (f.fn == 0) (.binfo f.d f.a f.b)
  | _ => .error .opcode

/-- Opcodes 0xd0 to 0xdf (R71, R72). -/
def decodeD (lo : Nat) (f : Fields) : Except Reason Instr :=
  match lo with
  | 0 => .ok (.nmload f.d f.a f.b f.fn)
  | 1 => zeroed (f.b == 0 && f.fn == 0) (.nmarm f.d f.a)
  | 2 => zeroed (f.b == 0 && f.fn == 0) (.nmrun f.d f.a)
  | 3 => zeroed (f.b == 0 && f.fn == 0) (.nmdisarm f.d f.a)
  | 8 => .ok (.scall f.d f.a f.imm)
  | 9 => zeroed (f.d == 0 && f.a == 0) (.trap f.imm)
  | 10 => zeroed (f.d == 0 && f.a == 0 && f.b == 0 && f.fn == 0) .tret
  | 11 => zeroed (f.a == 0) (.sread f.d f.imm)
  | 12 => zeroed (f.d == 0) (.swrite f.a f.imm)
  | 13 => zeroed (f.d == 0 && f.a == 0) (.bkpt f.imm)
  | _ => .error .opcode

/-- The instruction of given fields and extension word, by the opcode map of R71. -/
def decodeFields (f : Fields) (ext : Word) : Except Reason Instr :=
  let lo := f.op.toNat % 16
  match f.op.toNat / 16 with
  | 0x0 => decode0 lo f
  | 0x1 => decode1 lo f
  | 0x2 => decode2 lo f
  | 0x3 => decode3 lo f ext
  | 0x4 => decode4 lo f
  | 0x6 => decode6 lo f
  | 0x7 => decode7 lo f
  | 0x8 => decode8 lo f ext
  | 0xa => decodeA lo f ext
  | 0xb => decodeB lo f ext
  | 0xc => decodeC lo f ext
  | 0xd => decodeD lo f
  | _ => .error .opcode

/-- The instruction of an instruction word; ext is the word of the slot after it, which a wide instruction reads (R68). -/
def decode (w ext : Word) : Except Reason Instr := decodeFields (fieldsOf w) ext

/-- Whether an opcode is one of the wide ones of R68. -/
def wideOpcode (w : Word) : Bool :=
  let op := w.extractLsb' 24 8
  op == 0x3a || op == 0x81 || op == 0x83 || op == 0xab || op == 0xac || op == 0xb6 || op == 0xc0 || op == 0xc1

/-- A packet: the control word and slots A, B and C (R65). -/
structure Packet where
  ctl : Word
  a : Word
  b : Word
  c : Word
  deriving DecidableEq, Repr

/-- A little-endian word of memory bytes (R4). -/
def wordOf (bs : List Byte) : Word := BitVec.ofNat 32 (leNat (bs.take 4))

/-- The packet of sixteen bytes (R65). -/
def packetOf (bs : List Byte) : Packet :=
  ⟨wordOf bs, wordOf (bs.drop 4), wordOf (bs.drop 8), wordOf (bs.drop 12)⟩

/-- The sixteen bytes of a packet (R65). -/
def packetBytes (p : Packet) : List Byte :=
  leBytes 4 p.ctl.toNat ++ leBytes 4 p.a.toNat ++ leBytes 4 p.b.toNat ++ leBytes 4 p.c.toNat

/-- The word of slot 0, 1 or 2, which are A, B and C. -/
def Packet.slot (p : Packet) : Nat → Word
  | 0 => p.a
  | 1 => p.b
  | 2 => p.c
  | _ => 0

/-- The guard of a slot (R66). -/
def Packet.guard (p : Packet) (n : Nat) : BitVec 6 := p.ctl.extractLsb' (24 - 6 * n) 6
/-- The last-use bits of a slot (R66). -/
def Packet.lu (p : Packet) (n : Nat) : BitVec 3 := p.ctl.extractLsb' (9 - 3 * n) 3
/-- The ext field (R66). -/
def Packet.ext (p : Packet) : BitVec 2 := p.ctl.extractLsb' 1 2
/-- Whether ext marks the slot as holding a wide instruction (R68). -/
def Packet.marksWide (p : Packet) (n : Nat) : Bool := (n == 0 && p.ext == 1) || (n == 1 && p.ext == 2)
/-- Whether ext marks the slot as an extension word (R68). -/
def Packet.isExtension (p : Packet) (n : Nat) : Bool := (n == 1 && p.ext == 1) || (n == 2 && p.ext == 2)

/-- One instruction as it stands in its packet: its guard and last-use bits, and whether an extension word follows it. -/
structure Slotted where
  instr : Instr
  guard : BitVec 6
  lu : BitVec 3
  wide : Bool
  deriving DecidableEq, Repr

/-- The failing check with the lowest number (R76). -/
def lowest : List Reason → Option Reason
  | [] => none
  | r :: rs =>
    match lowest rs with
    | none => some r
    | some q => some (if r.number ≤ q.number then r else q)

/-- The word that an instruction in slot n has as its extension: none where the packet marks none (R66, R68). -/
def Packet.extensionOf (p : Packet) (n : Nat) : Word := if p.marksWide n then p.slot (n + 1) else 0

/-- Every reason for which slot n of a packet is refused (R74): an extension slot is judged by its guard and last-use fields. R76 does not say
which reason a nonzero one of these reports, nor in which slot a bad field of the extension word is reported: DESIGN CHOICE, WIDE, with which R74
lists them, and the slot of the instruction (log 90). -/
def Packet.slotReasons (p : Packet) (n : Nat) : List Reason :=
  if p.isExtension n then need (p.guard n == 0 && p.lu n == 0) .wide
  else
    need (wideOpcode (p.slot n) == p.marksWide n) .wide ++
    (match decode (p.slot n) (p.extensionOf n) with
     | .error r => [r]
     | .ok i => i.reasons ++ need (lastUseOk i (p.lu n)) .lastUse) ++
    need (guardOk (p.guard n)) .guard

/-- The reasons of the control word (R74, R76: slot 0 of a report). -/
def Packet.ctlReasons (p : Packet) : List Reason :=
  need (p.ctl.extractLsb' 30 2 == 0) .gen ++ need (!p.ctl.getLsbD 0 && p.ext != 3) .reserved

/-- What the scanner reports of a packet: the slot (0 for the control word, 1 to 3 for A to C) and the reason (R76). The rule orders the reasons
within a slot only. Where several slots fail the lowest slot is reported, the control word first: DESIGN CHOICE (log 69). -/
def Packet.scan (p : Packet) : Option (Nat × Reason) :=
  match lowest p.ctlReasons, lowest (p.slotReasons 0), lowest (p.slotReasons 1), lowest (p.slotReasons 2) with
  | some r, _, _, _ => some (0, r)
  | none, some r, _, _ => some (1, r)
  | none, none, some r, _ => some (2, r)
  | none, none, none, some r => some (3, r)
  | none, none, none, none => none

/-- The runtime decoder: the instruction that stands in slot n of a packet (R65, R68). It refuses what the scanner refuses,
which it never meets in an executable page (R75). -/
def Packet.fetch (p : Packet) (n : Nat) : Except Reason Slotted :=
  match lowest (p.ctlReasons ++ p.slotReasons n) with
  | some r => .error r
  | none =>
    match decode (p.slot n) (p.extensionOf n) with
    | .error r => .error r
    | .ok i => .ok ⟨i, p.guard n, p.lu n, p.marksWide n⟩

/-- An R-form word (R69). -/
def rWord (op : BitVec 8) (d a b fn : Reg) : Word := op ++ d ++ a ++ b ++ fn
/-- An I-form word (R69). -/
def iWord (op : BitVec 8) (d a : Reg) (imm : BitVec 12) : Word := op ++ d ++ a ++ imm
/-- A B-form word (R69). -/
def bWord (op : BitVec 8) (off : BitVec 24) : Word := op ++ off

/-- A bit of an encoding. -/
def bit (b : Bool) : BitVec 1 := BitVec.ofBool b

/-- The fn field of an instruction that may write flags: bit 2 F, bits 1:0 the cc field (R72). -/
def ccFn (f : Bool) (n : Cc) : Reg := 0#3 ++ bit f ++ n
/-- The fn field whose bit 0 is a flag (R72). -/
def bitFn (s : Bool) : Reg := 0#5 ++ bit s
/-- The dst field that holds a cc field (R72). -/
def ccDst (n : Cc) : Reg := 0#4 ++ n
/-- The fn field that holds a rounding code alone (R72). -/
def rndFn (r : BitVec 3) : Reg := 0#3 ++ r
/-- The fn field of the packed halves (R316). -/
def halfFn (h : Bool) (r : BitVec 3) : Reg := 0#2 ++ bit h ++ r
/-- The memory fn of R73. -/
def memFn (z : BitVec 3) (p : BitVec 2) (x : Bool) : Reg := z ++ p ++ bit x

/-- The instruction word of an instruction (R41, R71, R72); zero for what has no instruction word. -/
def encodeWord : Instr → Word
  | .nop => 0
  | .add d a b f n => rWord 0x01 d a b (ccFn f n)
  | .addI d a i => iWord 0x21 d a i
  | .addc d a b f n => rWord 0x02 d a b (ccFn f n)
  | .sub d a b f n => rWord 0x03 d a b (ccFn f n)
  | .subb d a b f n => rWord 0x04 d a b (ccFn f n)
  | .mul d a b => rWord 0x05 d a b 0
  | .mulI d a i => iWord 0x25 d a i
  | .mulh d a b s => rWord 0x06 d a b (bitFn s)
  | .mad d a b c => rWord 0x07 d a b c
  | .div d a b s => rWord 0x08 d a b (bitFn s)
  | .rem d a b s => rWord 0x09 d a b (bitFn s)
  | .min d a b s => rWord 0x0a d a b (bitFn s)
  | .minI d a i => iWord 0x2a d a i
  | .max d a b s => rWord 0x0b d a b (bitFn s)
  | .maxI d a i => iWord 0x2b d a i
  | .abs d a => rWord 0x0c d a 0 0
  | .and d a b => rWord 0x0d d a b 0
  | .andI d a i => iWord 0x2d d a i
  | .or d a b => rWord 0x0e d a b 0
  | .orI d a i => iWord 0x2e d a i
  | .xor d a b => rWord 0x0f d a b 0
  | .xorI d a i => iWord 0x2f d a i
  | .andn d a b => rWord 0x10 d a b 0
  | .shl d a b => rWord 0x11 d a b 0
  | .shlI d a i => iWord 0x31 d a i
  | .shr d a b => rWord 0x12 d a b 0
  | .shrI d a i => iWord 0x32 d a i
  | .sar d a b => rWord 0x13 d a b 0
  | .sarI d a i => iWord 0x33 d a i
  | .rot d a b => rWord 0x14 d a b 0
  | .rotI d a i => iWord 0x34 d a i
  | .clz d a => rWord 0x15 d a 0 0
  | .popc d a => rWord 0x16 d a 0 0
  | .brev d a => rWord 0x17 d a 0 0
  | .bfx d a b s => rWord 0x18 d a b (bitFn s)
  | .bfi d a b c => rWord 0x19 d a b c
  | .perm d a b c => rWord 0x1a d a b c
  | .sel d a b n k => rWord 0x1b d a b (n ++ k)
  | .cmp n a b => rWord 0x1c (ccDst n) a b 0
  | .cmpI n a i => iWord 0x3c (ccDst n) a i
  | .lea d a b x t => rWord 0x1d d a b (0#2 ++ bit x ++ t)
  | .clmul d a b h => rWord 0x1e d a b (bitFn h)
  | .mov d a => rWord 0x1f d a 0 0
  | .add64 d a b f n => rWord 0x38 d a b (ccFn f n)
  | .cmp64 n a b => rWord 0x39 (ccDst n) a b 0
  | .movi d k _ => rWord 0x3a d 0 0 (0#4 ++ k)
  | .fadd d a b r => rWord 0x40 d a b (rndFn r)
  | .fsub d a b r => rWord 0x41 d a b (rndFn r)
  | .fmul d a b r => rWord 0x42 d a b (rndFn r)
  | .ffma d a b r => rWord 0x43 d a b (rndFn r)
  | .fmin d a b => rWord 0x44 d a b 0
  | .fmax d a b => rWord 0x45 d a b 0
  | .fcmp n a b => rWord 0x46 (ccDst n) a b 0
  | .fclass d a => rWord 0x47 d a 0 0
  | .frcp d a r => rWord 0x48 d a 0 (rndFn r)
  | .frsq d a r => rWord 0x49 d a 0 (rndFn r)
  | .fsqrt d a r => rWord 0x4a d a 0 (rndFn r)
  | .fexp2 d a r => rWord 0x4b d a 0 (rndFn r)
  | .flog2 d a r => rWord 0x4c d a 0 (rndFn r)
  | .dot4 d a b e r => rWord 0x4d d a b (e ++ r)
  | .h2add d a b h r => rWord 0x60 d a b (halfFn h r)
  | .h2mul d a b h r => rWord 0x61 d a b (halfFn h r)
  | .h2fma d a b h r => rWord 0x62 d a b (halfFn h r)
  | .h2min d a b h => rWord 0x63 d a b (halfFn h 0)
  | .h2max d a b h => rWord 0x64 d a b (halfFn h 0)
  | .cvt d a s t i q r => rWord 0x65 d a (s ++ t) (i ++ bit q ++ r)
  | .dq4 d a b c => rWord 0x66 d a b c
  | .shfl d a b z m => rWord 0x70 d a b (0#3 ++ bit z ++ m)
  | .vote d a k => rWord 0x71 d a 0 (0#4 ++ k)
  | .scan d a s x o => rWord 0x72 d a 0 (0#1 ++ bit s ++ bit x ++ o)
  | .topk d a b k => rWord 0x73 d a b k
  | .ld d a b z p x => rWord 0x80 d a b (memFn z p x)
  | .ldWide d a b z p x _ => rWord 0x81 d a b (memFn z p x)
  | .st d a b z p => rWord 0x82 d a b (memFn z p false)
  | .stWide d a b z p _ => rWord 0x83 d a b (memFn z p false)
  | .lda d a b z p x => rWord 0x84 d a b (memFn z p x)
  | .strel d a b z p => rWord 0x85 d a b (memFn z p false)
  | .ldnc d a b z p x => rWord 0x86 d a b (memFn z p x)
  | .stnc d a b z p => rWord 0x87 d a b (memFn z p false)
  | .atom d a b o s p => rWord 0x88 d a b (o ++ bit s ++ bit p)
  | .fenceCore => rWord 0x89 0 0 0 0
  | .fenceDev => rWord 0x89 0 0 0 1
  | .fenceSys => rWord 0x89 0 0 0 2
  | .br o => bWord 0xa0 o
  | .call o => bWord 0xa1 o
  | .jmp a => rWord 0xa2 0 a 0 0
  | .ret a => rWord 0xa3 0 a 0 0
  | .mpush o => bWord 0xa4 o
  | .mjoin i => iWord 0xa5 0 0 i
  | .mdrop i => iWord 0xa6 0 0 i
  | .exit => rWord 0xa7 0 0 0 0
  | .bar i => iWord 0xa8 0 0 i
  | .bara i => iWord 0xa9 0 0 i
  | .yield => rWord 0xaa 0 0 0 0
  | .spawn a n _ _ => rWord 0xab 0 a 0 n
  | .regroup a _ _ => rWord 0xac 0 a 0 0
  | .fwait d a t => rWord 0xb0 d a 0 (bitFn t)
  | .ftest d a => rWord 0xb1 d a 0 0
  | .fcancel a => rWord 0xb2 0 a 0 0
  | .fwany d a => rWord 0xb3 d a 0 0
  | .fwall a => rWord 0xb4 0 a 0 0
  | .ffirst d a => rWord 0xb5 d a 0 0
  | .copy d a b dir _ _ _ => rWord 0xb6 d a b (0#4 ++ dir)
  | .copys d a b k => rWord 0xb7 d a b (bitFn k)
  | .ctset n a => rWord 0xb8 (0#2 ++ n) a 0 0
  | .ctadd n a => rWord 0xb9 (0#2 ++ n) a 0 0
  | .fetch d a q => rWord 0xba d a 0 (0#2 ++ q)
  | .launch d a => rWord 0xbb d a 0 0
  | .mma d a b na nb za q t _ _ _ => rWord 0xc0 d a b (0#1 ++ bit t ++ bit q ++ bit za ++ bit nb ++ bit na)
  | .mdrain d a b rs cs sat r _ => rWord 0xc1 d a b (r ++ bit sat ++ bit cs ++ bit rs)
  | .mzero d a b => rWord 0xc2 d a b 0
  | .bput d a b f n => rWord 0xc8 d a b (ccFn f n)
  | .btake d a b f n => rWord 0xc9 d a b (ccFn f n)
  | .bdrain d a b c => rWord 0xca d a b c
  | .bscan d a b c => rWord 0xcb d a b c
  | .bcount d a => rWord 0xcc d a 0 0
  | .binfo d a b => rWord 0xcd d a b 0
  | .nmload d a b n => rWord 0xd0 d a b n
  | .nmarm d a => rWord 0xd1 d a 0 0
  | .nmrun d a => rWord 0xd2 d a 0 0
  | .nmdisarm d a => rWord 0xd3 d a 0 0
  | .scall d a i => iWord 0xd8 d a i
  | .trap i => iWord 0xd9 0 0 i
  | .tret => rWord 0xda 0 0 0 0
  | .sread d i => iWord 0xdb d 0 i
  | .swrite a i => iWord 0xdc 0 a i
  | .bkpt i => iWord 0xdd 0 0 i
  | _ => 0

/-- The extension word of a wide instruction (R41, R72); zero for the others. -/
def encodeExt : Instr → Word
  | .movi _ _ i => i
  | .ldWide _ _ _ _ _ _ off => off
  | .stWide _ _ _ _ _ off => off
  | .spawn _ _ e t => e ++ t
  | .regroup _ e t => e ++ t
  | .copy _ _ _ _ shape n t => 0#7 ++ bit t ++ n ++ shape
  | .mma _ _ _ _ _ _ _ _ acc n thr => thr ++ n ++ acc
  | .mdrain _ _ _ _ _ _ _ acc => 0#15 ++ acc
  | _ => 0

/-- Whether a constructor is a Pripra instruction, which has an instruction word. -/
def Instr.encodable (i : Instr) : Bool := encodeWord i != 0 || i == .nop

/-- The words of an instruction, lowest address first (R68, R69). -/
def encode (i : Instr) : List Word := if i.isWide then [encodeWord i, encodeExt i] else [encodeWord i]

/-- A microprogram word's operation (R200): a word with a bit outside its operation's fields is refused. -/
def decodeMicro (w : Dword) : Option Instr :=
  let s := w.extractLsb' 58 2
  let d := w.getLsbD 57
  let n := w.extractLsb' 32 16
  let target := w.extractLsb' 0 6
  let rest := w.extractLsb' 48 9 == 0 && w.extractLsb' 6 26 == 0
  let noLoop := n == 0 && target == 0
  if !rest then none
  else
    match (w.extractLsb' 60 4).toNat with
    | 0 => if s == 0 && !d && noLoop then some .mEnd else none
    | 1 => if !d && noLoop then some (.mRows s) else none
    | 2 => if noLoop then some (.mCols s d) else none
    | 3 => if s == 0 && !d && noLoop then some .mBvec else none
    | 4 => if s == 0 && !d && noLoop then some .mMacb else none
    | 5 => if s == 0 && !d && noLoop then some .mAxpy else none
    | 6 => if s == 0 && !d && noLoop then some .mRed else none
    | 7 => if s == 0 && !d && noLoop then some .mActv else none
    | 8 => if !d && noLoop then some (.mWcol s) else none
    | 9 => if s == 0 && !d && noLoop then some .mWmbx else none
    | 10 => if s == 0 && !d && n != 0 then some (.mLoop n target) else none
    | _ => none

/-- The fields of a microprogram word (R200). -/
def microWord (op : BitVec 4) (s : BitVec 2) (d : Bool) (n : BitVec 16) (target : BitVec 6) : Dword :=
  op ++ s ++ bit d ++ 0#9 ++ n ++ 0#26 ++ target

/-- The microprogram word of an operation (R200); zero, which is END, for what is no operation. -/
def encodeMicro : Instr → Dword
  | .mRows s => microWord 1 s false 0 0
  | .mCols s d => microWord 2 s d 0 0
  | .mBvec => microWord 3 0 false 0 0
  | .mMacb => microWord 4 0 false 0 0
  | .mAxpy => microWord 5 0 false 0 0
  | .mRed => microWord 6 0 false 0 0
  | .mActv => microWord 7 0 false 0 0
  | .mWcol s => microWord 8 s false 0 0
  | .mWmbx => microWord 9 0 false 0 0
  | .mLoop n t => microWord 10 0 false n t
  | _ => 0

/-- Whether a constructor is a microprogram operation. -/
def Instr.isMicro : Instr → Bool
  | .mEnd | .mRows _ | .mCols _ _ | .mBvec | .mMacb | .mAxpy | .mRed | .mActv | .mWcol _ | .mWmbx | .mLoop _ _ => true
  | _ => false

/-- The packet that holds one instruction word, and its extension word when it is wide, in slot A under guard AL with no
last-use mark, and NOP in the other slots (R65, R66, R68). -/
def packetFor (w ext : Word) : Packet :=
  if wideOpcode w then ⟨0b10, w, ext, 0⟩ else ⟨0, w, 0, 0⟩

/-- The packet of an instruction whose bits are w, its first word lowest. -/
def tablePacket (w : Nat) : Packet := packetFor (BitVec.ofNat 32 w) (BitVec.ofNat 32 (w / 2 ^ 32))

/-- The instruction that the decoder reads from an instruction whose bits are w: the words are laid out in a packet as the
hardware stores them (R4, R65), and the decoder reads slot A of it. The operand limits are the scanner's. -/
def decodeTableWord (_nbits w : Nat) : Option Instr :=
  let p := packetOf (packetBytes (tablePacket w))
  match decode (p.slot 0) (p.slot 1) with
  | .ok i => some i
  | .error _ => none

end Sys2Proof
end

