-- ==== Sys2Proof/Machine/State.lean ====
section
/-! DEFINITION. The state of the module as plain data, with everything the specification gives it (INVENTORY.md lists each piece
with its rule), the reasons a step can stop, and the state after reset. A table from numbers to records (Tab) lists only what
differs from the reset record; what is not listed reads as the reset record. -/

namespace Sys2Proof.Machine

/-- Why the machine stops. -/
inductive Fault where
  /-- Raised by step after a thermal trip (R251): hardware has halted every die and stack, and only a reset leaves the trip.
  Safe: nothing more can be proved of the stopped machine. -/
  | thermalTrip
  deriving DecidableEq, Repr

/-- Why an instruction has no meaning. -/
inductive Refusal where
  /-- Raised by exec's arm of an instruction that has no meaning yet. Safe. -/
  | notModelled (mnemonic : String)
  /-- Raised by step when the word it fetches is one that the page scanner refuses (R74 to R77), named by the scanner's reason:
  the specification says that the runtime decoder never meets it. Safe. -/
  | illegalEncoding (r : Reason)
  deriving DecidableEq, Repr

/-- A sparse table: what is not listed reads as the default. -/
abbrev Tab (α : Type) := List (Nat × α)

/-- Condition codes N, Z, C, V (R44, R45). -/
structure Flags where
  n : Bool := false
  z : Bool := false
  c : Bool := false
  v : Bool := false
  deriving DecidableEq, Repr

/-- The state of a lane of a physical register (R48). -/
inductive LaneState where
  | unwritten | live | released
  deriving DecidableEq, Repr

/-- One lane of a physical register: its value, its state, and the completion slot bound to it with the pending mark (R146). -/
structure Lane where
  val : Word := 0
  st : LaneState := .unwritten
  slot : Option Nat := none
  pend : Bool := false
  deriving DecidableEq, Repr

/-- A physical register (R48): 32 lanes. bank is the pool bank it occupies (R54), none once it has returned to the pool (R50)
or lies in its spill slot (R57). -/
structure PReg where
  bank : Option Nat := none
  spilled : Bool := false
  poisonLo : Bool := false
  poisonHi : Bool := false
  touched : Nat := 0
  lanes : List Lane := List.replicate 32 {}
  deriving DecidableEq, Repr

/-- A thread's state (R19). -/
inductive ThreadState where
  | ready | future | meeting | barrier | trapped | brood | exited
  deriving DecidableEq, Repr

/-- What a trap records (R63, R229, R230, R234): the cause word, TRAPPC, the next instruction in program order and TRAPVA. -/
structure TrapInfo where
  cause : Word := 0
  pc : Dword := 0
  next : Dword := 0
  va : Dword := 0
  deriving DecidableEq, Repr

/-- A thread (R16). The default record is a missing lane, which counts as exited from the start (R17). fence is the kind of FENCE at
which the thread waits (R133, R307), got the slot that ended its wait in FWANY, or 64, and any number once its wait in FWALL has ended
(R150); waitG is the set G that issues onward together behind such a wait (R307, R310). -/
structure Thread where
  tid : Word := 0
  state : ThreadState := .exited
  halted : Bool := false
  pc : Dword := 0
  cc : List Flags := List.replicate 4 {}
  stack : List Nat := []
  herds : List (Option Nat) := List.replicate 4 none
  fcw : Word := 0
  fstat : Word := 0
  tstat : Word := 0
  wct : Dword := 0
  window : Option Nat := none
  lbase : Dword := 0
  share : Word := 0xffffffff
  cause : Word := 0
  trapPc : Dword := 0
  trapVa : Dword := 0
  trap : Option TrapInfo := none
  hold : Option Nat := none
  readySince : Nat := 0
  waitMask : Dword := 0
  waitAll : Bool := false
  barrier : Option Nat := none
  fence : Option Nat := none
  got : Option Nat := none
  waitG : Mask := 0
  passBar : Bool := false
  deriving DecidableEq, Repr

/-- A thread in a brood bin or in the spill area, with the registers that travel with it (R36, R38), and the debugger's step that it
holds open (R257). -/
structure Brooded where
  thr : Thread := {}
  regs : List (Nat × Word) := []
  stepping : Option Nat := none
  deriving DecidableEq, Repr

/-- A meeting instance (R23). -/
structure Meeting where
  id : Nat := 0
  addr : Dword := 0
  sib : Mask := 0
  wait : Mask := 0
  dep : Mask := 0
  deadline : Option Nat := none
  released : Bool := false
  deriving DecidableEq, Repr

/-- Where a thread goes on: in program order, at an address, or where the instruction has already put it. -/
inductive NextPc where
  | seq
  | to (a : Dword)
  | kept
  deriving DecidableEq, Repr

/-- What an instruction does in one lane: the lanes written to its destinations (none for a lane that writes nothing), flags,
FSTAT bits, the program counter, a thread that replaces the lane's, or the trap it takes, with its cause word and TRAPVA. -/
structure Eff where
  w : List Lane := []
  cc : Option (Cc × Flags) := none
  fl : Nat := 0
  pc : NextPc := .seq
  thr : Option Thread := none
  trap : Option (Word × Dword) := none
  deriving DecidableEq, Repr

/-- What an entry of a reorder buffer has computed before it retires (R59, R60): the set G in which it has executed, the lanes that have read
a released register (R52), and its effect in each lane. The flags of the effects are the entry's condition-code register in the file of R48. -/
structure Result where
  go : Mask := 0
  dead : Mask := 0
  eff : List Eff := []
  deriving DecidableEq, Repr

/-- An issued instruction (R59): its crew, the lane mask, the instruction address, the guard and last-use bits of the slot, whether
it is wide, and the instruction. entry says that it executes as the oldest entry of its crew's reorder buffer, early the place in the buffer
at which it executes before that, and pays that its issue counts against the port's share of class 3 (R225). -/
structure Issue where
  crew : Nat := 0
  mask : Mask := 0
  pc : Dword := 0
  guard : BitVec 6 := 0
  lu : BitVec 3 := 0
  wide : Bool := false
  instr : Instr := .nop
  entry : Bool := false
  early : Option Nat := none
  pays : Bool := false
  deriving DecidableEq, Repr

/-- An unretired entry of a reorder buffer (R59): the instruction, the registers that it reads and writes (R57) and those that it releases
when it retires (R51), what it has computed, once it has executed, and the pool banks of the registers that have been drawn for its results
(R49, R56). why is the counter of R260 that its wait advances, or 16 for a wait that none counts, and since the cycle since which it waits for that. -/
structure RobEntry where
  issue : Issue := {}
  srcs : List Nat := []
  dst : List Nat := []
  ends : List Nat := []
  res : Option Result := none
  banks : List Nat := []
  why : Option Nat := none
  since : Nat := 0
  deriving DecidableEq, Repr

/-- A crew: 32 threads with one rename map (R17, R48). rob holds its unretired entries in crew order (R59), and leaving says that it stops issuing because it is a victim (R226). area is the frame of its spill and eviction areas (R57). born is what its threads start with (R36, R37, R227), chosen the core whose
scratch banks it waits for (R108), stepping the debugger's step that it runs in (R257), herdSet the least crew of its connected set of herds (R30). -/
structure Crew where
  num : Word := 0
  launch : Nat := 0
  core : Option Nat := none
  cluster : Nat := 0
  lastCore : Nat := 0
  admitSeq : Option Nat := none
  threads : List Thread := List.replicate 32 {}
  map : List (Option PReg) := List.replicate 64 none
  rob : List RobEntry := []
  leaving : Bool := false
  area : Option Nat := none
  meetings : List Meeting := []
  nextMeeting : Nat := 0
  now : Nat := 0
  issued : Nat := 0
  retired : Nat := 0
  stalls : List Nat := List.replicate 16 0
  evictions : Nat := 0
  killed : Bool := false
  flushed : Bool := false
  hatched : Bool := false
  visible : Bool := false
  evicted : Bool := false
  gone : Bool := false
  halted : Bool := false
  stepping : Option Nat := none
  startTime : Nat := 0
  born : List Brooded := []
  chosen : Option Nat := none
  herdSet : Nat := 0
  deriving DecidableEq, Repr

/-- A completion slot of a core (R146 to R149): free, bound to a command, or held with the completed status. -/
inductive Slot where
  | free
  | busy (cmd : Nat)
  | held (status : Word)
  deriving DecidableEq, Repr

/-- A 64-byte sector as a cache holds it, with its poison mark (R124). -/
structure Sector where
  data : List Byte := []
  poison : Bool := false
  deriving DecidableEq, Repr

/-- A line of an L1: the line's number among the DRAM cells, its lease expiry E, its four sectors, and whether the home has
applied a write to the line since the present lease was granted (R129). -/
structure L1Line where
  line : Nat := 0
  expiry : Nat := 0
  sectors : List (Option Sector) := List.replicate 4 none
  homeWrote : Bool := false
  deriving DecidableEq, Repr

/-- A TLB entry (R118): the address space, the first virtual address of the page, its size and the leaf. -/
structure TlbEntry where
  asid : Nat := 0
  va : Nat := 0
  size : Nat := 0
  leaf : Dword := 0
  deriving DecidableEq, Repr

/-- The windows of one launch on one core (R108, R109): scratch bytes, accumulator cells, drain scales, block-scale bytes, each
with the poisoned sectors (R123); what is not listed holds zero (R108, R171). banks are granted, joined have joined scratch,
joinAt is the cycle at which the bank in transfer joins. -/
structure Window where
  launch : Nat := 0
  banks : Nat := 0
  joined : Nat := 0
  joinAt : Option Nat := none
  accUnits : Nat := 0
  dsUnits : Nat := 0
  bsUnits : Nat := 0
  scratch : List Host.Cell := []
  scratchBad : List Nat := []
  acc : Tab Word := []
  accBad : List Nat := []
  ds : Tab Word := []
  dsBad : List Nat := []
  bs : Tab Byte := []
  bsBad : List Nat := []
  deriving DecidableEq, Repr

/-- A core (R9). poolIdle lists, for each pool bank, the cycle since which it has held no register (R54). Of the present cycle, ports
lists the ports that have been used, port is one more than the last of them, used lists the crews for which a port has been taken, tried those whose oldest entry has been tried,
counted those whose cycle R260 accounts for, pipes how often each kind of pipe has been taken, and clash the banks whose registers
have been read (R225). icache lists the packets that the instruction cache holds, by address space and virtual address (R9). -/
structure Core where
  poolIdle : List (Option Nat) := [some 0, some 0]
  grow : Option Nat := none
  exhausted : Option Nat := none
  cycle : Nat := 0
  slots : List Slot := List.replicate 64 .free
  trig : List Word := List.replicate 16 0
  l1 : List L1Line := []
  tlb : List TlbEntry := []
  portUse : List Nat := List.replicate 4 0
  port : Nat := 0
  ports : List Nat := []
  used : List Nat := []
  tried : List Nat := []
  counted : List Nat := []
  pipes : List Nat := List.replicate 4 0
  clash : List Nat := []
  icache : List (Nat × Nat) := []
  windows : List Window := []
  deriving DecidableEq, Repr

/-- A store on its way to its home, or its completion time on its way back (R130). -/
structure Flight where
  launch : Nat := 0
  tid : Word := 0
  core : Nat := 0
  addr : Nat := 0
  data : List Byte := []
  applied : Bool := false
  ct : Nat := 0
  deriving DecidableEq, Repr

/-- A shape record as a command read it (R159). clean says that the flags byte and bytes +18 to +31 are zero. -/
structure Shape where
  base : Nat := 0
  rows : Nat := 0
  cols : Nat := 0
  rowStride : Int := 0
  elemStride : Nat := 0
  format : Nat := 0
  flags : Nat := 0
  scaleOff : Nat := 0xffff
  clean : Bool := true
  deriving DecidableEq, Repr

/-- A parameter block's stream (R199). -/
structure Stream where
  base : Nat := 0
  rows : Nat := 0
  rowStride : Nat := 0
  cols : Nat := 0
  format : Nat := 0
  scale : Nat := 0
  clean : Bool := true
  deriving DecidableEq, Repr

/-- A near-memory parameter block as it was read (R198). -/
structure NmBlock where
  mode : Nat := 0
  stack : Nat := 0
  activation : Nat := 0
  mailbox : Nat := 0
  entry : Nat := 0
  divider : Nat := 0
  mask : Dword := 0
  chanStride : Nat := 0
  vecSrc : Nat := 0
  vecLen : Nat := 0
  alpha : Word := 0
  beta : Word := 0
  scaleF : Word := 0
  lo : Word := 0
  hi : Word := 0
  streams : List Stream := []
  clean : Bool := true
  deriving DecidableEq, Repr

/-- What a FETCH has read in its record (R155), with the data size of its namespace: the number of blocks, the first LBA, the destination,
and whether the record was poisoned. -/
structure FetchReq where
  count : Nat := 0
  first : Nat := 0
  size : Nat := 0
  dst : Nat := 0
  bad : Bool := false
  deriving DecidableEq, Repr

/-- What an engine command does, with its operands as they were read (R153, R155, R162, R169 to R171, R189, R204, R222, R237). -/
inductive CmdKind where
  | copy (dir : Nat) (src dst : Dword) (shape : Shape) (ctr : Option Nat)
  | fetch (q : Nat) (record : Dword) (req : Option FetchReq)
  | mma (a b : Shape) (na nb za q : Bool) (trig : Option (Nat × Nat)) (acc : Nat) (ftz ftzn : Bool)
  | mdrain (d : Shape) (rs cs sat : Bool) (mode : Nat) (ftz : Bool) (row col acc : Nat)
  | mzero (base n : Nat)
  | copys (block : Bool) (addr first count : Nat)
  | bdrain (idx share count addr removed : Nat)
  | nmload (src : Dword) (pc n : Nat)
  | nmarm (blk : NmBlock) (pages : List Nat)
  | nmrun (block : Dword) (blk : NmBlock)
  | nmdisarm (block : Dword)
  | launch (lid : Nat)
  | scall (service : Nat) (group : Mask) (head : List Byte) (requests : List (List Byte)) (replies : List (Option Word))
  deriving DecidableEq, Repr

/-- How far a command has come: written holds the completion time and the status that waits for DTIME to pass it (R142). -/
inductive CmdPhase where
  | queued
  | started
  | written (ct : Nat) (status : Word)
  deriving DecidableEq, Repr

/-- An engine command (R146). out and bad hold what a started command has computed and not yet written; of a drain, out lists the sectors that
were poisoned when its last round had been written (R123). ct is the largest completion time of what it has written. -/
structure Cmd where
  id : Nat := 0
  core : Nat := 0
  slot : Nat := 0
  launch : Nat := 0
  tid : Word := 0
  asid : Nat := 0
  kind : CmdKind := .mzero 0 0
  phase : CmdPhase := .queued
  out : List (Nat × Word) := []
  bad : List Nat := []
  ct : Nat := 0
  deriving DecidableEq, Repr

/-- The cells that a command owns at their home (R142, R143). -/
structure Owned where
  addr : Nat := 0
  len : Nat := 0
  cmd : Nat := 0
  deriving DecidableEq, Repr

/-- The last strong write of a sector (R141): byte mask, size and completion time. -/
structure LastWrite where
  mask : Dword := 0
  size : Nat := 0
  ct : Nat := 0
  deriving DecidableEq, Repr

/-- A record on its way into a slot of a share (R185, R187): the launch and the thread that put it, none for a remote client; core is the
issuing core, 0 for a remote client;
written holds the slot and the completion time. -/
structure Placement where
  owner : Option (Nat × Word) := none
  key : Word := 0
  data : List Byte := []
  core : Nat := 0
  written : Option (Nat × Nat) := none
  deriving DecidableEq, Repr

/-- A share of a bag (R180, R185, R187): resident count c, sequence, the largest completion time of its completed placements
(R285), and the placements decided and not yet completed. -/
structure Share where
  c : Nat := 0
  seq : Nat := 0
  ct : Nat := 0
  queue : List Placement := []
  deriving DecidableEq, Repr

/-- A bag's table entry (R177, R178, R180, R182). freeing names the call, command and lane, that is freeing it (R179). -/
structure Bag where
  gen : Nat := 0
  live : Bool := false
  cap : Nat := 0
  mask : Word := 0
  size : Nat := 0
  domain : Nat := 0
  slack : Nat := 0
  place : Nat := 0
  base : Nat := 0
  resident : Nat := 0
  reserved : Nat := 0
  shares : Tab Share := []
  freeing : Option (Nat × Nat) := none
  deriving DecidableEq, Repr

/-- A range of virtual pages: of ALLOC with its home stack, of a registered range, of a bag or of a local area (R232). -/
structure Range where
  base : Nat := 0
  pages : Nat := 0
  home : Option Nat := none
  deriving DecidableEq, Repr

/-- An address space (R112, R120, R128). -/
structure ASpace where
  vi : Nat := 0
  root : Nat := 0
  lease : Nat := 2048
  allocs : List Range := []
  ranges : List Range := []
  nextVa : Nat := 0x0001000000000000
  bags : Tab Bag := []
  live : Bool := true
  deriving DecidableEq, Repr

/-- A herd entry of a group table (R28). -/
structure HerdEntry where
  base : Nat := 0
  width : Nat := 0
  count : Nat := 0
  stride : Nat := 0
  deriving DecidableEq, Repr

/-- A herd's barrier (R31, R32): phase bit, live count L, the members that have arrived in the phase, and those whose second
arrival is held for the next phase, each with a mark that says whether it is a BAR, which then waits on. -/
structure Barrier where
  phase : Bool := false
  live : Nat := 0
  arrived : List Word := []
  held : List (Word × Bool) := []
  deriving DecidableEq, Repr

/-- A dependence (R218): an event word, a command, or one already judged. -/
inductive Dep where
  | none
  | event (addr : Nat)
  | command (id : Nat)
  | known (status : Word)
  deriving DecidableEq, Repr

/-- A launch's progress (R219). -/
inductive LaunchPhase where
  /-- a LAUNCH command waits for its send rule (R222) -/
  | sending
  | accepted
  | running
  /-- the status is known and the completion event is still to be written (R218) -/
  | closing (status : Word)
  | done (status : Word)
  deriving DecidableEq, Repr

/-- A brood bin (R34). -/
structure Bin where
  launch : Nat := 0
  spawned : Bool := true
  entry : Dword := 0
  key : Word := 0
  timer : Nat := 0
  threads : List Brooded := []
  deriving DecidableEq, Repr

/-- A thread in the brood spill area with its bin's key and timer, its place in the cluster's spill order, and its slot in the area (R35). -/
structure Spilled where
  order : Nat := 0
  slot : Nat := 0
  cluster : Nat := 0
  spawned : Bool := true
  entry : Dword := 0
  key : Word := 0
  timer : Nat := 0
  thr : Brooded := {}
  deriving DecidableEq, Repr

/-- A launch (R216 to R222): its record's fields, and what has become of it. trace holds the crew records of its trace stream (R261), areas
the frames set aside for spill and eviction areas that no crew has (R57, R226), broodAreas those of its brood spill area (R35). -/
structure Launch where
  vi : Nat := 0
  asid : Nat := 0
  entry : Dword := 0
  control : Word := 0
  count : Nat := 0
  countPtr : Nat := 0
  herds : List HerdEntry := []
  lsize : Nat := 0
  scratch : Nat := 0
  acc : Nat := 0
  dscale : Nat := 0
  bscale : Nat := 0
  fcw : Word := 0
  perShare : Nat := 0
  spillUnits : Nat := 0
  trapEntry : Dword := 0
  event : Nat := 0
  deps : List Dep := []
  affinity : Dword := 0
  affLen : Nat := 0
  cls : Nat := 0
  phase : LaunchPhase := .accepted
  nthr : Nat := 0
  nextTid : Nat := 0
  localBase : Nat := 0
  windows : List Nat := []
  barriers : Tab Barrier := []
  spill : List Spilled := []
  trace : List (List Byte) := []
  areas : List Nat := []
  broodAreas : List Nat := []
  parent : Option (Nat × Nat) := none
  process : Word := 0
  sthread : Word := 0
  debugger : Bool := false
  killCause : Option Nat := none
  record : Dword := 0
  startAfter : Nat := 0
  maxCt : Nat := 0
  prints : List (List Byte × Dword) := []
  deriving DecidableEq, Repr

/-- A cluster: its admission queue of crews (R224), its brood bins (R34), the count of its cycles, and the deficit round robin of
R224: the interface whose turn it is and the crews that it may still take in. preempted is the cycle of the last pre-emption (log 2). -/
structure Cluster where
  queue : List Nat := []
  bins : Tab Bin := []
  spills : Nat := 0
  cycle : Nat := 0
  viTurn : Nat := 0
  credit : Nat := 0
  preempted : Nat := 0
  deriving DecidableEq, Repr

/-- A value of a near-memory unit with its poison mark (R207). -/
structure PVal where
  w : Word := 0
  bad : Bool := false
  deriving DecidableEq, Repr

/-- A column write that a WCOL has left pending (R201), at a virtual address. -/
structure ColWrite where
  stream : Nat := 0
  addr : Nat := 0
  data : List Byte := []
  bad : Bool := false
  deriving DecidableEq, Repr

/-- A pseudo-channel's near-memory state (R197, R210, R212). Lists of 4 go by stream, lists of 16 by bank unit. The broadcast lanes
v are the same in every bank. cbuf holds the column that each stream last read in each bank, col its number, scale the Q4N scale
byte in force (R199), openRow the row that the banks hold open, named by its address in bank 0, steps and slow the steps of R203 so far and
those of them that touched a row of State.spareRows, due the time at which the next operation can start, in half nanoseconds,
resumeAt the time at which a refresh pause, or a pause for queued accesses (R209), ends, served the count of steps at the last time at which
accesses could be served, and fault that a unit's access has failed (R121). -/
structure Pch where
  store : Tab Dword := []
  tag : Option Nat := none
  vbuf : List PVal := []
  mailbox : Tab PVal := []
  mc : Nat := 0
  vp : Nat := 0
  counters : Tab Nat := []
  rix : List (Option Nat) := [none, none, none, none]
  ep : List Nat := [0, 0, 0, 0]
  col : List (Option Nat) := [none, none, none, none]
  cbuf : Tab Sector := []
  scale : Tab PVal := []
  openRow : Option Nat := none
  in0 : List (List PVal) := List.replicate 16 (List.replicate 16 {})
  in1 : List (List PVal) := List.replicate 16 (List.replicate 16 {})
  lane : List (List PVal) := List.replicate 16 (List.replicate 16 {})
  v : List PVal := List.replicate 16 {}
  a : List PVal := List.replicate 16 {}
  pend : List ColWrite := []
  run : Option Nat := none
  index : Nat := 0
  base : List Nat := [0, 0, 0, 0]
  mpc : Nat := 0
  ended : Bool := false
  resumeAt : Option Nat := none
  steps : Nat := 0
  slow : Nat := 0
  due : Nat := 0
  badElems : List (Nat × Nat) := []
  fault : Bool := false
  served : Nat := 0
  maxCt : Nat := 0
  nextRefresh : Nat := 0
  deriving DecidableEq, Repr

/-- A sealed page (R206): its address space and virtual address, its pseudo-channel, and the mode of the block that sealed it. -/
structure Seal where
  asid : Nat := 0
  va : Nat := 0
  pch : Nat := 0
  mode : Nat := 0
  deriving DecidableEq, Repr

/-- A stack: divider, governor floor, base-die temperature in 1/16 degree and refresh tier (R211, R212, R251). -/
structure Stack where
  divider : Nat := 1
  temp : Nat := 960
  tier : Nat := 0
  deriving DecidableEq, Repr

/-- A compute die: temperature in 1/16 degree, clock steps taken down in eighths by the die's own heat and by the governor (R252), and its last-level TLB (R118, R251). -/
structure Die where
  temp : Nat := 960
  steps : Nat := 0
  governed : Nat := 0
  tlb : List TlbEntry := []
  deriving DecidableEq, Repr

/-- A launch queue of a virtual interface (R221): a ring of 2^log2 records, with the address space it lies in (log 40). -/
structure LQueue where
  asid : Nat := 0
  base : Nat := 0
  log2 : Nat := 0
  head : Nat := 0
  tail : Nat := 0
  deriving DecidableEq, Repr

/-- A Read command in a submission queue (R156), and the FETCH to which it belongs. -/
structure NvmeRead where
  opcode : Nat := 2
  nsid : Nat := 0
  slba : Nat := 0
  blocks : Nat := 0
  cmd : Nat := 0
  deriving DecidableEq, Repr

/-- An NVMe queue pair (R155, R308): its binding, with the data size of the namespace; the entries of its submission queue whose completions have
not been read; and the values that the device has last written to its two doorbells, as counts of entries. -/
structure QPair where
  ctrl : Nat := 0
  nsid : Nat := 0
  lba : Nat := 0
  sq : List NvmeRead := []
  sqTail : Nat := 0
  cqHead : Nat := 0
  deriving DecidableEq, Repr

/-- A virtual interface (R239). -/
structure Vi where
  asidQuota : Nat := 0
  memQuota : Nat := 0
  memUsed : Nat := 0
  weight : Nat := 1
  pcs : List Nat := []
  queues : Tab LQueue := []
  qps : Tab QPair := []
  granted : List (Nat × Nat) := []
  deriving DecidableEq, Repr

/-- A joined name (R255). -/
structure JName where
  sthread : Word := 0
  process : Word := 0
  launch : Nat := 0
  tid : Word := 0
  deriving DecidableEq, Repr

/-- A trap record on its way to its policy (R230), with the joined name of its thread, under which a debugger sees it (R255). -/
structure TrapRec where
  name : JName := {}
  launch : Nat := 0
  tid : Word := 0
  crew : Nat := 0
  num : Word := 0
  core : Nat := 0
  lane : Nat := 0
  info : TrapInfo := {}
  dtime : Nat := 0
  vi : Nat := 0
  asid : Nat := 0
  deriving DecidableEq, Repr

/-- A crew record (R261). -/
structure CrewRec where
  name : JName := {}
  num : Word := 0
  core : Nat := 0
  evictions : Nat := 0
  start : Nat := 0
  stop : Nat := 0
  retired : Nat := 0
  flags : Nat := 0
  stalls : List Nat := []
  deriving DecidableEq, Repr

/-- One thread of a halt report (R259). -/
structure HaltLine where
  name : JName := {}
  state : ThreadState := .exited
  pc : Dword := 0
  cause : Word := 0
  deriving DecidableEq, Repr

/-- What a dump adds for a crew (R259): live and released lanes, condition codes, and the meeting stacks, each meeting with its address
and its siblings (R22, R23). -/
structure DumpCrew where
  num : Word := 0
  regs : List (Nat × Nat × Word) := []
  released : List (Nat × Nat) := []
  cc : List (List Flags) := []
  meetStacks : List (List (Dword × Mask)) := []
  deriving DecidableEq, Repr

/-- What the resident service posts for system software or the debugger. -/
inductive Post where
  /-- an ECC event with its physical location (R122) -/
  | ecc (cell : Nat) (uncorrectable : Bool)
  /-- a uniform record of an error in the unified store (R122, R123) -/
  | storeEcc (core : Nat) (place : EccPlace) (uncorrectable : Bool)
  /-- a completion event that could not be written (R218) -/
  | eventError (launch addr : Nat)
  /-- a mapping refusal: page, offset of the packet, slot, reason number (R76) -/
  | mapRefused (va : Nat) (offset slot reason : Nat)
  | halt (lines : List HaltLine)
  | dump (lines : List HaltLine) (crews : List DumpCrew)
  /-- a die above 100 degrees (R251) -/
  | thermalWarning (die : Nat)
  /-- the trip's report to the host (R251) -/
  | trip
  /-- packets in flight that a port took down with it (R248) -/
  | portError (port packets : Nat)
  /-- an answer that leaves on an Ultra Ethernet port (R247) -/
  | ueAnswer (port : Nat)
  /-- what a host or Supex read returned: bytes and the poison of each sector (R145, R248) -/
  | readReply (data : List Byte) (bad : List Bool)
  /-- a host or Supex read outside the granted ranges received an error response (R250) -/
  | readError (pa : Nat)
  /-- a host or Supex write was acknowledged, or received an error response (R145, R75) -/
  | writeAck (pa : Nat) (ok : Bool)
  /-- sectors of a peer transfer (R248) -/
  | streamed (port pa : Nat) (data : List Byte) (bad : List Bool)
  /-- the end of a checkpoint, with the copy of device memory that the tier holds (R254) -/
  | checkpointDone (ok : Bool) (mem : List Host.Cell) (bad : List Nat)
  deriving DecidableEq, Repr

/-- A write of the host, or of an incoming packet of a Supex port, whose acknowledgement waits for DTIME (R145, R248). -/
structure PendingAck where
  port : Option Nat := none
  pa : Nat := 0
  ct : Nat := 0
  deriving DecidableEq, Repr

/-- A write that a checkpoint holds at its home (R254). vi is the interface in whose name it came, none for a reply to a read of the service, and
lost says that its port went down, or that it is such a reply, so that no acknowledgement leaves. -/
structure HeldWrite where
  vi : Option Nat := none
  port : Option Nat := none
  pa : Nat := 0
  data : List Byte := []
  bad : List Bool := []
  lost : Bool := false
  deriving DecidableEq, Repr

/-- The boot path (R249). -/
inductive BootPhase where
  | rom | recovery | running
  deriving DecidableEq, Repr

/-- A checkpoint's progress (R254). -/
inductive CkptPhase where
  | idle | quiescing | streaming
  deriving DecidableEq, Repr

/-- A Supex port (R248). -/
structure SupexPort where
  down : Bool := false
  retries : Nat := 0
  deriving DecidableEq, Repr

/-- A request of a remote client that is being served (R247). -/
structure UeInFlight where
  port : Nat := 0
  req : UeRequest := .other []
  deriving DecidableEq, Repr

/-- An access to host memory that the host has not yet acknowledged (R133, R145), of a thread or of an engine command of it, for which
only the launch waits (R218). -/
structure HostAccess where
  launch : Nat := 0
  tid : Word := 0
  engine : Bool := false
  deriving DecidableEq, Repr

/-- The state of the module. -/
structure State where
  dtime : Nat := 0
  boot : BootPhase := .rom
  tripped : Bool := false
  mem : List Host.Cell := []
  bad : List Nat := []
  horizon : Tab Nat := []
  owned : List Owned := []
  lastWrite : Tab LastWrite := []
  locked : List Nat := []
  flights : List Flight := []
  hostPending : List HostAccess := []
  cores : Tab Core := []
  crews : Tab Crew := []
  nextCrew : Nat := 0
  nextSeq : Nat := 0
  clusters : Tab Cluster := []
  dies : Tab Die := []
  hbm : Tab Stack := []
  pchs : Tab Pch := []
  cmds : List Cmd := []
  nextCmd : Nat := 0
  launches : Tab Launch := []
  nextLaunch : Nat := 0
  aspaces : Tab ASpace := []
  vis : Tab Vi := []
  frames : List Nat := []
  sealed : List Seal := []
  movedRows : List (Nat × Nat × Nat) := []
  spareRows : List (Nat × Nat × Nat) := []
  traps : List TrapRec := []
  halting : List (List Nat) := []
  reservations : List UeInFlight := []
  posts : List Post := []
  ueFlights : List UeInFlight := []
  acks : List PendingAck := []
  held : List HeldWrite := []
  ckpt : CkptPhase := .idle
  supex : Tab SupexPort := []
  peerReads : List (Nat × Nat) := []
  peerOut : List (Nat × Post) := []
  ueDown : List Nat := []
  linkGen : Nat := 0
  linkWidth : Nat := 0
  softCap : Option Nat := none
  power : Nat := 0
  setpoint : Option Nat := none
  ballast : Nat := 0
  floor : Nat := 0
  throttle : Nat := 0
  turn : Nat := 0
  pace : Nat := 1
  fresh : Nat := 0
  nmCur : Nat := 0
  cur : Issue := {}
  inbox : List Instr := []
  deriving DecidableEq, Repr

/-- The module right after reset: no launch, no crew, no address space and no interface; 2 pool banks in every core (R54), the
trigger counters zero (R152), the boot path in the ROM (R249), no ballast setpoint (R253). The values that the specification
does not give are named in the assumption log (logs 3, 4, 5). -/
def State.reset : State := {}

end Sys2Proof.Machine
end

