-- ==== Sys2Proof/Machine/Tables.lean ====
section
/-! DEFINITION. The sparse tables of the state, lane masks, and the one way in which each part of the state is read and replaced. -/

namespace Sys2Proof.Machine

/-- The entry of a table under a number, or the given default. -/
def tget {α : Type} (d : α) : Tab α → Nat → α
  | [], _ => d
  | (i, x) :: t, k => if i = k then x else tget d t k

/-- Replace the entry under a number; a table whose numbers rise keeps rising. -/
def tset {α : Type} : Tab α → Nat → α → Tab α
  | [], k, v => [(k, v)]
  | (i, x) :: t, k, v =>
    if k < i then (k, v) :: (i, x) :: t else if k = i then (k, v) :: t else (i, x) :: tset t k v

/-- Remove the entry under a number. -/
def tdel {α : Type} (t : Tab α) (k : Nat) : Tab α := t.filter fun e => e.1 != k

/-- Whether a number is listed. -/
def thas {α : Type} (t : Tab α) (k : Nat) : Bool := t.any fun e => e.1 == k

/-- The mask of the lanes that satisfy a test. -/
def maskOf (f : Nat → Bool) : Mask := BitVec.ofFnLE fun l : Fin 32 => f l

/-- The lanes of a mask, in ascending order. -/
def lanesOf (m : Mask) : List Nat := laneList.filter fun l => m.getLsbD l

/-- The registers w0 to w63. -/
def regList : List Nat := List.range 64

/-- The list with position k replaced, of length n. -/
def setAt {α : Type} (n : Nat) (d : α) (xs : List α) (k : Nat) (v : α) : List α :=
  (List.range n).map fun i => if i = k then v else xs.getD i d

/-- A list without its entry k. -/
def dropAt {α : Type} (xs : List α) (k : Nat) : List α := xs.take k ++ xs.drop (k + 1)

/-- The first position whose entry satisfies a test. -/
def firstIdx {α : Type} (f : α → Bool) (xs : List α) : Option Nat := xs.findIdx? f

/-- The entry of a list for which a measure is least, the earliest of several. -/
def leastBy {α : Type} (lt : α → α → Bool) : List α → Option α
  | [] => none
  | x :: xs =>
    match leastBy lt xs with
    | none => some x
    | some y => some (if lt y x then y else x)

/-- Lexicographic order of lists of numbers. -/
def lexLt : List Nat → List Nat → Bool
  | x :: xs, y :: ys => x < y || (x == y && lexLt xs ys)
  | [], _ :: _ => true
  | _, [] => false

/-! ### Parts of the state -/

/-- Core n (R9). -/
def State.core (s : State) (n : Nat) : Core := tget {} s.cores n
/-- Replace core n. -/
def State.setCore (s : State) (n : Nat) (c : Core) : State := { s with cores := tset s.cores n c }
/-- The crew that the model knows under number k. -/
def State.crew (s : State) (k : Nat) : Crew := tget {} s.crews k
/-- Replace crew k. -/
def State.setCrew (s : State) (k : Nat) (c : Crew) : State := { s with crews := tset s.crews k c }
/-- Cluster n (R8). -/
def State.cluster (s : State) (n : Nat) : Cluster := tget {} s.clusters n
/-- Replace cluster n. -/
def State.setCluster (s : State) (n : Nat) (c : Cluster) : State := { s with clusters := tset s.clusters n c }
/-- Compute die n (R8). -/
def State.die (s : State) (n : Nat) : Die := tget {} s.dies n
/-- Replace die n. -/
def State.setDie (s : State) (n : Nat) (d : Die) : State := { s with dies := tset s.dies n d }
/-- Stack n (R8). -/
def State.stackAt (s : State) (n : Nat) : Stack := tget {} s.hbm n
/-- Replace stack n. -/
def State.setStack (s : State) (n : Nat) (x : Stack) : State := { s with hbm := tset s.hbm n x }
/-- Pseudo-channel n (R8). -/
def State.pch (s : State) (n : Nat) : Pch := tget {} s.pchs n
/-- Replace pseudo-channel n. -/
def State.setPch (s : State) (n : Nat) (p : Pch) : State := { s with pchs := tset s.pchs n p }
/-- Launch n. -/
def State.launch (s : State) (n : Nat) : Launch := tget {} s.launches n
/-- Replace launch n. -/
def State.setLaunch (s : State) (n : Nat) (l : Launch) : State := { s with launches := tset s.launches n l }
/-- Address space n (R112). -/
def State.aspace (s : State) (n : Nat) : ASpace := tget { live := false } s.aspaces n
/-- Replace address space n. -/
def State.setAspace (s : State) (n : Nat) (a : ASpace) : State := { s with aspaces := tset s.aspaces n a }
/-- Virtual interface n (R239). -/
def State.vi (s : State) (n : Nat) : Vi := tget {} s.vis n
/-- Replace virtual interface n. -/
def State.setVi (s : State) (n : Nat) (v : Vi) : State := { s with vis := tset s.vis n v }

/-- The cluster of a core (R8). -/
def clusterOf (core : Nat) : Nat := core / 16
/-- The die of a core (R8): die d carries clusters 2d and 2d + 1. -/
def dieOf (core : Nat) : Nat := core / 32

/-- Thread of a lane. -/
def Crew.thr (c : Crew) (l : Nat) : Thread := c.threads.getD l {}
/-- Replace every thread, lane by lane. -/
def Crew.onThreads (c : Crew) (f : Nat → Thread → Thread) : Crew :=
  { c with threads := laneList.map fun l => f l (c.thr l) }
/-- Change the threads of a mask. -/
def Crew.onMask (c : Crew) (m : Mask) (f : Nat → Thread → Thread) : Crew :=
  c.onThreads fun l t => if m.getLsbD l then f l t else t
/-- Replace the thread of one lane. -/
def Crew.setThr (c : Crew) (l : Nat) (t : Thread) : Crew := c.onThreads fun k u => if k = l then t else u
/-- Change one thread. -/
def State.onThr (s : State) (crew l : Nat) (f : Thread → Thread) : State :=
  s.setCrew crew ((s.crew crew).setThr l (f ((s.crew crew).thr l)))

/-- The physical register that a register names, if any (R48). -/
def Crew.reg (c : Crew) (r : Nat) : Option PReg := if r = 0 then none else c.map.getD r none
/-- Replace every entry of the rename map. -/
def Crew.onRegs (c : Crew) (f : Nat → Option PReg → Option PReg) : Crew :=
  { c with map := regList.map fun r => f r (c.reg r) }
/-- A lane of a physical register. -/
def PReg.lane (p : PReg) (l : Nat) : Lane := p.lanes.getD l {}
/-- Replace every lane. -/
def PReg.onLanes (p : PReg) (f : Nat → Lane → Lane) : PReg :=
  { p with lanes := laneList.map fun l => f l (p.lane l) }
/-- A register's lane; an empty map entry reads as unwritten, and so does w0 (R44, R48). -/
def Crew.lane (c : Crew) (r l : Nat) : Lane :=
  match c.reg r with
  | none => {}
  | some p => p.lane l
/-- What a read of a lane yields (R52). -/
def Lane.value (x : Lane) : Word := if x.st = .live then x.val else 0
/-- The value that a thread reads from a register (R44, R52). -/
def Crew.rd (c : Crew) (r l : Nat) : Word := (c.lane r l).value
/-- The value of a pair (R5, R46). -/
def Crew.rd2 (c : Crew) (r l : Nat) : Dword := pairOf (c.rd r l) (c.rd (r + 1) l)

/-- A value written to a lane (R49). -/
def live (v : Word) : Lane := { val := v, st := .live }
/-- The two registers of a 64-bit result (R5). -/
def live2 (v : Dword) : List Lane := [live (loWord v), live (hiWord v)]
/-- A lane that becomes a future bound to a slot (R146). -/
def future (slot : Nat) : Lane := { val := 0, st := .live, slot := some slot, pend := true }

/-- The crews that a core holds. -/
def State.crewsOn (s : State) (n : Nat) : List (Nat × Crew) := s.crews.filter fun e => e.2.core == some n

/-- Add to the service's record of what has happened. -/
def State.post (s : State) (p : Post) : State := { s with posts := s.posts ++ [p] }

end Sys2Proof.Machine
end

