-- ==== Sys2Proof/Machine/Memory.lean ====
section
/-! DEFINITION. Device and host memory: the canonical list of bytes, where a line lives (R115), poison (R122, R126), page tables
(R112, R113), translation through the TLBs (R118) and the permissions of R114. -/

namespace Sys2Proof.Machine

/-! ### The list of bytes -/

/-- What a byte of memory that nothing has written reads as (log 4). -/
def Memory.unlisted : Byte := 0

/-- The byte at an address. -/
def Memory.read : List Host.Cell → Nat → Byte
  | [], _ => Memory.unlisted
  | (i, b) :: m, a => if i = a then b else Memory.read m a

/-- Write one byte, keeping the addresses rising and listing no byte that reads as an unlisted one. -/
def Memory.write : List Host.Cell → Nat → Byte → List Host.Cell
  | [], a, b => if b = Memory.unlisted then [] else [(a, b)]
  | (i, x) :: m, a, b =>
    if a < i then (if b = Memory.unlisted then (i, x) :: m else (a, b) :: (i, x) :: m)
    else if a = i then (if b = Memory.unlisted then m else (a, b) :: m)
    else (i, x) :: Memory.write m a b

/-- Every address of the list is above a bound. -/
def Memory.above (n : Nat) (m : List Host.Cell) : Bool := m.all fun e => decide (n < e.1)

/-- The canonical form: addresses strictly rising, and no entry equal to what an unlisted address reads as. -/
def Memory.wf : List Host.Cell → Bool
  | [] => true
  | (i, b) :: m => b != Memory.unlisted && Memory.above i m && Memory.wf m

/-- n bytes, lowest address first. -/
def Memory.readN (m : List Host.Cell) (a : Nat) : Nat → List Byte
  | 0 => []
  | n + 1 => Memory.read m a :: Memory.readN m (a + 1) n

/-- Write a list of bytes from an address up. -/
def Memory.writeN (m : List Host.Cell) (a : Nat) : List Byte → List Host.Cell
  | [] => m
  | b :: bs => Memory.writeN (Memory.write m a b) (a + 1) bs

/-! ### Where a line lives -/

/-- The first address of host memory (R111). -/
def hostBase : Nat := 2 ^ 45

/-- Physical addresses that are backed (R111). -/
def backed (pa : Nat) : Bool := pa < 2 ^ 39 || (hostBase ≤ pa && pa < 2 ^ 46)

/-- Host memory (R111). -/
def isHost (pa : Nat) : Bool := hostBase ≤ pa

/-- A DRAM column's position: pseudo-channel of the module, bank, row, column of 64 bytes (R115). -/
structure DramPos where
  pc : Nat
  bank : Nat
  row : Nat
  col : Nat
  deriving DecidableEq, Repr

/-- place(pa, bl) of R115. -/
def place (pa : Nat) (bl : Bool) : DramPos :=
  let stack := bitsOf pa 36 3
  if bl then
    ⟨64 * stack + bitsOf pa 30 6, bitsOf pa 12 4, 4 * bitsOf pa 16 14 + bitsOf pa 10 2, bitsOf pa 6 4 / 4 * 4⟩
  else
    ⟨64 * stack + Nat.xor (bitsOf pa 8 6) (bitsOf pa 14 6), bitsOf pa 14 4, bitsOf pa 20 16, 4 * bitsOf pa 18 2⟩

/-- The number of a DRAM byte: 64 MiB to a bank, 1 KiB to a row, 64 bytes to a column (R8). -/
def DramPos.cell (p : DramPos) (off : Nat) : Nat := ((p.pc * 16 + p.bank) * 65536 + p.row) * 1024 + p.col * 64 + off

/-- The number under which memory holds the byte at a physical address reached with a layout (R115, R116). Host memory is
held under its physical address. -/
def cellOf (pa : Nat) (bl : Bool) : Nat := if isHost pa then pa else (place pa bl).cell (pa % 256)

/-- The 256-byte line of a cell (R115). -/
def lineOf (cell : Nat) : Nat := cell / 256
/-- The 64-byte sector of a cell (R8). -/
def sectorOf (cell : Nat) : Nat := cell / 64
/-- The stack that is home of a cell (R8, R115). -/
def stackOf (cell : Nat) : Nat := cell / 2 ^ 36
/-- The pseudo-channel that holds a cell (R8). -/
def pchOf (cell : Nat) : Nat := cell / 2 ^ 30

/-! ### Poison -/

/-- A sector that holds a poisoned word is read poisoned (R122). -/
def State.sectorBad (s : State) (cell : Nat) : Bool := s.bad.any fun w => w / 8 == cell / 64

/-- The 8-byte words that a write covers completely lose their poison (R126). -/
def clearWords (bad : List Nat) (a n : Nat) : List Nat := bad.filter fun w => !(a ≤ 8 * w && 8 * w + 8 ≤ a + n)

/-- Mark words poisoned. -/
def addWords (bad ws : List Nat) : List Nat := bad ++ ws.filter fun w => !bad.contains w

/-- The 8-byte words of the sectors that a byte range touches. -/
def wordsOf (a n : Nat) : List Nat :=
  if n = 0 then [] else (List.range ((a + n - 1) / 8 - a / 8 + 1)).map fun i => a / 8 + i

/-- Apply a clean write at its home: bytes, and the poison of the words it covers (R126, R130). -/
def State.writeHome (s : State) (cell : Nat) (data : List Byte) : State :=
  { s with mem := Memory.writeN s.mem cell data, bad := clearWords s.bad cell data.length }

/-- Apply a write of poisoned data at its home: each word it touches becomes poisoned (R124). -/
def State.writeBad (s : State) (cell : Nat) (data : List Byte) : State :=
  { s with mem := Memory.writeN s.mem cell data, bad := addWords s.bad (wordsOf cell data.length) }

/-- The horizon H of a line (R129). -/
def State.horizonOf (s : State) (line : Nat) : Nat := tget 0 s.horizon line

/-- A cell lies in what a command owns (R142, R143). -/
def State.ownedBy (s : State) (cell n : Nat) : Bool :=
  s.owned.any fun o => o.addr < cell + n && cell < o.addr + o.len

/-- Whether a physical address lies in a code-locked frame (R75). -/
def State.codeLocked (s : State) (pa : Nat) : Bool := s.locked.contains (pa / 65536)

/-- Every L1 learns that the home has applied a write to a line (R129): a later fill drops the line's other sectors. -/
def State.markLine (s : State) (line : Nat) : State :=
  { s with cores := s.cores.map fun e =>
      (e.1, { e.2 with l1 := e.2.l1.map fun x => if x.line = line then { x with homeWrote := true } else x }) }

/-! ### Page tables -/

/-- The fields of a page-table entry (R113). -/
def pteV (e : Dword) : Bool := e.getLsbD 0
/-- Readable (R113). -/
def pteR (e : Dword) : Bool := e.getLsbD 1
/-- Writable (R113). -/
def pteW (e : Dword) : Bool := e.getLsbD 2
/-- Executable (R113). -/
def pteX (e : Dword) : Bool := e.getLsbD 3
/-- Uncached (R113). -/
def pteUC (e : Dword) : Bool := e.getLsbD 4
/-- Operand region of armed near-memory work (R113). -/
def pteSeal (e : Dword) : Bool := e.getLsbD 5
/-- Near-memory writable (R113). -/
def pteNMW (e : Dword) : Bool := e.getLsbD 6
/-- Bank-linear layout (R113). -/
def pteBL (e : Dword) : Bool := e.getLsbD 7
/-- Home stack (R113). -/
def pteHS (e : Dword) : Nat := (e.extractLsb' 8 3).toNat
/-- This entry maps a page (R113). -/
def pteLeaf (e : Dword) : Bool := e.getLsbD 11
/-- Physical address of the page or of the next table (R113). -/
def pteFrame (e : Dword) : Nat := (e.extractLsb' 16 30).toNat * 65536

/-- A valid entry of a level that R113 calls malformed. -/
def malformed (level : Nat) (e : Dword) : Bool :=
  let frame := pteFrame e
  e.extractLsb' 46 18 != 0 || e.extractLsb' 12 4 != 0 ||
  (level == 1 && pteLeaf e) || (level == 3 && !pteLeaf e) ||
  (!pteLeaf e && e.extractLsb' 1 10 != 0) ||
  (pteLeaf e && ((pteW e && !pteR e) || (pteX e && pteW e))) ||
  (pteLeaf e && level == 2 && (bitsOf frame 16 13 != 0 || pteBL e)) ||
  !backed frame ||
  (pteLeaf e && !isHost frame && pteHS e != bitsOf frame 36 3) ||
  (pteLeaf e && isHost frame && (pteHS e != 0 || pteBL e))

/-- Causes of R228, with the WALK and OVERRUN bits of R229. -/
def causeMisalign : Word := 0x01
def causeNotPresent : Word := 0x02
def causeProt : Word := 0x03
def causeWalk : Word := 0x80000003
def causePoison : Word := 0x04
def causeBagCap : Word := 0x05
def causeBagHandle : Word := 0x06
def causeOverrun : Word := 0x40000006
def causeFuture : Word := 0x07
def causeMeetOverflow : Word := 0x08
def causeMeetUnderflow : Word := 0x09
def causeNoHerd : Word := 0x0a
def causeRegroupMeet : Word := 0x0b
def causeScratch : Word := 0x0e
def causeAcc : Word := 0x0f
def causeNmArm : Word := 0x10
def causeSpawn : Word := 0x11
def causeReleased : Word := 0x12
def causeMixed : Word := 0x13
/-- TRAP_INSN and BKPT carry their code in bits 18:8 (R229, R236). -/
def causeTrap (code : BitVec 12) : Word := BitVec.ofNat 32 (code.toNat * 256 + 0x0c)
/-- BKPT with its code (R229, R236). -/
def causeBkpt (code : BitVec 12) : Word := BitVec.ofNat 32 (code.toNat * 256 + 0x0d)

/-- Eight bytes of physical memory as a number, read with the interleaved layout (log 7). The rules name no cause for a poisoned sector in a table:
DESIGN CHOICE, the walk uses its bytes and ignores the mark (log 72). -/
def State.readPhys (s : State) (pa : Nat) : Dword := BitVec.ofNat 64 (leNat (Memory.readN s.mem (cellOf pa false) 8))

/-- The walk of R112 and R113: the leaf and the size of its page, or the cause word. -/
def State.walk (s : State) (root va : Nat) : Except Word TlbEntry :=
  let e1 := s.readPhys (root + 8 * bitsOf va 42 7)
  if !pteV e1 then .error causeNotPresent
  else if malformed 1 e1 then .error causeWalk
  else
    let e2 := s.readPhys (pteFrame e1 + 8 * bitsOf va 29 13)
    if !pteV e2 then .error causeNotPresent
    else if malformed 2 e2 then .error causeWalk
    else if pteLeaf e2 then .ok { va := va / 2 ^ 29 * 2 ^ 29, size := 2 ^ 29, leaf := e2 }
    else
      let e3 := s.readPhys (pteFrame e2 + 8 * bitsOf va 16 13)
      if !pteV e3 then .error causeNotPresent
      else if malformed 3 e3 then .error causeWalk
      else .ok { va := va / 2 ^ 16 * 2 ^ 16, size := 2 ^ 16, leaf := e3 }

/-- An entry of a TLB that translates an address. -/
def TlbEntry.hits (e : TlbEntry) (asid va : Nat) : Bool := e.asid == asid && e.va ≤ va && va < e.va + e.size

/-- The physical address that an entry gives. -/
def TlbEntry.pa (e : TlbEntry) (va : Nat) : Nat := pteFrame e.leaf + (va - e.va)
/-- The number under which memory holds the byte at a virtual address. -/
def TlbEntry.cell (e : TlbEntry) (va : Nat) : Nat := cellOf (e.pa va) (pteBL e.leaf)
/-- Host-memory pages are uncached whatever the UC bit holds (R113). -/
def TlbEntry.uc (e : TlbEntry) : Bool := pteUC e.leaf || isHost (pteFrame e.leaf)

/-- The translation that a die's last-level TLB or a walk gives (R118); engines use it directly (R121). -/
def State.lookupDie (s : State) (die asid va : Nat) : Except Word TlbEntry :=
  match (s.die die).tlb.find? fun e => e.hits asid va with
  | some e => .ok e
  | none => (s.walk (s.aspace asid).root va).map fun e => { e with asid := asid }

/-- The translation that a core finds: its L1 TLB, then the last level (R118). A virtual address beyond 49 bits takes PROT
(R106). -/
def State.lookup (s : State) (core asid va : Nat) : Except Word TlbEntry :=
  if va < 2 ^ 49 then
    match (s.core core).tlb.find? fun e => e.hits asid va with
    | some e => .ok e
    | none => s.lookupDie (dieOf core) asid va
  else .error causeProt

/-- Hold an entry in a TLB of a given size (R118). Which one makes room in a full TLB no rule says: DESIGN CHOICE, the oldest (log 80). -/
def holdEntry (size : Nat) (tlb : List TlbEntry) (e : TlbEntry) : List TlbEntry :=
  if tlb.contains e then tlb else (e :: tlb).take size

/-- A core and its die hold a translation that one of their accesses has used (R118). -/
def State.holdTlb (s : State) (core : Nat) (e : TlbEntry) : State :=
  let c := s.core core
  let s := s.setCore core { c with tlb := holdEntry 256 c.tlb e }
  let d := s.die (dieOf core)
  s.setDie (dieOf core) { d with tlb := holdEntry 4096 d.tlb e }

/-- What an access does, for the permissions of R114. -/
inductive Access where
  | read | write | atomic | fetch
  deriving DecidableEq, Repr

/-- Whether a physical address lies in a range granted to an interface (R250): pairs of first frame and number of frames. -/
def Vi.grants (v : Vi) (pa : Nat) : Bool := v.granted.any fun g => g.1 ≤ pa / 65536 && pa / 65536 < g.1 + g.2

/-- The memory firewall (R250): every access of an address space is checked against the ranges granted to its interface. -/
def State.firewall (s : State) (asid pa : Nat) : Bool := (s.vi (s.aspace asid).vi).grants pa

/-- The last bank-linear page of a pseudo-channel's range (R210). -/
def isMailbox (pa : Nat) (bl : Bool) : Bool := bl && !isHost pa && pa % 2 ^ 30 / 65536 == 0x3fff

/-- The mailbox page of a pseudo-channel of the interface is granted with it (R210, log 68). -/
def State.ownMailbox (s : State) (asid pa : Nat) (bl : Bool) : Bool :=
  isMailbox pa bl && (s.vi (s.aspace asid).vi).pcs.contains (pa / 2 ^ 30)

/-- The leaf's permissions for an access (R114) and the firewall's (R250); a code-locked frame takes no write (R75), and an ATOM to
host memory takes PROT (R137). -/
def State.permitted (s : State) (k : Access) (e : TlbEntry) (va : Nat) : Bool :=
  (s.firewall e.asid (e.pa va) || s.ownMailbox e.asid (e.pa va) (pteBL e.leaf)) &&
  match k with
  | .read => pteR e.leaf
  | .write => pteW e.leaf && !pteSeal e.leaf && !s.codeLocked (e.pa va)
  | .atomic => pteR e.leaf && pteW e.leaf && !pteSeal e.leaf && !s.codeLocked (e.pa va) && !isHost (e.pa va)
  | .fetch => pteX e.leaf

/-- Translate for an access: the entry, or the cause word (R113, R114). -/
def State.translate (s : State) (core asid : Nat) (k : Access) (va : Nat) : Except Word TlbEntry :=
  match s.lookup core asid va with
  | .error c => .error c
  | .ok e => if s.permitted k e va then .ok e else .error causeProt

end Sys2Proof.Machine
end

