-- ==== Sys2Proof/Machine/Spans.lean ====
section
/-! DEFINITION. The elements of a shape and the global virtual addresses that an engine command reads and writes (R120, R153, R156, R205,
R207, R209). -/

namespace Sys2Proof.Machine

/-- Offset of an element from the start of its side (R153, R160). -/
def Shape.off (h : Shape) (r c : Nat) : Int := (h.base : Int) + r * h.rowStride + (c * h.elemStride : Nat)

/-- Every element (row, column), row by row. -/
def Shape.elems (h : Shape) : List (Nat × Nat) :=
  (List.range h.rows).flatMap fun r => (List.range h.cols).map fun c => (r, c)

/-- The size of an element in bytes (R153). -/
def copySize (format : Nat) : Nat := match format with
  | 0 | 7 => 4
  | 1 | 2 => 2
  | _ => 1

/-- The address on the strided side of an element (R153). -/
def Shape.strided (h : Shape) (start : Nat) (r c : Nat) : Int := (start : Int) + h.off r c
/-- The address on the dense side of an element (R153). -/
def Shape.dense (h : Shape) (start : Nat) (r c : Nat) : Int := ((start + (r * h.cols + c) * copySize h.format : Nat) : Int)

/-- Each element's row, source address and destination address (R153). -/
def copyElems (dir src dst : Nat) (h : Shape) : List (Nat × Int × Int) :=
  h.elems.map fun e =>
    if dir = 1 then (e.1, h.strided src e.1 e.2, h.dense dst e.1 e.2) else (e.1, h.dense src e.1 e.2, h.strided dst e.1 e.2)

/-- A virtual address as a number of 64 bits. -/
def vaOf (x : Int) : Nat := (x % 2 ^ 64).toNat

/-- The addresses of the 256-byte lines of a FETCH's destination. -/
def FetchReq.lineVas (r : FetchReq) : List Nat := (List.range (r.count * r.size / 256)).map fun i => r.dst + i * 256

/-- The 64-byte sectors of a near-memory parameter block (R198). -/
def blockVas (va : Nat) : List Nat := (List.range 4).map fun i => va + 64 * i

/-- The words of a run's vector (R198). -/
def NmBlock.vecVas (b : NmBlock) : List Nat := (List.range b.vecLen).map fun i => b.vecSrc + 4 * i

/-- The global virtual addresses that a command reads or writes through translations of its own, besides the slots of a bag: one for each
access. -/
def CmdKind.vas : CmdKind → List Nat
  | .copy dir src dst h _ => (copyElems dir src.toNat dst.toNat h).flatMap fun e =>
      (if dir = 1 then [] else [vaOf e.2.1]) ++ (if dir = 0 then [] else [vaOf e.2.2])
  | .fetch _ record none => [record.toNat]
  | .fetch _ record (some r) => record.toNat :: r.lineVas
  | .nmload src _ n => (List.range n).map fun i => src.toNat + 8 * i
  | .nmrun block b => blockVas block.toNat ++ b.vecVas
  | .nmdisarm block => blockVas block.toNat
  | _ => []

end Sys2Proof.Machine
end

