-- ==== Sys2Proof/Machine/Home.lean ====
section
/-! DEFINITION. What happens at a line's home controller and in an L1 (spec/07_ordering.md): fills under leases, stores on their way
home, completion times, atomic operations, the mailbox page of R210, and the scratch windows. -/

namespace Sys2Proof.Machine

/-! ### Reads at home -/

/-- The refresh interval of a tier (R212). -/
def refreshInterval (tier : Nat) : Nat := if tier = 0 then 3900 else if tier = 1 then 1950 else 975

/-- The time of a refresh that a pseudo-channel plans for t at the latest. The device staggers the schedules as it chooses (R212): DESIGN CHOICE,
pseudo-channel n refreshes at times that leave n when they are divided by 512, so that no two of the 512 fall together at any interval
(log 77). -/
def staggered (n t : Nat) : Nat := t - (t + 512 - n % 512) % 512

/-- The first refresh of a pseudo-channel after reset (log 77). -/
def firstRefresh (n : Nat) : Nat := 512 + n

/-- A run computes on a pseudo-channel (R210, R211). -/
def Pch.computing (p : Pch) : Bool := p.run.isSome && !p.ended

/-- The time of a pseudo-channel's next refresh (R212). That of one that computes may be overdue. The refreshes of another change nothing that can
be seen, and follow one another as late as the interval in force and the stagger let them. -/
def State.nextRefresh (s : State) (n : Nat) : Nat :=
  let t := if (s.pch n).nextRefresh = 0 then firstRefresh n else (s.pch n).nextRefresh
  let d := refreshInterval (s.stackAt (n / 64)).tier / 512 * 512
  if s.dtime < t || (s.pch n).computing then t else s.dtime + d - (s.dtime - t) % d

/-- A pseudo-channel serves normal accesses now: it does not compute, or its run pauses (R209, R212). -/
def State.opens (s : State) (n : Nat) : Bool := !(s.pch n).computing || (s.pch n).resumeAt.isSome

/-- The pseudo-channel of a cell serves normal accesses now (R209, R212). -/
def State.serves (s : State) (cell : Nat) : Bool := isHost cell || s.opens (pchOf cell)

/-- The pseudo-channel at which an engine of a core finds a virtual address in DRAM. -/
def State.pchAt (s : State) (core asid va : Nat) : Option Nat :=
  match if va < 2 ^ 49 then s.lookupDie (dieOf core) asid va else .error causeProt with
  | .error _ => none
  | .ok e => if isHost (e.cell va) || isMailbox (e.pa va) (pteBL e.leaf) then none else some (pchOf (e.cell va))

/-- The accesses of an engine to virtual addresses can be served now (R209). -/
def State.servesVas (s : State) (core asid : Nat) (vas : List Nat) : Bool := vas.all fun va => (s.pchAt core asid va).all s.opens

/-- The accesses of a command can be served now (R209). -/
def State.servesCmd (s : State) (c : Cmd) : Bool := s.servesVas c.core c.asid c.kind.vas

/-- A byte of the mailbox rows and the status block (R210). -/
def State.mailboxByte (s : State) (pa : Nat) : Byte :=
  let n := pa / 2 ^ 30
  let off := pa % 65536
  let p := s.pch n
  let k := s.stackAt (n / 64)
  let field := fun (v o : Nat) => BitVec.ofNat 8 (v / 256 ^ o)
  if off < 0x1000 then field (tget {} p.mailbox (off / 4)).w.toNat (off % 4)
  else if off < 0x1004 then field (refreshInterval k.tier) (off - 0x1000)
  else if off = 0x1004 then field k.divider 0
  else if off = 0x1005 then field k.tier 0
  else if off = 0x1006 then field (if p.run.isSome && !(p.ended && p.due ≤ 2 * s.dtime) then 1 else 0) 0
  else if off = 0x1007 then field (if s.sealed.any fun e => e.pch == n then 1 else 0) 0
  else if 0x1008 ≤ off ∧ off < 0x1010 then field (s.nextRefresh n) (off - 0x1008)
  else 0

/-- Whether the sector of mailbox values at an address holds a poisoned value (R207, R210). -/
def State.mailboxBad (s : State) (pa : Nat) : Bool :=
  let off := pa % 65536
  off < 0x1000 && (List.range 16).any fun i => (tget {} (s.pch (pa / 2 ^ 30)).mailbox (off / 64 * 16 + i)).bad

/-- n bytes at home and whether their sector is poisoned (R122, R210). The bytes lie in one sector (R110). -/
def State.homeRead (s : State) (e : TlbEntry) (va n : Nat) : List Byte × Bool :=
  let pa := e.pa va
  if isMailbox pa (pteBL e.leaf) then ((List.range n).map fun i => s.mailboxByte (pa + i), s.mailboxBad pa)
  else (Memory.readN s.mem (e.cell va) n, s.sectorBad (e.cell va))

/-! ### The L1 -/

/-- A line that an L1 holds. -/
def Core.l1Line (c : Core) (line : Nat) : Option L1Line := c.l1.find? fun x => x.line == line

/-- The sector that holds a cell, when the L1 holds it. -/
def Core.sector (c : Core) (cell : Nat) : Option Sector :=
  (c.l1Line (lineOf cell)).bind fun x => x.sectors.getD (cell / 64 % 4) none

/-- Replace one sector of a line in the L1. -/
def Core.setSector (c : Core) (cell : Nat) (v : Option Sector) : Core :=
  { c with l1 := c.l1.map fun x =>
      if x.line = lineOf cell then { x with sectors := setAt 4 none x.sectors (cell / 64 % 4) v } else x }

/-- Banks of scratch granted on a core (R108). -/
def Core.scratchBanks (c : Core) : Nat := (c.windows.map (·.banks)).sum

/-- Banks of the register pool (R54). -/
def Core.poolBanks (c : Core) : Nat := c.poolIdle.length

/-- Banks of the L1 (R10): every bank not given to the pool and to scratch. A bank in transfer is the L1's until it joins the pool. -/
def Core.l1Banks (c : Core) : Nat := 32 - c.poolBanks - c.scratchBanks

/-- Banks in which the L1 holds lines: not the one that it is giving to the pool, whose lines are invalidated at once (R54). -/
def Core.l1Usable (c : Core) : Nat := c.l1Banks - (if c.grow.isSome then 1 else 0)

/-- Bytes i to i + n - 1 of a sector replaced. -/
def patch (old : List Byte) (i : Nat) (new : List Byte) : List Byte := old.take i ++ new ++ old.drop (i + new.length)

/-- A store updates the core's valid L1 sector, and invalidates a poisoned one (R126, R130). -/
def Core.storeL1 (c : Core) (cell : Nat) (data : List Byte) : Core :=
  match c.sector cell with
  | none => c
  | some x => c.setSector cell (if x.poison then none else some { x with data := patch x.data (cell % 64) data })

/-- The fill of one sector (R129): the home's horizon rises to the new expiry, the line's lease is renewed, and the line's other
sectors are dropped when the home has applied a write to it since the present lease was granted. Which line makes room in a full L1 no rule
says: DESIGN CHOICE, the one that was filled least recently (log 80). -/
def State.fill (s : State) (core : Nat) (lease : Nat) (e : TlbEntry) (va : Nat) : State :=
  let cell := e.cell va
  let line := lineOf cell
  let exp := s.dtime + lease
  let sec := s.homeRead e (va / 64 * 64) 64
  let c := s.core core
  let old := (c.l1Line line).getD { line := line }
  let kept := if old.homeWrote then List.replicate 4 none else old.sectors
  let x : L1Line := { line := line, expiry := exp, homeWrote := false,
                      sectors := setAt 4 none kept (cell / 64 % 4) (some ⟨sec.1, sec.2⟩) }
  let s := s.setCore core { c with l1 := (x :: c.l1.filter fun y => y.line != line).take (c.l1Usable * 256) }
  { s with horizon := tset s.horizon line (max (s.horizonOf line) exp) }

/-- A hit: the sector is valid and the lease has not expired (R129). -/
def State.hit (s : State) (core cell : Nat) : Option Sector :=
  match (s.core core).l1Line (lineOf cell) with
  | none => none
  | some x => if s.dtime < x.expiry then x.sectors.getD (cell / 64 % 4) none else none

/-- Another store of this core to the sector has not had its reply (R131). -/
def State.inFlight (s : State) (core cell : Nat) : Bool :=
  s.flights.any fun f => f.core == core && sectorOf f.addr == sectorOf cell

/-- A strong access that overlaps the sector's last write with another size before its completion time (R141). -/
def State.mixed (s : State) (cell n : Nat) : Bool :=
  let w := tget {} s.lastWrite (sectorOf cell)
  let mask : Nat := (2 ^ n - 1) * 2 ^ (cell % 64)
  w.size != 0 && w.size != n && Nat.land w.mask.toNat mask != 0 && s.dtime < w.ct

/-- The bytes of a write that lie in a sector: the first of them, counted from the sector's start, and how many there are. -/
def inSector (cell n sec : Nat) : Nat × Nat := (max cell (64 * sec) - 64 * sec, min (cell + n) (64 * sec + 64) - max cell (64 * sec))

/-- The home remembers the last write of each sector that a write touches (R141). The size of a write that touches several is that of its
part in the sector: DESIGN CHOICE, the rule speaks of one access's size (log 65). -/
def State.noteWrite (s : State) (cell n ct : Nat) : State :=
  let secs := if n = 0 then [] else (List.range ((cell + n - 1) / 64 - cell / 64 + 1)).map (cell / 64 + ·)
  { s with lastWrite := secs.foldl (fun t sec =>
      let p := inSector cell n sec
      tset t sec ⟨BitVec.ofNat 64 ((2 ^ p.2 - 1) * 2 ^ p.1), p.2, ct⟩) s.lastWrite }

/-! ### Accesses of a lane -/

/-- What becomes of one access of one lane: it waits, it traps with a cause word, or it has its effect and its data. -/
inductive Done where
  | wait
  | trap (cause : Word)
  | ok (s : State) (data : List Byte)

/-- A load of a global or local virtual address (R129, R131, R323, R325). dbg is the mixed-size option, and home is set for
LDNC, which never uses the L1. -/
def State.loadVirt (s : State) (core asid : Nat) (dbg home : Bool) (va n : Nat) : Done :=
  match s.translate core asid .read va with
  | .error c => .trap c
  | .ok e =>
    let cell := e.cell va
    let s := s.holdTlb core e
    let atHome := home || e.uc
    match if atHome then none else s.hit core cell with
    | some x => if x.poison then .trap causePoison else .ok s ((x.data.drop (cell % 64)).take n)
    | none =>
      if s.inFlight core cell || s.ownedBy cell n || !(isMailbox (e.pa va) (pteBL e.leaf) || s.serves cell) then .wait
      else
        let r := s.homeRead e va n
        let s := if atHome then s else s.fill core (s.aspace asid).lease e va
        if r.2 then .trap causePoison
        else if dbg && s.mixed cell n then .trap causeMixed
        else .ok s r.1

/-- Apply a write at its home at the present DTIME: its completion time is max(a, H) (R130). -/
def State.applyHome (s : State) (cell : Nat) (data : List Byte) : State × Nat :=
  let ct := max s.dtime (s.horizonOf (lineOf cell))
  (((s.writeHome cell data).markLine (lineOf cell)).noteWrite cell data.length ct, ct)

/-- Raise WCT (R130) of the thread of a launch, wherever it stands. -/
def State.raiseWct (s : State) (launch : Nat) (tid : Word) (ct : Nat) : State :=
  let up := fun (t : Thread) => if t.tid = tid ∧ t.state ≠ .exited then { t with wct := BitVec.ofNat 64 (max t.wct.toNat ct) } else t
  let brood := fun (b : Brooded) => { b with thr := up b.thr }
  { s with
    crews := s.crews.map fun e =>
      (e.1, if e.2.launch = launch then { e.2 with threads := e.2.threads.map up } else e.2)
    clusters := s.clusters.map fun e =>
      (e.1, { e.2 with bins := e.2.bins.map fun b =>
        (b.1, if b.2.launch = launch then { b.2 with threads := b.2.threads.map brood } else b.2) })
    launches := s.launches.map fun e =>
      (e.1, if e.1 = launch then
        { e.2 with spill := e.2.spill.map fun x => { x with thr := brood x.thr }, maxCt := max e.2.maxCt ct }
        else e.2) }

/-- A store of a global or local virtual address (R130, R359, R360, R145). drop is set for STNC, which drops the L1 copy.
Under the mixed-size option the store is applied and its completion time returned at once (R141); a store to host memory has no
home on the device and waits for the host's acknowledgement (R145). -/
def State.storeVirt (s : State) (core asid launch : Nat) (tid : Word) (dbg drop : Bool) (va : Nat) (data : List Byte) : Done :=
  match s.translate core asid .write va with
  | .error c => .trap c
  | .ok e =>
    let cell := e.cell va
    let s := s.holdTlb core e
    if isHost cell then
      .ok { s.writeHome cell data with hostPending := s.hostPending ++ [⟨launch, tid, false⟩] } []
    else if dbg then
      if s.inFlight core cell || s.ownedBy cell data.length || !s.serves cell then .wait
      else if s.mixed cell data.length then .trap causeMixed
      else
        let c := s.core core
        let s := s.setCore core (if drop then c.setSector cell none else if e.uc then c else c.storeL1 cell data)
        let r := s.applyHome cell data
        .ok (r.1.raiseWct launch tid r.2) []
    else
      let c := s.core core
      let s := s.setCore core (if drop then c.setSector cell none else if e.uc then c else c.storeL1 cell data)
      .ok { s with flights := s.flights ++
              [{ launch := launch, tid := tid, core := core, addr := cell, data := data }] } []

/-- The store with this place among the flights may reach its home: the line is not owned (R142), its pseudo-channel serves accesses (R209), and every older store of the
same core to the line has been applied, so that a location's stores keep their order (R131, R139). -/
def State.mayApply (s : State) (k : Nat) : Bool :=
  match s.flights[k]? with
  | none => false
  | some f =>
    !f.applied && !s.ownedBy f.addr f.data.length && s.serves f.addr &&
    (s.flights.take k).all fun g => g.applied || g.core != f.core || lineOf g.addr != lineOf f.addr

/-- A store arrives home (R130): its bytes are applied, and its completion time is on its way back. -/
def State.applyFlight (s : State) (k : Nat) : Option State :=
  if s.mayApply k then
    (s.flights[k]?).map fun f =>
      let r := s.applyHome f.addr f.data
      { r.1 with flights := r.1.flights.set k { f with applied := true, ct := r.2 } }
  else none

/-- A completion time returns to its thread (R130). -/
def State.returnFlight (s : State) (k : Nat) : Option State :=
  match s.flights[k]? with
  | none => none
  | some f =>
    if f.applied then some ({ s with flights := dropAt s.flights k }.raiseWct f.launch f.tid f.ct) else none

/-! ### Atomic operations -/

/-- The bits of an operand of the given size (R137). -/
def atomBits (b64 : Bool) : Nat := if b64 then 64 else 32

/-- The new value of an ATOM (R137), on numbers below 2^32 or 2^64. -/
def atomNew (o : Nat) (b64 : Bool) (old x comparand : Nat) : Nat :=
  let w := atomBits b64
  let sold := signedNat old w
  let sx := signedNat x w
  match o with
  | 0 => (old + x) % 2 ^ w
  | 1 => if sx < sold then x else old
  | 2 => if sold < sx then x else old
  | 3 => if x < old then x else old
  | 4 => if old < x then x else old
  | 5 => Nat.land old x
  | 6 => Nat.lor old x
  | 7 => Nat.xor old x
  | 8 => x
  | 9 => if old = comparand then x else old
  | _ => (fAdd fp32 { dn := true } old x).1

/-- One atomic operation of global memory at its home (R137 to R141): it drops the issuing core's L1 copy of the sector and
raises WCT. The data are the old bytes. -/
def State.atomVirt (s : State) (core asid launch : Nat) (tid : Word) (dbg : Bool) (o : Nat) (b64 : Bool) (va : Nat)
    (x comparand : Nat) : Done :=
  match s.translate core asid .atomic va with
  | .error c => .trap c
  | .ok e =>
    let cell := e.cell va
    let n := atomBits b64 / 8
    let s := s.holdTlb core e
    if s.inFlight core cell || s.ownedBy cell n || !s.serves cell then .wait
    else if s.sectorBad cell then .trap causePoison
    else if dbg && s.mixed cell n then .trap causeMixed
    else
      let old := Memory.readN s.mem cell n
      let s := s.setCore core ((s.core core).setSector cell none)
      let r := s.applyHome cell (leBytes n (atomNew o b64 (leNat old) x comparand))
      .ok (r.1.raiseWct launch tid r.2) old

/-! ### Windows in the unified store -/

/-- The window of a launch on a core (R108, R109). -/
def Core.window (c : Core) (launch : Nat) : Window :=
  (c.windows.find? fun w => w.launch == launch).getD { launch := launch }

/-- Replace a launch's window. -/
def Core.setWindow (c : Core) (w : Window) : Core :=
  { c with windows := c.windows.map fun v => if v.launch = w.launch then w else v }

/-- Bytes of the scratch grant (R108). -/
def Window.bytes (w : Window) : Nat := w.banks * 65536

/-- Poison of the sector of a scratch offset (R123). -/
def Window.bad (w : Window) (off : Nat) : Bool := w.scratchBad.contains (off / 64)

/-- Read scratch. -/
def Window.read (w : Window) (off n : Nat) : List Byte := Memory.readN w.scratch off n

/-- A store merges into its sector, which stays poisoned (R123). -/
def Window.store (w : Window) (off : Nat) (data : List Byte) : Window :=
  { w with scratch := Memory.writeN w.scratch off data }

/-- Replace the window of a launch on a core. -/
def State.setWindow (s : State) (core : Nat) (w : Window) : State := s.setCore core ((s.core core).setWindow w)

/-- A load of scratch (R123, R125, R323). -/
def State.loadScratch (s : State) (core launch : Nat) (off n : Nat) : Done :=
  let w := (s.core core).window launch
  if w.bytes < off + n then .trap causeScratch
  else if w.bad off then .trap causePoison
  else .ok s (w.read off n)

/-- A store to scratch (R123, R359). -/
def State.storeScratch (s : State) (core launch : Nat) (off : Nat) (data : List Byte) : Done :=
  let w := (s.core core).window launch
  if w.bytes < off + data.length then .trap causeScratch else .ok (s.setWindow core (w.store off data)) []

/-- An atomic operation of the unified store (R137, R138, R272). -/
def State.atomScratch (s : State) (core launch : Nat) (o : Nat) (b64 : Bool) (off x comparand : Nat) : Done :=
  let w := (s.core core).window launch
  let n := atomBits b64 / 8
  if w.bytes < off + n then .trap causeScratch
  else if w.bad off then .trap causePoison
  else
    let old := w.read off n
    .ok (s.setWindow core (w.store off (leBytes n (atomNew o b64 (leNat old) x comparand)))) old

end Sys2Proof.Machine
end

