-- ==== Sys2Proof/Machine/Registers.lean ====
section
/-! DEFINITION. The rename map, the register pool and the completion slots (R44 to R58, R146 to R149). -/

namespace Sys2Proof.Machine

/-! ### The pool -/

/-- Registers of a crew that lie in a pool bank (R54), those drawn for results of unretired entries included (R49). -/
def Crew.inBank (c : Crew) (b : Nat) : Nat :=
  (regList.countP fun r => match c.reg r with
    | some p => p.bank == some b
    | none => false) + (c.rob.map fun e => e.banks.count b).sum

/-- Registers of a crew that lie in the pool. -/
def Crew.held (c : Crew) : Nat :=
  (regList.countP fun r => match c.reg r with
    | some p => p.bank.isSome
    | none => false) + (c.rob.map fun e => e.banks.length).sum

/-- Registers that a core's pool bank holds. -/
def State.bankUse (s : State) (core b : Nat) : Nat := ((s.crewsOn core).map fun e => e.2.inBank b).sum

/-- Free physical registers of a core (R55). -/
def State.freeRegs (s : State) (core : Nat) : Nat :=
  512 * (s.core core).poolBanks - ((List.range (s.core core).poolBanks).map (s.bankUse core)).sum

/-- The lowest-numbered pool bank with a free register (R54). -/
def State.pickBank (s : State) (core : Nat) : Nat :=
  ((List.range (s.core core).poolBanks).find? fun b => s.bankUse core b < 512).getD 0

/-- Admission order as a number; a crew never admitted comes last. -/
def Crew.seqKey (c : Crew) : Nat := c.admitSeq.getD (2 ^ 64)

/-- The oldest admitted crew of the core (R56, R224). -/
def State.isOldest (s : State) (core crew : Nat) : Bool :=
  (s.crewsOn core).all fun e => (s.crew crew).seqKey ≤ e.2.seqKey

/-- The earliest cycle since which an entry of a crew waits to allocate, if one does (R56). -/
def Crew.waitsSince (c : Crew) : Option Nat := (c.rob.filterMap fun e => if e.why = some 0 then some e.since else none).min?

/-- No other crew of the core but the oldest has waited to allocate for longer (R56). -/
def State.firstWaiter (s : State) (core crew : Nat) : Bool :=
  (s.crewsOn core).all fun e => e.1 == crew || s.isOldest core e.1 ||
    match e.2.waitsSince, (s.crew crew).waitsSince with
    | none, _ => true
    | some _, none => false
    | some t, some u => u ≤ t

/-- Whether a crew may allocate n registers now (R56): the oldest crew of the core whenever enough are free, any other only above the
reserve and in its turn, first come, first served. The rule orders results alone: DESIGN CHOICE, a spilled register that is read back (R58)
comes behind the results for which other such crews wait (log 81). -/
def State.mayAllocate (s : State) (crew n : Nat) : Bool :=
  n == 0 ||
  match (s.crew crew).core with
  | none => false
  | some core =>
    if s.isOldest core crew then n ≤ s.freeRegs core else 96 + n ≤ s.freeRegs core && s.firstWaiter core crew

/-- A physical register without a live lane returns to the pool; its lane states stay recorded (R50), and the poison of its halves goes with
it (R123). -/
def PReg.settle (p : PReg) : PReg :=
  if laneList.any fun l => (p.lane l).st == .live then p
  else { p with bank := none, spilled := false, poisonLo := false, poisonHi := false }

/-! ### Writing and releasing -/

/-- A half of a register that a read finds poisoned (R123). -/
def PReg.bad (p : PReg) (l : Nat) : Bool := if l < 16 then p.poisonLo else p.poisonHi

/-- The lanes 0 to 15, and 16 to 31. -/
def lowHalf : Mask := 0x0000ffff
/-- The lanes 16 to 31. -/
def highHalf : Mask := 0xffff0000

/-- The physical register that a write of R49 makes: the written lanes are new, the others are copied. The rules do not say whether a copy from a
poisoned half is poisoned: DESIGN CHOICE, the new register's half is poisoned whole, written lanes included, when any lane of the half is
copied (log 74). -/
def Crew.merged (c : Crew) (d : Nat) (g : Mask) (v : Nat → Lane) (bank cycle : Nat) : PReg :=
  let bad := fun (m : Mask) (l : Nat) => (match c.reg d with
    | some p => p.bad l
    | none => false) && (m &&& ~~~g != 0)
  { bank := some bank, touched := cycle, poisonLo := bad lowHalf 0, poisonHi := bad highHalf 16
    lanes := laneList.map fun l => if g.getLsbD l then v l else c.lane d l }

/-- The write of R49, drawing the physical register from the given bank. -/
def Crew.write (c : Crew) (d : Nat) (g : Mask) (v : Nat → Lane) (bank cycle : Nat) : Crew :=
  if d = 0 ∨ g = 0 then c
  else c.onRegs fun r p => if r = d then some (c.merged d g v bank cycle) else p

/-- The write of R49 by a crew of a core, to the register that has been drawn for it, or to one that it draws now. -/
def State.writeReg (s : State) (crew d : Nat) (g : Mask) (v : Nat → Lane) (drawn : Option Nat) : State :=
  let c := s.crew crew
  s.setCrew crew (c.write d g v (drawn.getD (s.pickBank (c.core.getD 0))) (s.core (c.core.getD 0)).cycle)

/-- The writes of a pair or group, one per register, each in the lanes that write it (R49), to the registers drawn for them as far as they go. -/
def State.writeRegs (s : State) (crew : Nat) (g : Nat → Mask) (v : Nat → Nat → Lane) : List Nat → Nat → List Nat → State
  | [], _, _ => s
  | d :: ds, j, bs => (s.writeReg crew d (g j) (v j) bs.head?).writeRegs crew g v ds (j + 1) (if d = 0 then bs else bs.tail)

/-- Release the live lanes of a mask in a physical register (R51). A future's slot loses the lane (R148). -/
def PReg.release (p : PReg) (m : Mask) : PReg :=
  (p.onLanes fun l x => if m.getLsbD l && x.st == .live then { st := .released } else x).settle

/-- A read consumes completed statuses: the slot loses the lane (R148). -/
def PReg.consume (p : PReg) (m : Mask) : PReg :=
  p.onLanes fun l x => if m.getLsbD l && !x.pend then { x with slot := none } else x

/-- What retirement does to the registers that an instruction has read: statuses are consumed in the lanes of d unless the
instruction only looks (R148), the registers named in rel are released in the lanes of m (R51), and the read is noted (R57). -/
def Crew.endReads (c : Crew) (srcs rel : List Nat) (d m : Mask) (peek : Bool) (cycle : Nat) : Crew :=
  if m = 0 then c
  else c.onRegs fun r p => p.map fun p =>
    let p := if srcs.contains r then { (if peek then p else p.consume d) with touched := cycle } else p
    if rel.contains r then p.release m else p

/-- A thread leaves its crew: its lane is cleared from every physical register (R20, R38). -/
def Crew.clearLane (c : Crew) (l : Nat) (st : LaneState) : Crew :=
  c.onRegs fun _ p => p.map fun p =>
    (p.onLanes fun k x => if k = l then { st := if x.st = .live then st else x.st } else x).settle

/-! ### Spill slots -/

/-- The cell of a register's spill slot (R57): 64 slots of 256 bytes at the start of the crew's area, one for each register number. -/
def Crew.slotCell (c : Crew) (r : Nat) : Nat := cellOf (c.area.getD 0 * 65536 + 256 * r) false

/-- The number under which a slot holds a lane's state. -/
def LaneState.code : LaneState → Nat
  | .unwritten => 0
  | .live => 1
  | .released => 2

/-- The 256 bytes of a spill slot (R57): the register's 128 bytes by ascending lane, then its lane states, one byte each, then zeros
(log 36). -/
def PReg.slotBytes (p : PReg) : List Byte :=
  (laneList.flatMap fun l => leBytes 4 (p.lane l).val.toNat) ++ (laneList.map fun l => BitVec.ofNat 8 (p.lane l).st.code) ++ leBytes 96 0

/-! ### Completion slots -/

/-- The slots to which lanes of a physical register are bound (R146). -/
def PReg.slots (p : PReg) : List Nat := p.lanes.filterMap (·.slot)

/-- The slots to which lanes of a crew's registers are bound (R146). -/
def Crew.slotsHeld (c : Crew) : List Nat := c.map.flatMap fun r => match r with
  | none => []
  | some p => p.slots

/-- Some lane of a crew's registers is bound to a slot (R146). -/
def Crew.binds (c : Crew) (slot : Nat) : Bool := c.slotsHeld.contains slot

/-- Whether any lane of a crew that runs or ran last on the core is bound to a slot (R148, R149). -/
def State.isBound (s : State) (core slot : Nat) : Bool :=
  s.crews.any fun e => e.2.lastCore == core && !e.2.gone && e.2.binds slot

/-- A slot as R150 sees it: ready when it is free or holds a completed command. -/
def Slot.ready : Slot → Bool
  | .busy _ => false
  | _ => true

/-- A slot that holds a completed command. -/
def Slot.isHeld : Slot → Bool
  | .held _ => true
  | _ => false

/-- Slot k of a core. -/
def Core.slot (c : Core) (k : Nat) : Slot := c.slots.getD k .free

/-- Replace a slot. -/
def Core.setSlot (c : Core) (k : Nat) (v : Slot) : Core := { c with slots := setAt 64 .free c.slots k v }

/-- The free slots of a core, lowest first. -/
def Core.freeSlots (c : Core) : List Nat := (List.range 64).filter fun k => c.slot k == .free

/-- A completed command's slot frees when no lane is bound to it any more (R148). -/
def State.sweepSlots (s : State) (core : Nat) : State :=
  let c := s.core core
  if c.slots.all fun x => !x.isHeld then s
  else
    let slots := (List.range 64).map fun k =>
      match c.slot k with
      | .held v => if s.isBound core k then .held v else .free
      | x => x
    s.setCore core { c with slots := slots }

/-- Note for every pool bank the cycle since which it has held no register; a core that holds no crew has two banks (R54). -/
def State.notePool (s : State) (core : Nat) : State :=
  let c := s.core core
  if (s.crewsOn core).isEmpty then
    s.setCore core { c with
      grow := none, exhausted := none
      poolIdle := (List.range 2).map fun b => some ((c.poolIdle.getD b none).getD c.cycle) }
  else
    let idle := (List.range c.poolBanks).map fun b =>
      if s.bankUse core b = 0 then some ((c.poolIdle.getD b none).getD c.cycle) else none
    s.setCore core { c with poolIdle := idle }

/-- Whether a command reads or bumps a trigger counter (R152, R154, R166). -/
def Cmd.usesTrigger (c : Cmd) : Bool :=
  match c.kind with
  | .copy _ _ _ _ n => n.isSome
  | .mma _ _ _ _ _ _ t _ _ _ => t.isSome
  | _ => false

/-- The trigger counters are cleared whenever the core holds no crew and no command that uses them (R152). -/
def State.clearTriggers (s : State) (core : Nat) : State :=
  if (s.crewsOn core).isEmpty && !(s.cmds.any fun c => c.core == core && c.usesTrigger) then
    let c := s.core core
    s.setCore core { c with trig := List.replicate 16 0 }
  else s

/-- A command that reads or writes its core's windows or trigger counters, which keeps them granted (R108). -/
def Cmd.usesWindows (c : Cmd) : Bool :=
  match c.kind with
  | .copy dir _ _ _ n => dir != 2 || n.isSome
  | .mma .. | .mdrain .. | .mzero .. | .copys .. | .bdrain .. => true
  | _ => false

/-- A crew that holds a launch's windows on a core: it is resident or chosen for it, or it was evicted from there (R108, R172). R172 says so of
accumulator and scale windows: DEDUCED of scratch, since R196 promises its end state whatever the timing of a crew whose launch asks for scratch
alone (log 82). -/
def Crew.holdsWindow (c : Crew) (core : Nat) (w : Window) : Bool :=
  c.launch == w.launch && !c.gone && (c.core == some core || c.chosen == some core || (c.evicted && c.lastCore == core))

/-- Windows whose launch has no crew left on the core and no command that uses them are returned (R108). -/
def State.returnWindows (s : State) (core : Nat) : State :=
  let c := s.core core
  if c.windows.isEmpty then s
  else
    let kept := c.windows.filter fun w =>
      (s.crews.any fun e => e.2.holdsWindow core w) ||
      s.cmds.any fun d => d.core == core && d.launch == w.launch && d.usesWindows
    s.setCore core { c with windows := kept }

/-- What follows every change of a core's crews, registers or commands. -/
def State.settleCore (s : State) (core : Nat) : State :=
  (((s.sweepSlots core).notePool core).clearTriggers core).returnWindows core

end Sys2Proof.Machine
end

