-- ==== Sys2Proof/Machine/Threads.lean ====
section
/-! DEFINITION. Meetings (R22 to R27), herd barriers (R31, R32), and how threads and crews end (R20, R233, R261). -/

namespace Sys2Proof.Machine

/-- The cycle count of the core on which a crew runs or ran last. -/
def State.cycleOf (s : State) (crew : Nat) : Nat := (s.core ((s.crew crew).core.getD (s.crew crew).lastCore)).cycle

/-- A thread becomes READY (R19). -/
def Thread.wake (t : Thread) (cycle : Nat) : Thread :=
  { t with state := .ready, waitMask := 0, waitAll := false, barrier := none, readySince := cycle, fence := none, got := none, waitG := 0 }

/-! ### Meetings -/

/-- A meeting instance of the crew. -/
def Crew.meeting (c : Crew) (id : Nat) : Option Meeting := c.meetings.find? fun m => m.id == id

/-- Replace a meeting; the instance is discarded when every sibling has departed (R25). -/
def Crew.setMeeting (c : Crew) (m : Meeting) : Crew :=
  { c with meetings := (c.meetings.map fun x => if x.id = m.id then m else x).filter fun x => x.dep != x.sib }

/-- leave(u, m) of R24 for every thread of W. -/
def Crew.leaveAll (c : Crew) (m : Meeting) (timedOut : Bool) (cycle : Nat) : Crew :=
  (c.onMask m.wait fun _ t => { t.wake cycle with stack := t.stack.erase m.id, pc := m.addr }).setMeeting
    { m with wait := 0, dep := m.dep ||| m.wait, released := m.released || timedOut }

/-- Whether the cycle of the meeting's deadline is over: an arrival in that cycle is recorded before the deadline acts (R25). -/
def Meeting.expired (m : Meeting) (now : Nat) : Bool :=
  match m.deadline with
  | none => false
  | some d => d < now

/-- settle(m) of R24. -/
def Crew.settleMeeting (c : Crew) (cycle id : Nat) : Crew :=
  match c.meeting id with
  | none => c
  | some m =>
    if m.wait ||| m.dep = m.sib then c.leaveAll m false cycle
    else if m.expired c.now then c.leaveAll m true cycle
    else c

/-- Settle every meeting of the crew, after all arrivals and departures of the cycle have been recorded (R25). -/
def Crew.settleMeetings (c : Crew) (cycle : Nat) : Crew :=
  (c.meetings.map (·.id)).foldl (fun c id => c.settleMeeting cycle id) c

/-- Add lanes to the departed set D of a meeting (R24, R26, R27). -/
def Crew.depart (c : Crew) (id : Nat) (m : Mask) : Crew :=
  { c with meetings := c.meetings.map fun x => if x.id = id then { x with dep := x.dep ||| m } else x }

/-- No thread that has ended waits at a meeting (R23, R27). -/
def Crew.unwait (c : Crew) : Crew :=
  { c with meetings := c.meetings.map fun x => { x with wait := x.wait &&& maskOf fun l => (c.thr l).state != .exited } }

/-- The mask of one lane. -/
def laneMask (l : Nat) : Mask := maskOf fun k => k == l

/-- arrive(t, m, timeout) of R24 without settle: a latecomer leaves at once, any other thread waits. -/
def Crew.arrive (c : Crew) (l timeout cycle : Nat) : Crew :=
  let t := c.thr l
  match t.stack with
  | [] => c
  | id :: rest =>
    match c.meeting id with
    | none => c
    | some m =>
      if m.released then
        (c.setThr l { t.wake cycle with stack := rest, pc := m.addr }).setMeeting { m with dep := m.dep ||| laneMask l }
      else
        let d := c.now + timeout
        let deadline := if timeout = 0 then m.deadline else some (match m.deadline with
          | none => d
          | some e => if d < e then d else e)
        (c.setThr l { t with state := .meeting }).setMeeting { m with wait := m.wait ||| laneMask l, deadline := deadline }

/-! ### Barriers -/

/-- The barrier of a herd of a launch (R31). -/
def Launch.barrier (x : Launch) (h : Nat) : Barrier := tget {} x.barriers h

/-- Change a barrier. -/
def State.onBarrier (s : State) (lid h : Nat) (f : Barrier → Barrier) : State :=
  let x := s.launch lid
  s.setLaunch lid { x with barriers := tset x.barriers h (f (x.barrier h)) }

/-- Threads that wait at a herd's barrier and satisfy a test become READY (R31, R32). -/
def State.wakeBarrier (s : State) (lid h : Nat) (go : Word → Bool) : State :=
  { s with crews := s.crews.map fun e =>
      (e.1, if e.2.launch = lid then
        e.2.onThreads fun _ t =>
          if t.state = .barrier ∧ t.barrier = some h ∧ go t.tid = true then t.wake (s.cycleOf e.1) else t
      else e.2) }

/-- When A = L and L > 0 the phase completes (R31): its waiters are released, and the held arrivals count in the next phase
(R32). -/
def State.settleBarrier (s : State) (lid h : Nat) : Nat → State
  | 0 => s
  | fuel + 1 =>
    let b := (s.launch lid).barrier h
    if b.arrived.length = b.live ∧ 0 < b.live then
      let s := s.wakeBarrier lid h fun tid => !b.held.contains (tid, true)
      let s := s.onBarrier lid h fun b =>
        { b with phase := !b.phase, arrived := b.held.map (·.1), held := [] }
      s.settleBarrier lid h fuel
    else s

/-- Record the arrival of a thread (R31, R32): a second arrival in one phase is held for the next. -/
def Barrier.arrive (b : Barrier) (tid : Word) (waits : Bool) : Barrier :=
  if b.arrived.contains tid then { b with held := b.held ++ [(tid, waits)] } else { b with arrived := b.arrived ++ [tid] }

/-- An exiting or killed member lowers L, and A when it had arrived in the current phase (R31). -/
def Barrier.leave (b : Barrier) (tid : Word) : Barrier :=
  { b with live := b.live - 1, arrived := b.arrived.filter (· != tid), held := b.held.filter fun e => e.1 != tid }

/-- The herds that a thread belongs to (R29). -/
def Thread.herdList (t : Thread) : List Nat := t.herds.filterMap id

/-- Threads leave their herds; every departure is recorded before a phase is tested (R31). -/
def State.leaveHerds (s : State) (lid : Nat) (ts : List Thread) : State :=
  let s := ts.foldl (fun s t => t.herdList.foldl (fun s h => s.onBarrier lid h fun b => b.leave t.tid) s) s
  (ts.flatMap Thread.herdList).dedup.foldl (fun s h => s.settleBarrier lid h 2) s

/-! ### Fences -/

/-- A store or ATOM, or a bag placement, of the thread has not returned its completion time (R133, R144). -/
def State.outstanding (s : State) (launch : Nat) (tid : Word) : Bool :=
  (s.flights.any fun f => f.launch == launch && f.tid == tid) ||
  (s.aspace (s.launch launch).asid).bags.any fun b => b.2.shares.any fun h =>
    h.2.queue.any fun p => p.owner == some (launch, tid)

/-- The wait of FENCE for one thread (R133): kind 0 core, 1 dev, 2 sys. -/
def State.fenced (s : State) (kind : Nat) (crew l : Nat) : Bool :=
  let c := s.crew crew
  let t := c.thr l
  kind == 0 ||
  (!s.outstanding c.launch t.tid && t.wct.toNat < s.dtime &&
    (kind == 1 || !s.hostPending.any fun h => !h.engine && h.launch == c.launch && h.tid == t.tid))

/-! ### The end of threads and crews -/

/-- Lanes that leave READY, end, or wait at a fence have no unretired entry any more: what they have issued behind the instruction at which
they wait is squashed in them. -/
def Crew.dropLanes (c : Crew) (m : Mask) : Crew :=
  match c.rob.map fun e => { e with issue := { e.issue with mask := e.issue.mask &&& ~~~m } } with
  | [] => { c with rob := [] }
  | e :: es => { c with rob := e :: es.filter fun e => e.issue.mask != 0 }

/-- A thread that is not EXITED. -/
def Thread.isLive (t : Thread) : Bool := t.state != .exited

/-- Every lane has exited (R20). -/
def Crew.allExited (c : Crew) : Bool := laneList.all fun l => !(c.thr l).isLive

/-- The joined name of a thread (R255). -/
def State.nameOf (s : State) (lid : Nat) (tid : Word) : JName :=
  ⟨(s.launch lid).sthread, (s.launch lid).process, lid, tid⟩

/-- The crew record of R261. -/
def State.crewRecord (s : State) (c : Crew) : CrewRec :=
  { name := s.nameOf c.launch (((c.born[0]?).map (·.thr.tid)).getD (c.thr 0).tid), num := c.num, core := c.lastCore, evictions := min c.evictions 0xffff
    start := c.startTime, stop := s.dtime, retired := c.retired
    flags := (if c.killed then 1 else 0) + (if c.flushed then 2 else 0) + (if c.hatched then 4 else 0), stalls := c.stalls }

/-- The 24 bytes of a joined name (R255). -/
def JName.bytes (n : JName) : List Byte :=
  leBytes 8 (n.process.toNat % 2 ^ 20 + 2 ^ 20 * (n.sthread.toNat % 2 ^ 20)) ++ leBytes 8 n.launch ++ leBytes 4 n.tid.toNat ++ leBytes 4 0

/-- The 128 bytes of a crew record (R261). -/
def CrewRec.bytes (r : CrewRec) : List Byte :=
  r.name.bytes ++ leBytes 4 r.num.toNat ++ leBytes 2 r.core ++ leBytes 2 r.evictions ++ leBytes 8 r.start ++ leBytes 8 r.stop ++
  leBytes 8 r.retired ++ leBytes 4 r.flags ++ leBytes 4 0 ++ (List.range 16).flatMap fun k => leBytes 4 (r.stalls.getD k 0)

/-- A crew no longer waits for admission. -/
def State.leaveQueue (s : State) (crew : Nat) : State :=
  let cl := (s.crew crew).cluster
  let m := s.cluster cl
  if m.queue.contains crew then s.setCluster cl { m with queue := m.queue.filter (· != crew) } else s

/-- A crew leaves its core, or the admission queue, for the last time (R20, R261): its registers return to the pool, and a crew that
was ever admitted sends its record to its launch's trace stream. Its spill and eviction areas are its launch's again. A debugger's step in which it runs still ends with a report (R257). -/
def State.crewLeaves (s : State) (crew : Nat) : State :=
  let c := s.crew crew
  if c.gone then s
  else
    let x := s.launch c.launch
    let s := s.setLaunch c.launch { x with
      trace := if c.admitSeq.isSome then x.trace ++ [(s.crewRecord c).bytes] else x.trace, areas := c.area.toList ++ x.areas }
    let s := s.leaveQueue crew
    let s := s.setCrew crew { c with
      gone := true, core := none, map := List.replicate 64 none, meetings := [], rob := [], area := none }
    (s.settleCore c.lastCore).settleCore (c.chosen.getD c.lastCore)

/-- The local window that a thread holds is free again when it exits or is killed (R107). -/
def State.freeWindows (s : State) (lid : Nat) (ts : List Thread) : State :=
  let x := s.launch lid
  s.setLaunch lid { x with windows := x.windows.filter fun w => !(ts.any fun t => t.window == some w) }

/-- A crew all of whose lanes have exited leaves its core (R20). -/
def State.leaveIfDone (s : State) (crew : Nat) : State := if (s.crew crew).allExited then s.crewLeaves crew else s

/-- Threads of a crew become EXITED (R20, R27, R31, R233): their lanes are cleared, they depart from every meeting on their
stacks and leave every herd. -/
def State.endThreads (s : State) (crew : Nat) (m : Mask) : State :=
  let c := s.crew crew
  let ls := (lanesOf m).filter fun l => (c.thr l).isLive
  let ts := ls.map c.thr
  let c1 := ls.foldl (fun c l =>
    ((c.thr l).stack.foldl (fun c id => c.depart id (laneMask l)) c).clearLane l .unwritten) c
  let c2 := ls.foldl (fun c l => c.setThr l { c.thr l with state := .exited, stack := [], halted := false, trap := none }) c1
  let s := s.setCrew crew ((c2.dropLanes m).unwait.settleMeetings (s.cycleOf crew))
  ((s.leaveHerds c.launch ts).freeWindows c.launch ts).settleCore c.lastCore

/-- Threads end outside the retirement of an instruction, and their crew leaves its core when it was the last of them. -/
def State.exitLanes (s : State) (crew : Nat) (m : Mask) : State := (s.endThreads crew m).leaveIfDone crew

end Sys2Proof.Machine
end

