-- ==== Sys2Proof/Machine/Halt.lean ====
section
/-! DEFINITION. Herds and their connected sets (R28 to R30), and how a debugger halts what holds them (R255 to R259). -/

namespace Sys2Proof.Machine

/-! ### Herds -/

/-- A herd entry holds a thread index (R28). -/
def HerdEntry.has (h : HerdEntry) (t : Nat) : Bool :=
  h.base ≤ t && (if h.count = 1 then t - h.base < h.width
    else (t - h.base) / h.stride < h.count && (t - h.base) % h.stride < h.width)

/-- A set joins the sets that it meets. -/
def mergeInto (acc : List (List Nat)) (x : List Nat) : List (List Nat) :=
  (x ++ (acc.filter fun y => y.any x.contains).flatten).dedup :: acc.filter fun y => !y.any x.contains

/-- Sets that share members, directly or through a chain, become one (R30). -/
def mergeSets (xs : List (List Nat)) : List (List Nat) := xs.foldl mergeInto []

/-- The members of a herd among n threads (R28). -/
def HerdEntry.members (h : HerdEntry) (n : Nat) : List Nat := (List.range n).filter h.has

/-- The crews of a set of threads (R17). -/
def crewsOf (ts : List Nat) : List Nat := (ts.map (· / 32)).dedup

/-- The indices of the herds that hold a thread, lowest first (R29). -/
def Launch.herdsOf (x : Launch) (t : Nat) : List Nat :=
  (List.range x.herds.length).filter fun i => (x.herds.getD i {}).has t

/-- The connected sets of herds, as sets of threads (R30). -/
def Launch.herdSets (x : Launch) (n : Nat) : List (List Nat) := mergeSets (x.herds.map fun h => h.members n)

/-! ### Halt sets -/

/-- The crews of some launch that hold a thread of a connected set of herds. -/
def State.crewsHolding (s : State) (lid : Nat) (ts : List Nat) : List Nat :=
  (s.crews.filter fun e => e.2.launch == lid && !e.2.gone &&
    laneList.any fun l => (e.2.thr l).isLive && !(e.2.thr l).herdList.isEmpty && ts.contains (e.2.thr l).tid.toNat).map (·.1)

/-- The halt set of a herd (R256): the crews that hold a member of it or of a herd connected to it. -/
def State.herdCrews (s : State) (lid h : Nat) : List Nat :=
  let x := s.launch lid
  s.crewsHolding lid (((x.herdSets x.nthr).find? fun ts => ts.any (x.herds.getD h {}).has).getD [])

/-- The halt sets of a thread's herds; a thread that has none halts its own crew (R256, R258). -/
def State.threadCrews (s : State) (crew l : Nat) : List Nat :=
  let c := s.crew crew
  let hs := (c.thr l).herdList
  if hs.isEmpty then [crew] else (hs.flatMap fun h => s.herdCrews c.launch h).dedup

/-- The lines of a halt report (R259): each thread of the crews, those that have exited included. A lane that never held a thread, or
whose thread has left by REGROUP, has none. -/
def State.haltLines (s : State) (ks : List Nat) : List HaltLine :=
  ks.flatMap fun k =>
    let c := s.crew k
    laneList.filterMap fun l =>
      let t := c.thr l
      if t = {} then none else some ⟨s.nameOf c.launch t.tid, t.state, t.pc, (t.trap.map (·.cause)).getD 0⟩

/-- Crews stop issuing, and each thread of them is halted where it stands (R256). -/
def Crew.halt (c : Crew) : Crew :=
  let c := c.onThreads fun _ t => if t.isLive then { t with halted := true, passBar := false } else t
  { c with halted := true, stepping := none }

/-- The issued entries of every crew of a set have retired (R256). -/
def State.haveStopped (s : State) (ks : List Nat) : Bool := ks.all fun k => (s.crew k).rob.isEmpty

/-- Some crew that is not gone runs in a debugger's step. -/
def State.steps (s : State) (i : Nat) : Bool := s.crews.any fun e => e.2.stepping == some i && !e.2.gone

/-- The steps of threads in bins and in spill areas are renamed. -/
def State.onBrooded (s : State) (f : Option Nat → Option Nat) : State :=
  let g := fun (b : Brooded) => { b with stepping := f b.stepping }
  { s with
    clusters := s.clusters.map fun e => (e.1, { e.2 with
      bins := e.2.bins.map fun b => (b.1, { b.2 with threads := b.2.threads.map g }) })
    launches := s.launches.map fun e => (e.1, { e.2 with spill := e.2.spill.map fun y => { y with thr := g y.thr } }) }

/-- Those of the given steps in which no crew runs any more have ended, for crews that are gone and for threads in bins, too. -/
def State.dropSteps (s : State) (ids : List Nat) : State :=
  let ended := ids.filter fun i => !s.steps i
  let f := fun (x : Option Nat) => x.filter fun i => !ended.contains i
  let s : State := { s with crews := s.crews.map fun e => (e.1, { e.2 with stepping := f e.2.stepping }) }
  s.onBrooded f

/-- A set of crews halts (R256, R259), which ends a step of theirs (R257): the service posts the halt report when every crew of the set has
stopped. -/
def State.haltCrews (s : State) (ks : List Nat) : State :=
  let ids := ks.filterMap fun k => (s.crew k).stepping
  let s := (ks.foldl (fun s k => s.setCrew k (s.crew k).halt) s).dropSteps ids
  if s.haveStopped ks then s.post (.halt (s.haltLines ks)) else { s with halting := s.halting ++ [ks] }

/-- The reports of the sets that have stopped (R256). -/
def State.reportHalts (s : State) : State :=
  { s with
    posts := s.posts ++ (s.halting.filter s.haveStopped).map fun ks => .halt (s.haltLines ks)
    halting := s.halting.filter fun ks => !s.haveStopped ks }

/-- A thread at a stopping point of a step (R257): it has ended, is TRAPPED, or stands halted before a BAR. -/
def Thread.stopped (t : Thread) : Bool := !t.isLive || t.halted || t.state == .trapped

/-- Some thread in a brood bin or in a spill area holds a step open (R257). -/
def State.broodHolds (s : State) (i : Nat) : Bool :=
  (s.clusters.any fun e => e.2.bins.any fun b => b.2.threads.any fun x => x.stepping == some i) ||
  s.launches.any fun e => e.2.spill.any fun y => y.thr.stepping == some i

/-- Halts that have stopped are reported, and steps all of whose threads stand at a stopping point end in a halt report (R256 to R258). -/
def State.endSteps (s : State) : State :=
  let ids := (s.crews.filterMap fun e => e.2.stepping).dedup
  ids.foldl (fun s i =>
    let ks := (s.crews.filter fun e => e.2.stepping == some i).map (·.1)
    if !s.broodHolds i && ks.all fun k => laneList.all fun l => ((s.crew k).thr l).stopped then s.haltCrews ks else s) s.reportHalts

end Sys2Proof.Machine
end

