-- ==== Sys2Proof/Machine/Flags.lean ====
section
/-! DEFINITION. Condition codes: the flag computation of the integer entries (R264), of FCMP (R97, R306), the conditions of R47, and
the guard of an issue group. -/

namespace Sys2Proof.Machine

/-- The result and the flags of x + y + cin on n bits (R264). -/
def addFlags (x y cin n : Nat) : Nat × Flags :=
  let sum := x + y + cin
  let r := sum % 2 ^ n
  let v := signedNat x n + signedNat y n + cin
  (r, { n := r / 2 ^ (n - 1) % 2 == 1, z := r == 0, c := decide (2 ^ n ≤ sum),
        v := decide (v < -(2 ^ (n - 1) : Nat)) || decide ((2 ^ (n - 1) : Nat) ≤ v) })

/-- The n-bit complement of a number below 2^n. -/
def notBits (x n : Nat) : Nat := 2 ^ n - 1 - x % 2 ^ n

/-- Subtraction x - y with C standing for no borrow (R264). -/
def subFlags (x y cin n : Nat) : Nat × Flags := addFlags x (notBits y n) cin n

/-- The condition of R47. -/
def condHolds (k : BitVec 4) (f : Flags) : Bool :=
  match k.toNat with
  | 0 => true
  | 1 => f.z
  | 2 => !f.z
  | 3 => f.n != f.v
  | 4 => f.n == f.v
  | 5 => !f.z && f.n == f.v
  | 6 => f.z || f.n != f.v
  | 7 => !f.c
  | 8 => f.c
  | 9 => f.c && !f.z
  | 10 => !f.c || f.z
  | 11 => f.n
  | 12 => !f.n
  | 13 => f.v
  | 14 => !f.v
  | _ => false

/-- Condition-code register n of a thread (R44). -/
def Thread.flags (t : Thread) (n : Cc) : Flags := t.cc.getD n.toNat {}

/-- Write all four flags of one condition-code register (R45). -/
def Thread.setFlags (t : Thread) (n : Cc) (f : Flags) : Thread := { t with cc := setAt 4 {} t.cc n.toNat f }

/-- Whether a guard is true in a thread (R47): bits 5:4 name the register, bits 3:0 the condition. -/
def guardTrue (g : BitVec 6) (t : Thread) : Bool := condHolds (g.extractLsb' 0 4) (t.flags (g.extractLsb' 4 2))

/-- The lanes of an issue group whose guard is true (R47, R263): the set G. -/
def Crew.guarded (c : Crew) (i : Issue) : Mask := maskOf fun l => i.mask.getLsbD l && guardTrue i.guard (c.thr l)

/-- Flags as four bits, N Z C V from high to low (R234). -/
def flagBits (f : Flags) : Nat := f.n.toNat * 8 + f.z.toNat * 4 + f.c.toNat * 2 + f.v.toNat

/-- Flags from four bits (R235). -/
def flagsOf (x : Nat) : Flags := { n := x / 8 % 2 == 1, z := x / 4 % 2 == 1, c := x / 2 % 2 == 1, v := x % 2 == 1 }

end Sys2Proof.Machine
end

