-- ==== Sys2Proof/Machine/Order.lean ====
section
/-! DEFINITION. What program order and the reorder buffer ask of each instruction (R9, R19, R59 to R63): the pipe it takes, when it executes,
what it holds back, and the registers and flags as an unretired entry sees them. -/

namespace Sys2Proof.Machine

/-! ### Pipes and kinds -/

/-- The kinds of pipe of a core (R9): vector, memory, transcendental and cross-lane, and the engine-command port (log 59). -/
def pipeOf : Instr → Nat
  | .ld .. | .ldWide .. | .st .. | .stWide .. | .lda .. | .strel .. | .ldnc .. | .stnc .. | .atom .. => 1
  | .frcp .. | .frsq .. | .fsqrt .. | .fexp2 .. | .flog2 .. | .shfl .. | .vote .. | .scan .. | .topk .. => 2
  | .copy .. | .copys .. | .fetch .. | .launch .. | .mma .. | .mdrain .. | .mzero .. | .bput .. | .btake .. | .bdrain ..
  | .bscan .. | .bcount .. | .binfo .. | .nmload .. | .nmarm .. | .nmrun .. | .nmdisarm .. | .scall .. => 3
  | _ => 0

/-- How many instructions of a kind issue on a core in one cycle (R9, R225). -/
def pipeWidth (k : Nat) : Nat := [4, 2, 1, 1].getD k 4

/-- A branch of R62: its thread issues nothing more until it has executed. -/
def isBranch : Instr → Bool
  | .br _ | .call _ | .jmp _ | .ret _ => true
  | _ => false

/-- After these a thread issues nothing more until the instruction has executed: its next address or its state is not known before
(R62, R24, R31, R32, R38, R150, R236, R307, R318, R366), or the rule says so (R363). -/
def blocks : Instr → Bool
  | .br _ | .call _ | .jmp _ | .ret _ | .mjoin _ | .exit | .bar _ | .bara _ | .yield | .regroup .. | .fwany .. | .fwall _ | .fenceCore
  | .fenceDev | .fenceSys | .trap _ | .tret | .bkpt _ | .swrite .. => true
  | _ => false

/-- Instructions that execute at the head of the reorder buffer alone (R61), whatever they access. -/
def headOnly (i : Instr) : Bool :=
  pipeOf i == 3 ||
  match i with
  | .atom .. | .ldnc .. | .stnc .. | .ctset .. | .ctadd .. | .spawn .. | .regroup .. | .trap _ | .tret | .bkpt _ => true
  | _ => false

/-- Instructions that execute as soon as the lanes that they read are ready (R59, R304, R314): those that read and write registers and flags
alone, branches, and the ones that look at a future. All others execute as the oldest entry of their crew, which R59 allows (log 1). -/
def executesEarly : Instr → Bool
  | .br _ | .call _ | .jmp _ | .ret _ | .fwait .. | .ftest .. | .fcancel _ | .ffirst .. => true
  | .mpush _ | .mjoin _ | .mdrop _ | .exit | .bar _ | .bara _ | .yield | .spawn .. | .regroup .. | .fenceCore | .fenceDev | .fenceSys
  | .fwany .. | .fwall _ | .ctset .. | .ctadd .. | .trap _ | .tret | .bkpt _ | .sread .. | .swrite .. => false
  | i => i.encodable && (pipeOf i == 0 || pipeOf i == 2)

/-- FWANY and FWALL, whose lanes wait without having issued (R19, R310, R311). -/
def waitsForSlots : Instr → Bool
  | .fwany .. | .fwall _ => true
  | _ => false

/-- The instructions that look at a future when they issue (R304, R314). -/
def looks : Instr → Bool
  | .ftest .. | .fcancel _ => true
  | _ => false

/-- FCANCEL acts on commands when it executes (R304). -/
def cancels : Instr → Bool
  | .fcancel _ => true
  | _ => false

/-- The condition-code register that an instruction writes, if any (R44, R45). -/
def ccWritten : Instr → Option Cc
  | .add _ _ _ f n | .addc _ _ _ f n | .sub _ _ _ f n | .subb _ _ _ f n | .add64 _ _ _ f n | .bput _ _ _ f n | .btake _ _ _ f n =>
    if f then some n else none
  | .cmp n .. | .cmpI n .. | .cmp64 n .. | .fcmp n .. => some n
  | _ => none

/-- The condition-code register that an instruction reads besides its guard's (R264, R353). -/
def ccRead : Instr → Option Cc
  | .addc _ _ _ _ n | .subb _ _ _ _ n | .sel _ _ _ n _ => some n
  | _ => none

/-- The condition-code registers that an issued instruction reads (R47). -/
def Issue.ccs (i : Issue) : List Cc :=
  (ccRead i.instr).toList ++ (if i.guard.extractLsb' 0 4 = 0 ∨ i.guard.extractLsb' 0 4 = 15 then [] else [i.guard.extractLsb' 4 2])

/-! ### What an unretired entry sees -/

/-- Registers that an entry's results have still to draw (R49, R56): one for each destination but w0, when a lane has a result. -/
def RobEntry.lacks (e : RobEntry) : Nat :=
  match e.res with
  | none => 0
  | some r => if r.eff.any fun x => !x.w.isEmpty then e.dst.countP (· != 0) - e.banks.length else 0

/-- The entry has executed and its results are written (R49). -/
def RobEntry.written (e : RobEntry) : Bool := e.res.isSome && e.lacks == 0

/-- The lanes in which an executed entry has neither a false guard nor a trap. -/
def RobEntry.sound (e : RobEntry) (r : Result) : Mask :=
  maskOf fun l => (e.issue.mask &&& r.go).getLsbD l && (r.eff.getD l {}).trap.isNone

/-- Registers, flags and releases of an executed entry, as a younger entry sees them (R49, R51). -/
def Crew.withResult (c : Crew) (e : RobEntry) (r : Result) : Crew :=
  let m := e.sound r
  let eff := fun l => r.eff.getD l {}
  let c := e.dst.zipIdx.foldl (fun c d =>
    c.write d.1 (maskOf fun l => m.getLsbD l && decide (d.2 < (eff l).w.length)) (fun l => (eff l).w.getD d.2 {}) 0 0) c
  let c := c.onMask m fun l t => match (eff l).cc with
    | none => t
    | some (n, f) => t.setFlags n f
  c.endReads [] e.ends 0 m false 0

/-- The crew as the entry at place k of its reorder buffer sees it: the committed registers and flags under the results of the older entries
that have executed, which is what its renamed sources name (R49, R59). -/
def Crew.seen (c : Crew) (k : Nat) : Crew :=
  (c.rob.take k).foldl (fun d e => match e.res with
    | some r => d.withResult e r
    | none => d) c

/-- No older entry that shares a lane of the mask has still to write, or to release, a register or a flag of those given (R49, R59). -/
def Crew.ready (c : Crew) (k : Nat) (m : Mask) (srcs : List Nat) (ccs : List Cc) : Bool :=
  (c.rob.take k).all fun e =>
    e.issue.mask &&& m == 0 || e.written ||
    !((e.dst ++ e.ends).any fun r => r != 0 && srcs.contains r) && !((ccWritten e.issue.instr).any ccs.contains)

/-- The lanes of a mask lose their entries from place k on: they have left READY, and issue that again later. -/
def Crew.dropFrom (c : Crew) (k : Nat) (m : Mask) : Crew :=
  { c with rob := c.rob.take k ++ ((c.rob.drop k).map fun e =>
      { e with issue := { e.issue with mask := e.issue.mask &&& ~~~m } }).filter fun e => e.issue.mask != 0 }

/-- Change the entry at a place of the reorder buffer. -/
def Crew.onEntry (c : Crew) (k : Nat) (f : RobEntry → RobEntry) : Crew := { c with rob := c.rob.modify k f }

end Sys2Proof.Machine
end

