-- ==== Sys2Proof/Machine/Ops.lean ====
section
/-! DEFINITION. The shared operations of instructions: how an issue group issues, executes and retires an instruction (R47 to R52,
R59 to R64), how a lane takes a trap (R63, R230) and how TRET returns from one (R235). -/

namespace Sys2Proof.Machine

/-! ### Program order -/

/-- The instruction that follows in program order (R65, R67, R68). -/
def seqPc (pc : Dword) (wide : Bool) : Dword :=
  let off := pc.toNat % 16
  if wide then (if off = 4 then pc + 8 else pc + 12) else (if off = 12 then pc + 8 else pc + 4)

/-! ### Taking a trap -/

/-- One lane takes a trap (R63, R229, R230): its thread is TRAPPED with the cause word, TRAPPC, the next instruction in program
order and TRAPVA recorded, its registers stay, and a trap record goes to the resident service. -/
def State.takeTrap (s : State) (crew l : Nat) (cause : Word) (va pc next : Dword) : State :=
  let c := s.crew crew
  let t := c.thr l
  let info : TrapInfo := ⟨cause, pc, next, va⟩
  let r : TrapRec :=
    { name := s.nameOf c.launch t.tid, launch := c.launch, tid := t.tid, crew := crew, num := c.num, core := c.lastCore, lane := l, info := info
      dtime := s.dtime, vi := (s.launch c.launch).vi, asid := (s.launch c.launch).asid }
  { s.setCrew crew (c.setThr l { t with state := .trapped, trap := some info }) with traps := s.traps ++ [r] }

/-- The lanes of a mask take traps, in ascending lane order. -/
def State.takeTraps (s : State) (crew : Nat) (pc next : Dword) (why : Nat → Option (Word × Dword)) : List Nat → State
  | [] => s
  | l :: ls =>
    match why l with
    | none => s.takeTraps crew pc next why ls
    | some (cause, va) => (s.takeTrap crew l cause va pc next).takeTraps crew pc next why ls

/-- The fields +0 to +23 of R230: launch, TID, CREW, core, lane and cause word. -/
def recordHead (launch : Nat) (tid num : Word) (core lane : Nat) (cause : Word) : List Byte :=
  leBytes 8 launch ++ leBytes 4 tid.toNat ++ leBytes 4 num.toNat ++ leBytes 2 core ++ leBytes 1 lane ++ leBytes 1 0 ++ leBytes 4 cause.toNat

/-- The 64 bytes of a trap record (R230). -/
def TrapRec.bytes (r : TrapRec) : List Byte :=
  recordHead r.launch r.tid r.num r.core r.lane r.info.cause ++ leBytes 8 r.info.pc.toNat ++ leBytes 8 r.info.va.toNat ++ leBytes 8 r.dtime ++ leBytes 2 r.vi ++
  leBytes 2 r.asid ++ leBytes 12 0

/-- The 64 bytes of the user trap frame (R234). -/
def trapFrame (c : Crew) (l : Nat) (i : TrapInfo) : List Byte :=
  let t := c.thr l
  let code := i.cause.toNat % 256
  let resume := if code = 0x0c ∨ code = 0x0d then i.next else i.pc
  let ccs := (List.range 4).foldl (fun x n => x + flagBits (t.cc.getD n {}) * 16 ^ n) 0
  leBytes 8 resume.toNat ++ leBytes 8 i.next.toNat ++ leBytes 8 i.va.toNat ++ leBytes 4 i.cause.toNat ++ leBytes 4 ccs ++
  leBytes 8 (c.rd2 60 l).toNat ++ leBytes 8 (c.rd2 62 l).toNat ++
  leBytes 4 t.fcw.toNat ++ leBytes 4 t.fstat.toNat ++ leBytes 4 t.tstat.toNat ++ leBytes 4 0

/-- A number from bytes at an offset of a record. -/
def field (bs : List Byte) (off n : Nat) : Nat := leNat ((bs.drop off).take n)

/-- The thread that TRET restores from a frame (R235), all but its program counter and registers. -/
def restoreThread (t : Thread) (f : List Byte) : Thread :=
  let ccs := field f 28 4
  { t with
    cc := (List.range 4).map fun n => flagsOf (ccs / 16 ^ n % 16)
    fcw := BitVec.ofNat 32 (field f 48 4 % 32)
    fstat := BitVec.ofNat 32 (field f 52 4 % 32)
    tstat := BitVec.ofNat 32 (field f 56 4 % 2) }

/-- The registers w60 to w63 that TRET restores (R235). -/
def restoreRegs (f : List Byte) : List Lane :=
  [32, 36, 40, 44].map fun o => live (BitVec.ofNat 32 (field f o 4))

/-! ### Operands and effects of one instruction -/

/-- The registers of an instruction: by last-use position sa, sb and sc (R70), those it reads without a position, and its
destinations, lowest first. lanes lists, lane by lane, the record registers of BPUT, whose number is the bag's and which stand in
position sc. only names the one lane that an instruction reads its sources in, when it ignores the others (R161). peek is set for the instructions that read a future without waiting for it (R148, R150), and visible for those whose
effect another party can see (R227). -/
structure Operands where
  a : List Nat := []
  b : List Nat := []
  c : List Nat := []
  more : List Nat := []
  lanes : List (List Nat) := []
  only : Option Nat := none
  dst : List Nat := []
  peek : Bool := false
  visible : Bool := false
  deriving DecidableEq, Repr

/-- Every register that the instruction reads in every lane. -/
def Operands.srcs (o : Operands) : List Nat := o.a ++ o.b ++ o.c ++ o.more

/-- Whether the instruction reads its sources in a lane. -/
def Operands.readsIn (o : Operands) (l : Nat) : Bool :=
  match o.only with
  | none => true
  | some k => k == l

/-- Every register that the instruction reads for a lane. -/
def Operands.srcsAt (o : Operands) (l : Nat) : List Nat := o.srcs ++ o.lanes.getD l []

/-- The lane in which the sources for a lane are read: its own, or the one lane of only, whose wait or trap is then that of every lane (log 23). -/
def Operands.laneOf (o : Operands) (l : Nat) : Nat := o.only.getD l

/-- The lanes of a mask in which the sources are read. -/
def Operands.readMask (o : Operands) (m : Mask) : Mask :=
  match o.only with
  | none => m
  | some k => m &&& laneMask k

/-- The registers that the last-use marks release (R51): a mark on w0, and on a register that the instruction writes, is
ignored. -/
def Operands.released (o : Operands) (lu : BitVec 3) : List Nat :=
  ((if lu.getLsbD 0 then o.a else []) ++ (if lu.getLsbD 1 then o.b else []) ++ (if lu.getLsbD 2 then o.c else [])).filter
    fun r => r != 0 && !o.dst.contains r

/-- The record registers that a mark in position sc releases in a lane (R183). -/
def Operands.releasedAt (o : Operands) (lu : BitVec 3) (l : Nat) : List Nat :=
  if lu.getLsbD 2 then (o.lanes.getD l []).filter fun r => r != 0 else []

/-- The destinations that allocate a register (R49). -/
def Operands.allocs (o : Operands) : Nat := o.dst.countP fun r => r != 0

/-- How an execution ends: the instruction waits, for a reason of R260, or 16 for one that no counter names; the lanes of a mask have been put into another state of R19, or
wait at their fence, without retiring; or the instruction has executed, with its effect in each lane. -/
inductive Body where
  | wait (why : Nat)
  | hold (s : State) (m : Mask)
  | done (s : State) (eff : List Eff)

/-- One effect per lane. -/
def perLane (f : Nat → Eff) : List Eff := laneList.map f

/-- A lane that takes a trap. -/
def trapped (cause : Word) (va : Dword) : Eff := { trap := some (cause, va) }

/-! ### Waiting -/

/-- Advance a stall counter, which stops at 0xffffffff (R260). -/
def Crew.countStall (c : Crew) (why : Nat) : Crew :=
  { c with stalls := setAt 16 0 c.stalls why (min (c.stalls.getD why 0 + 1) 0xffffffff) }

/-- The entry of a crew's reorder buffer for the instruction that issues (R59). -/
def Issue.entryOf (i : Issue) (o : Operands) (why : Option Nat) (cycle : Nat) : RobEntry :=
  { issue := i, srcs := o.srcs ++ o.lanes.flatten, dst := o.dst, ends := o.released i.lu, why := why, since := cycle }

/-- The cycle of a crew is accounted for: it has issued, or lost its port to a bank clash (R260). An issue of class 3 counts against the
port's share (R225). -/
def State.account (s : State) (core crew : Nat) (pays : Bool) : State :=
  let k := s.core core
  s.setCore core { k with
    counted := crew :: k.counted
    portUse := if pays then setAt 4 0 k.portUse (k.port - 1) (k.portUse.getD (k.port - 1) 0 + 1) else k.portUse }

/-- The banks that hold the sources of an instruction (R225). -/
def Operands.banks (o : Operands) (c : Crew) : List Nat := (o.srcs ++ o.lanes.flatten).filterMap fun r => (c.reg r).bind (·.bank)

/-- The banks that an issued instruction reads stay taken for the cycle (R225). -/
def State.takeBanks (s : State) (core : Nat) (bs : List Nat) : State :=
  let k := s.core core
  s.setCore core { k with clash := bs ++ k.clash }

/-- The instruction becomes the youngest unretired entry of its crew (R59): its threads enter READY behind it, and it has used its port and the
banks of its sources (R225). -/
def State.enrob (s : State) (o : Operands) (why : Option Nat) : State :=
  let i := s.cur
  let c := s.crew i.crew
  let cycle := s.cycleOf i.crew
  let core := c.core.getD c.lastCore
  let d := c.onMask i.mask fun _ t => { t with readySince := cycle }
  ((s.takeBanks core (o.banks c)).setCrew i.crew
    { d with rob := d.rob ++ [i.entryOf o why cycle], issued := d.issued + 1 }).account core i.crew i.pays

/-- An entry waits for a reason of R260, since now unless it has waited for that reason before. -/
def RobEntry.waits (e : RobEntry) (why cycle : Nat) : RobEntry :=
  { e with why := some why, since := if e.why = some why then e.since else cycle }

/-- The oldest entry of a crew waits for a reason of R260. -/
def Crew.headWaits (c : Crew) (why cycle : Nat) : Crew :=
  match c.rob with
  | [] => c
  | e :: es => { c with rob := e.waits why cycle :: es }

/-- The instruction waits at the head of its crew's reorder buffer (R59, R61): one that has just issued becomes its entry. -/
def State.stall (s : State) (o : Operands) (why : Nat) : State :=
  if s.cur.entry then s.setCrew s.cur.crew ((s.crew s.cur.crew).headWaits why (s.cycleOf s.cur.crew)) else s.enrob o (some why)

/-- The registers that the oldest entry of a crew has drawn for its results, when it is the one that executes. -/
def State.drawn (s : State) : List Nat :=
  if s.cur.entry then match (s.crew s.cur.crew).rob with
    | [] => []
    | e :: _ => e.banks
  else []

/-- An entry draws registers for its results, at most n, each as its crew may (R56). -/
def State.drawUp (s : State) (crew k : Nat) : Nat → State
  | 0 => s
  | n + 1 =>
    if s.mayAllocate crew 1 then
      let c := s.crew crew
      (s.setCrew crew (c.onEntry k fun e => { e with banks := e.banks ++ [s.pickBank (c.core.getD 0)] })).drawUp crew k n
    else s

/-- The oldest entry of a crew draws what it can of the registers that it needs (R56): it waits to allocate the others. -/
def State.drawHead (s : State) (o : Operands) : State :=
  let i := s.cur
  let t := s.drawUp i.crew 0 (o.allocs - ((s.crew i.crew).rob.headD {}).banks.length)
  t.notePool (t.crew i.crew).lastCore

/-- An executed entry draws registers for its results, and waits for those that it cannot draw yet (R49, R56). -/
def State.drawFor (s : State) (crew k : Nat) : State :=
  let t := s.drawUp crew k (((s.crew crew).rob.getD k {}).lacks)
  let c := t.crew crew
  (t.setCrew crew (c.onEntry k fun e => if e.lacks = 0 then { e with why := none } else e.waits 0 (t.cycleOf crew))).notePool c.lastCore

/-- The slots that the lane waits for among its sources. -/
def Crew.pendingSlots (c : Crew) (rs : List Nat) (l : Nat) : List Nat :=
  rs.filterMap fun r => if (c.lane r l).pend then (c.lane r l).slot else none

/-- A mask of slots. -/
def slotMask (ks : List Nat) : Dword := ks.foldl (fun m k => m ||| BitVec.ofNat 64 (2 ^ k)) 0

/-- Threads enter FUTURE until the slots they wait for are ready (R19, R148, R150). -/
def Crew.await (c : Crew) (m : Mask) (all : Bool) (slots : Nat → Dword) : Crew :=
  c.onMask m fun l t => { t with state := .future, waitMask := slots l, waitAll := all }

/-- Whether the slots that a thread in FUTURE waits for are ready (R150). -/
def Core.satisfies (c : Core) (m : Dword) (all : Bool) : Bool :=
  let ks := (List.range 64).filter fun k => m.getLsbD k
  if all then ks.all fun k => (c.slot k).ready else ks.any fun k => (c.slot k).ready

/-- A spilled register as its slot holds it (R58): the values of its live lanes, and the poison of the sectors of lanes 0 to 15 and 16 to 31. -/
def State.readSlot (s : State) (cell : Nat) (p : PReg) : PReg :=
  { p.onLanes (fun l x => if x.st = .live then { x with val := wordOf (Memory.readN s.mem (cell + 4 * l) 4) } else x) with
    spilled := false, poisonLo := s.sectorBad cell, poisonHi := s.sectorBad (cell + 64) }

/-- A spilled register is read back into a register allocated under R56 (R58). -/
def State.refill (s : State) (crew r : Nat) : Option State :=
  let c := s.crew crew
  match c.reg r with
  | none => none
  | some p =>
    if p.spilled && c.core.isSome && s.mayAllocate crew 1 then
      let bank := s.pickBank (c.core.getD 0)
      let cycle := s.cycleOf crew
      some ((s.setCrew crew (c.onRegs fun k q =>
        if k = r then some { s.readSlot (c.slotCell r) p with bank := some bank, touched := cycle } else q)).notePool (c.core.getD 0))
    else none

/-! ### Issue, execution and retirement -/

/-- What a read of the sources does to a lane before the instruction executes: POISON from a poisoned half (R123), RELEASED_READ
under the launch's debug option (R52). -/
def Crew.readTrap (c : Crew) (dbgrl : Bool) (srcs : List Nat) (l : Nat) : Option (Word × Dword) :=
  if srcs.any fun r => (match c.reg r with
    | some p => p.bad l
    | none => false) then some (causePoison, 0)
  else if dbgrl && srcs.any fun r => (c.lane r l).st == .released then some (causeReleased, 0)
  else none

/-- A lane reads a released register (R52). -/
def Crew.readsReleased (c : Crew) (srcs : List Nat) (l : Nat) : Bool := srcs.any fun r => (c.lane r l).st == .released

/-- The thread of a retiring lane (R60): flags, FSTAT and TSTAT, and the next program counter. fresh says that the thread has issued nothing
behind the instruction, so that it enters READY now, and what it waited for is over. -/
def retireThread (t : Thread) (e : Eff) (rlsd fresh : Bool) (next : Dword) (cycle : Nat) : Thread :=
  let t := e.thr.getD t
  let t := match e.cc with
    | none => t
    | some (n, f) => t.setFlags n f
  let t := { t with
    fstat := t.fstat ||| BitVec.ofNat 32 e.fl
    tstat := if rlsd then t.tstat ||| 1 else t.tstat
    pc := match e.pc with
      | .seq => next
      | .to a => a
      | .kept => t.pc }
  if fresh then { t with readySince := cycle, fence := none, got := none, waitG := 0, passBar := false } else t

/-- The unretired entries of a crew are squashed (R57, R63): its threads resume from their own program counters, so that one that waited for a
future behind its entries is READY again. -/
def Crew.squash (c : Crew) (cycle : Nat) : Crew :=
  let m := c.rob.foldl (fun m e => m ||| e.issue.mask) 0
  { c.onMask m fun _ t => if t.state = .future then t.wake cycle else t with rob := [] }

/-- Retirement of the lanes of an executed instruction, and the traps of the others, which squash the crew's reorder buffer (R60, R63). g is the set of lanes whose guard
is true, before the lanes that trap are taken out; fresh as retireThread has it. -/
def State.commit (s : State) (o : Operands) (g : Mask) (eff : Nat → Eff) (rlsd : Mask) (fresh : Bool) : State :=
  let i := s.cur
  let next := seqPc i.pc i.wide
  let cycle := s.cycleOf i.crew
  let bad := maskOf fun l => g.getLsbD l && (eff l).trap.isSome
  let w := fun j => maskOf fun l => g.getLsbD l && (eff l).trap.isNone && decide (j < (eff l).w.length)
  let bs := s.drawn
  let c := s.crew i.crew
  let s := s.setCrew i.crew { c with rob := if i.entry then c.rob.tail else c.rob }
  let s := s.writeRegs i.crew w (fun j l => (eff l).w.getD j {}) o.dst 0 bs
  let c := s.crew i.crew
  let c := c.onMask (i.mask &&& ~~~bad) fun l t =>
    retireThread t (if g.getLsbD l then eff l else {}) (rlsd.getLsbD l) fresh next cycle
  let c := c.onMask bad fun l t =>
    if (eff l).trap = some (causeReleased, 0) ∧ rlsd.getLsbD l = true then { t with tstat := t.tstat ||| 1 } else t
  let c := c.endReads o.srcs (o.released i.lu) (o.readMask (g &&& ~~~bad)) (g &&& ~~~bad) o.peek cycle
  let c := if o.lanes.isEmpty then c else (lanesOf (g &&& ~~~bad)).foldl (fun c l =>
    c.endReads (o.lanes.getD l []) (o.releasedAt i.lu l) (laneMask l) (laneMask l) o.peek cycle) c
  let c := { c with
    issued := if i.entry then c.issued else c.issued + 1
    retired := if i.mask &&& ~~~bad = 0 then c.retired else c.retired + 1
    visible := c.visible || (o.visible && g &&& ~~~bad != 0) }
  let c := if bad = 0 then c else c.squash cycle
  let s := s.setCrew i.crew c
  let s := s.takeTraps i.crew i.pc next (fun l => if g.getLsbD l then (eff l).trap else none) laneList
  let s := if i.entry then s else s.account c.lastCore i.crew i.pays
  (s.settleCore c.lastCore).leaveIfDone i.crew

/-- Whether the instruction of State.cur leaves its threads READY for what they issue next: it has just issued, or nothing could issue behind it
before it had executed. -/
def Issue.fresh (i : Issue) : Bool := !i.entry || blocks i.instr

/-- The lanes of an instruction that read a pending future (R148), among those of a mask, as its crew c stands. -/
def Crew.pendingIn (c : Crew) (o : Operands) (m : Mask) : Mask :=
  if o.peek then 0 else maskOf fun l => m.getLsbD l && (o.srcsAt l).any fun r => (c.lane r (o.laneOf l)).pend

/-- The lanes that read a pending future enter FUTURE (R19, R148). -/
def Crew.awaitAll (c : Crew) (d : Crew) (o : Operands) (p : Mask) : Crew :=
  c.await p true fun l => slotMask (d.pendingSlots (o.srcsAt l) (o.laneOf l))

/-- The first register that an instruction names and that lies in a spill slot (R58). -/
def Crew.spilledOne (c : Crew) (rs : List Nat) : Option Nat := rs.find? fun r => match c.reg r with
  | some q => q.spilled
  | none => false

/-- The effects of an instruction in its lanes: the trap of its reads, or what it has executed. -/
def effOf (pre : Nat → Option (Word × Dword)) (es : List Eff) (l : Nat) : Eff :=
  match pre l with
  | some t => trapped t.1 t.2
  | none => es.getD l {}

/-- The entry at place k of its crew's reorder buffer executes before it is the oldest (R59): it reads the registers and flags that its renamed
sources name, and keeps its effects until it retires; one that has executed draws what it still needs. FCANCEL acts on the commands now (R304). -/
def State.executeAt (s : State) (o : Operands) (body : State → Mask → Body) (k : Nat) : State :=
  let i := s.cur
  let c := s.crew i.crew
  let e := c.rob.getD k {}
  let v := c.seen k
  let g := v.guarded e.issue
  let p := v.pendingIn o g
  let cycle := s.cycleOf i.crew
  if e.res.isSome then s.drawFor i.crew k
  else if p != 0 then s.setCrew i.crew ((c.awaitAll v o p).dropFrom k p)
  else
    match if g = 0 then none else v.spilledOne (o.srcs ++ o.lanes.flatten ++ o.dst) with
    | some r =>
      let t := (s.refill i.crew r).getD s
      t.setCrew i.crew ((t.crew i.crew).onEntry k (·.waits 14 cycle))
    | none =>
      let pre := fun l => v.readTrap (s.launch c.launch |>.control.getLsbD 7) (o.srcsAt l) (o.laneOf l)
      let g1 := maskOf fun l => g.getLsbD l && (pre l).isNone
      let dead := maskOf fun l => g.getLsbD l && o.readsIn l && v.readsReleased (o.srcsAt l) l
      let same := maskOf fun l => g1.getLsbD l && (o.srcsAt l).all fun r => v.lane r l == c.lane r l
      let x := cancels i.instr
      match if g1 = 0 then Body.done s [] else body (if x then s else s.setCrew i.crew v) (if x then same else g1) with
      | .done s' es =>
        let t := if x then s' else s
        let r : Result := { go := g, dead := dead, eff := perLane (effOf pre es) }
        let d := (t.crew i.crew).onEntry k fun e => { e with res := some r, why := none }
        let d := if isBranch i.instr then d.onMask i.mask fun _ t => { t with readySince := cycle } else d
        (t.setCrew i.crew d).drawFor i.crew k
      | _ => s

/-- An instruction issues behind unretired entries of its crew (R19, R59, R148): lanes whose sources are at hand and hold a pending future enter
FUTURE, and it does not issue; lanes of FWANY and FWALL wait before it issues; otherwise it becomes the youngest entry, and executes at once when
the lanes that it reads are ready. -/
def State.issueBehind (s : State) (o : Operands) (body : State → Mask → Body) : State :=
  let i := s.cur
  let c := s.crew i.crew
  let k := c.rob.length
  let v := c.seen k
  let open' := maskOf fun l => i.mask.getLsbD l && c.ready k (laneMask l) (o.srcsAt l) i.ccs
  let p := v.pendingIn o (v.guarded i &&& open')
  if p != 0 then s.setCrew i.crew (c.awaitAll v o p)
  else
    let ready := c.ready k i.mask (o.srcs ++ o.lanes.flatten) i.ccs
    match if waitsForSlots i.instr && ready && v.guarded i != 0 then body (s.setCrew i.crew v) (v.guarded i) else .wait 0 with
    | .hold s' _ => s.setCrew i.crew (c.onMask i.mask fun l t =>
        let u := (s'.crew i.crew).thr l
        { t with state := u.state, waitMask := u.waitMask, waitAll := u.waitAll, got := u.got, waitG := u.waitG })
    | _ =>
      let t := s.enrob o none
      if executesEarly i.instr && ready then t.executeAt o body k else t

/-- The oldest entry of its crew, which has executed before, retires once its results are written (R60). -/
def State.retireResult (s : State) (o : Operands) (r : Result) : State :=
  let t := s.drawFor s.cur.crew 0
  if ((t.crew s.cur.crew).rob.headD {}).lacks = 0 then
    t.commit o (r.go &&& t.cur.mask) (fun l => r.eff.getD l {}) r.dead false
  else t

/-- The result of the oldest entry, when State.cur is that entry. -/
def State.headResult (s : State) : Option Result :=
  if s.cur.entry then ((s.crew s.cur.crew).rob.headD {}).res else none

/-- The instruction executes as the oldest of its crew, and retires if it can: lanes with a pending source enter FUTURE, a spilled register is
read back, a result that cannot allocate waits; otherwise the body executes in the lanes whose guard is true and whose operands can be read. -/
def State.executeHead (s : State) (o : Operands) (body : State → Mask → Body) : State :=
  let i := s.cur
  let c := s.crew i.crew
  let g := c.guarded i
  let p := c.pendingIn o g
  let core := c.core.getD c.lastCore
  if p != 0 then s.setCrew i.crew ((c.awaitAll c o p).dropLanes p)
  else
    match if g = 0 then none else c.spilledOne (o.srcs ++ o.lanes.flatten ++ o.dst) with
    | some r => ((s.refill i.crew r).getD s).stall o 14
    | none =>
      let pre := fun l => c.readTrap (s.launch c.launch |>.control.getLsbD 7) (o.srcsAt l) (o.laneOf l)
      let g1 := maskOf fun l => g.getLsbD l && (pre l).isNone
      let rlsd := maskOf fun l => g.getLsbD l && o.readsIn l && c.readsReleased (o.srcsAt l) l
      match if g1 = 0 then Body.done s [] else body s g1 with
      | .wait why => s.stall o why
      | .hold s' m => s'.setCrew i.crew ((s'.crew i.crew).dropLanes m)
      | .done s' es =>
        let eff := effOf pre es
        let writes := maskOf fun l => g1.getLsbD l && (eff l).trap.isNone && !(eff l).w.isEmpty
        if writes != 0 && !s'.mayAllocate i.crew (o.allocs - s.drawn.length) then (s.stall o 0).drawHead o
        else (if i.entry then s' else s'.takeBanks core (o.banks c)).commit o g eff rlsd i.fresh

/-- The instruction of State.cur issues, or executes as an entry of its crew (R59 to R61). When it issues, it loses its port when a
group that issued in the same cycle reads from a bank that it needs (R225); behind unretired entries it becomes the youngest of them; with none
before it, it executes. -/
def State.issue (s : State) (o : Operands) (body : State → Mask → Body) : State :=
  let i := s.cur
  let c := s.crew i.crew
  let core := c.core.getD c.lastCore
  match i.early with
  | some k => s.executeAt o body k
  | none =>
    if !i.entry && (o.banks c).any (s.core core).clash.contains then (s.setCrew i.crew (c.countStall 10)).account core i.crew false
    else if !i.entry && !c.rob.isEmpty then s.issueBehind o body
    else
      match s.headResult with
      | some r => s.retireResult o r
      | none => s.executeHead o body

/-- An instruction that only computes: its effect in a lane depends on the crew's registers and the lane's thread. -/
def State.alu (s : State) (o : Operands) (f : Crew → Nat → Eff) : State :=
  s.issue o fun s _ => .done s (perLane (f (s.crew s.cur.crew)))

end Sys2Proof.Machine
end

