-- ==== Sys2Proof/Machine/Fetch.lean ====
section
/-! DEFINITION. Fetching an instruction (R65, R77, R371), and choosing the issue group that issues and the entry that executes (R18, R56, R59,
R225). -/

namespace Sys2Proof.Machine

/-- The slot of an instruction address: 0, 1 or 2 for A, B or C (R65). -/
def slotIdx (pc : Dword) : Nat := pc.toNat % 16 / 4 - 1

/-- Bits 3:0 of an address name a slot (R77). -/
def namesSlot (pc : Dword) : Bool := pc.toNat % 16 == 4 || pc.toNat % 16 == 8 || pc.toNat % 16 == 12

/-- The address of the packet that holds an instruction (R65). -/
def packetAddr (pc : Dword) : Dword := pc &&& ~~~15

/-- The packet at an instruction address, or the cause word and TRAPVA (R77, R318, R371): form, range, presence, permission, and
the mark of an extension slot, in that order. The rules name no cause for a fetch from a poisoned sector: DESIGN CHOICE, its bytes are used and the
mark is ignored (log 72). -/
def State.target (s : State) (core asid : Nat) (t : Dword) : Except (Word × Dword) Packet :=
  if !namesSlot t then .error (causeMisalign, t)
  else if 2 ^ 49 ≤ t.toNat then .error (causeProt, t)
  else
    let va := packetAddr t
    match s.translate core asid .fetch va.toNat with
    | .error c => .error (c, va)
    | .ok e =>
      let p := packetOf (Memory.readN s.mem (e.cell va.toNat) 16)
      if p.isExtension (slotIdx t) then .error (causeMisalign, t) else .ok p

/-- The translation that a fetch used stays in the TLBs (R118). -/
def State.holdFetch (s : State) (core asid : Nat) (t : Dword) : State :=
  match s.translate core asid .fetch (packetAddr t).toNat with
  | .error _ => s
  | .ok e => s.holdTlb core e

/-- The address space of a crew. -/
def State.asidOf (s : State) (crew : Nat) : Nat := (s.launch (s.crew crew).launch).asid

/-- Packets that the instruction cache holds: 64 KiB in packets of 16 bytes (R9, R65). -/
def icachePackets : Nat := 4096

/-- A packet comes into a core's instruction cache (R9). The rule names no order of replacement: DESIGN CHOICE, the packet that has been there
longest makes room (log 80). -/
def Core.keepPacket (c : Core) (asid va : Nat) : Core :=
  if c.icache.contains (asid, va) then c else { c with icache := ((asid, va) :: c.icache).take icachePackets }

/-- What stands at an instruction address: a trap of the fetch, a packet that the instruction cache does not hold (R260), a word that the
page scanner refuses, or an instruction. -/
inductive Look where
  | trap (cause : Word) (va : Dword)
  | miss
  | bad (r : Reason)
  | instr (i : Slotted)

/-- What a crew's core finds at an instruction address. -/
def State.look (s : State) (core crew : Nat) (pc : Dword) : Look :=
  match s.target core (s.asidOf crew) pc with
  | .error (cause, va) => .trap cause va
  | .ok p =>
    if !(s.core core).icache.contains (s.asidOf crew, (packetAddr pc).toNat) then .miss
    else
      match p.fetch (slotIdx pc) with
      | .error r => .bad r
      | .ok i => .instr i

/-! ### Program order -/

/-- Where a lane goes on behind an instruction that has executed, and holds the lane back until then (R62): after a branch, which a lane that
traps has not left. -/
def RobEntry.branchPc (e : RobEntry) (l : Nat) : Option Dword :=
  match e.res with
  | none => none
  | some r =>
    if !isBranch e.issue.instr then none
    else
      let x : Eff := if r.go.getLsbD l then r.eff.getD l {} else {}
      match x.trap, x.pc with
      | some _, _ => none
      | none, .to a => some a
      | none, _ => some (seqPc e.issue.pc e.issue.wide)

/-- The youngest unretired entry that holds a lane. -/
def Crew.lastEntry (c : Crew) (l : Nat) : Option RobEntry := (c.rob.filter fun e => e.issue.mask.getLsbD l).getLast?

/-- The address of the next instruction that a lane issues (R59): behind the youngest entry that holds it, or its program counter. None
while it waits behind a branch (R62), behind another instruction that holds it back, or behind an FTEST or FCANCEL that has not executed: these
execute when they issue (R304, R314). -/
def Crew.issuePc (c : Crew) (l : Nat) : Option Dword :=
  match c.lastEntry l with
  | none => some (c.thr l).pc
  | some e =>
    if blocks e.issue.instr then e.branchPc l
    else if looks e.issue.instr && e.res.isNone then none
    else some (seqPc e.issue.pc e.issue.wide)

/-! ### Choosing -/

/-- A thread that may be issued on its core: READY, not halted, not held by YIELD (R19, R21, R256). -/
def Thread.eligible (t : Thread) : Bool := t.state == .ready && !t.halted && t.hold.isNone

/-- A thread has passed the wait that it shares with its issue group: every lane that waits at the same FENCE has passed it (R307), and
every lane that waits in the same FWANY or FWALL has finished (R310), in an earlier cycle, so that it has seen every slot that has become ready in
the cycle in which its wait ended (R311). -/
def State.passes (s : State) (crew l : Nat) : Bool :=
  let c := s.crew crew
  let t := c.thr l
  (match t.fence with
    | none => true
    | some k => (lanesOf t.waitG).all fun j => (c.thr j).fence != some k || s.fenced k crew j) &&
  (t.got.isNone || t.readySince < (s.core (c.core.getD c.lastCore)).cycle && (lanesOf t.waitG).all fun j => (c.thr j).state != .future || (c.thr j).waitG != t.waitG)

/-- The address at which a lane may issue now. -/
def State.nextAt (s : State) (crew l : Nat) : Option Dword :=
  let c := s.crew crew
  if (c.thr l).eligible && s.passes crew l then c.issuePc l else none

/-- A candidate: crew, lanes, instruction address, whether it has waited 1024 cycles, its class, and the order of R225 as a list of
numbers. -/
structure Group where
  crew : Nat
  mask : Mask
  pc : Dword
  waited : Bool
  cls : Nat
  key : List Nat
  deriving DecidableEq, Repr

/-- The group of a lane as a candidate (R18, R225): the order is a group that has waited 1024 cycles, class, admission sequence, the
cycle of entering READY, lowest lane. at' gives the address at which each lane may issue. -/
def State.candidate (s : State) (core crew : Nat) (at' : List (Option Dword)) (l : Nat) (pc : Dword) : Group :=
  let c := s.crew crew
  let m := maskOf fun k => at'.getD k none == some pc
  let cycle := (s.core core).cycle
  let since := ((lanesOf m).map fun k => (c.thr k).readySince).min?.getD 0
  let waited := since + 1024 ≤ cycle
  let cls := (s.launch c.launch).cls
  { crew := crew, mask := m, pc := pc, waited := waited, cls := cls
    key := [if waited then 0 else 1, if waited then since else 0, cls, c.seqKey, since, l] }

/-- A crew whose groups may issue: resident, and neither halted, killed nor a victim (R224, R226, R233, R256). -/
def Crew.running (c : Crew) : Bool := c.core.isSome && !c.halted && !c.killed && !c.gone && !c.leaving

/-- The READY issue groups of a crew (R18): one for each address, named by its lowest lane. -/
def State.readyGroups (s : State) (core crew : Nat) : List Group :=
  if (s.crew crew).running then
    let at' := laneList.map (s.nextAt crew)
    laneList.filterMap fun l =>
      match at'.getD l none with
      | none => none
      | some pc => if (List.range l).any fun k => at'.getD k none == some pc then none else some (s.candidate core crew at' l pc)
  else []

/-- The issue groups of a crew that may issue: a crew with 64 unretired entries issues nothing (R59). -/
def State.groups (s : State) (core crew : Nat) : List Group :=
  if (s.crew crew).rob.length < 64 then s.readyGroups core crew else []

/-- Class 3 issues on a port in at most b cycles of a window, except when rule 1 chooses it (R225, R253). -/
def State.ballastOk (s : State) (core port : Nat) (g : Group) : Bool :=
  g.cls != 3 || g.waited || (s.core core).portUse.getD port 0 < s.ballast

/-- The fetch of a group ends in a trap, or in a word that the scanner refuses (R77, R371). -/
def State.badFetch (s : State) (core : Nat) (g : Group) : Bool :=
  match s.look core g.crew g.pc with
  | .trap _ _ | .bad _ => true
  | .miss | .instr _ => false

/-- A more preferred group of the crew waits for the trap of its fetch. Its crew issues nothing else meanwhile, since the trap would squash it
(R63), so that the entries before the trap retire and the group goes on (R42). -/
def State.trapAhead (s : State) (core : Nat) (g : Group) : Bool :=
  (s.readyGroups core g.crew).any fun h => lexLt h.key g.key && s.badFetch core h

/-- A group's next instruction is at hand (R65, R225): it lies in the instruction cache, and a pipe is free for it; a trap of its fetch, or
a word that the scanner refuses, waits until its crew has no unretired entry (R63). -/
def State.atHand (s : State) (core : Nat) (pipes : List Nat) (g : Group) : Bool :=
  match s.look core g.crew g.pc with
  | .trap _ _ | .bad _ => (s.crew g.crew).rob.isEmpty
  | .miss => false
  | .instr i => pipes.getD (pipeOf i.instr) 0 < pipeWidth (pipeOf i.instr) && !s.trapAhead core g

/-- The port that a group takes (R225): the lowest one that is left in the cycle and on which its class may issue. That it is the lowest is a
DESIGN CHOICE (log 2). -/
def State.portFor (s : State) (core : Nat) (g : Group) : Option Nat :=
  (List.range 4).find? fun p => !(s.core core).ports.contains p && s.ballastOk core p g

/-- The most preferred group of a core that can still issue in this cycle (R225): a port and a pipe are left, and its crew has issued
nothing in the cycle (R260). -/
def State.best (s : State) (core : Nat) : Option Group :=
  let k := s.core core
  let gs := (s.crewsOn core).flatMap fun e => if k.used.contains e.1 then [] else s.groups core e.1
  leastBy (fun x y => lexLt x.key y.key) (gs.filter fun g => (s.portFor core g).isSome && s.atHand core k.pipes g)

/-- The crew of a core whose oldest entry is tried next in this cycle (R59, R61): those that wait to allocate first, in the order in
which they began to wait (R56), then by admission. -/
def State.nextHead (s : State) (core : Nat) : Option Nat :=
  (leastBy (fun (x y : List Nat × Nat) => lexLt x.1 y.1) ((s.crewsOn core).filterMap fun e =>
    if e.2.rob.isEmpty || (s.core core).tried.contains e.1 then none
    else some ([e.2.waitsSince.getD (2 ^ 64), e.2.seqKey], e.1))).map (·.2)

/-- An entry behind the oldest one can go on (R56, R59): it executes, since the lanes that it reads are ready and a spilled register among
them can be read back; or it has executed and draws a register for its result. -/
def State.goesOn (s : State) (crew k : Nat) (e : RobEntry) : Bool :=
  let c := s.crew crew
  match e.res with
  | some _ => e.lacks != 0 && s.mayAllocate crew 1
  | none =>
    executesEarly e.issue.instr && c.ready k e.issue.mask e.srcs e.issue.ccs &&
      (((c.seen k).spilledOne (e.srcs ++ e.dst)).isNone || s.mayAllocate crew 1)

/-- The entry of a core that goes on next before it is the oldest of its crew: those that wait to allocate first, then by admission and age. -/
def State.nextEarly (s : State) (core : Nat) : Option (Nat × Nat) :=
  (leastBy (fun (x y : List Nat × Nat × Nat) => lexLt x.1 y.1) ((s.crewsOn core).flatMap fun e =>
    (e.2.rob.zipIdx.drop 1).filterMap fun y =>
      if s.goesOn e.1 y.2 y.1 then
        some ([if y.1.why = some 0 then y.1.since else 2 ^ 64, e.2.seqKey, y.2], e.1, y.2)
      else none)).map (·.2)

/-- The cores that time passes on: those that hold a crew, and those that the state lists. -/
def State.activeCores (s : State) : List Nat :=
  (List.range 128).filter fun n => thas s.cores n || s.crews.any fun e => e.2.core == some n

/-- The core whose cycle comes next: the cores take turns (log 3). -/
def State.nextCore (s : State) : Option Nat :=
  match s.activeCores.find? fun n => s.turn ≤ n with
  | some n => some n
  | none => s.activeCores.head?

/-! ### The register pool and the clock -/

/-- Some crew of a core is stalled at allocation (R54, R57): a result waits for a register, or a spilled one that cannot be read back. -/
def State.starving (s : State) (core : Nat) : Bool :=
  (s.crewsOn core).any fun e => e.2.rob.any fun y => y.why == some 0 ||
    (y.why == some 14 && (e.2.spilledOne (y.srcs ++ y.dst)).isSome && !s.mayAllocate e.1 1)

/-- The pool of a core could take one more bank (R10, R54). -/
def Core.canGrow (c : Core) : Bool := c.poolBanks < 16 && 4 < c.l1Banks

/-- The packets that wait at Supex ports leave them, each flit past its link check (R248). -/
def State.sendPeers (s : State) : State :=
  { s with
    posts := s.posts ++ s.peerOut.map (·.2), peerOut := []
    supex := s.supex.map fun e => (e.1, if s.peerOut.any fun r => r.1 == e.1 then { e.2 with retries := 0 } else e.2) }

/-- DTIME moves on: writes of the host and of Supex ports whose completion times it has passed are acknowledged, and packets leave the ports
(R145, R248). -/
def State.passTime (s : State) (t : Nat) : State :=
  let due := s.acks.filter fun a => a.ct < t
  let s := s.sendPeers
  { s with dtime := t, acks := s.acks.filter (fun a => !decide (a.ct < t))
           posts := s.posts ++ due.map fun a => .writeAck a.pa true }

end Sys2Proof.Machine
end

