-- ==== Sys2Proof/Machine/Debug.lean ====
section
/-! DEFINITION. The debugger (R255 to R259): attaching, halting a herd, a step, a dump, and the steps that a breakpoint starts. -/

namespace Sys2Proof.Machine

/-- The thread's next instruction is a BAR (R257). -/
def State.beforeBar (s : State) (crew l : Nat) : Bool :=
  let c := s.crew crew
  let t := c.thr l
  t.state == .ready &&
  match s.target c.lastCore (s.launch c.launch).asid t.pc with
  | .error _ => false
  | .ok p => match p.fetch (slotIdx t.pc) with
    | .ok i => (match i.instr with
      | .bar _ => true
      | _ => false)
    | .error _ => false

/-- A step of a set of crews begins (R257): every crew is released, and a thread that stands before a BAR may issue it. A step that
already runs on one of them becomes one with it, and so do the given ones, for their threads in bins too. -/
def State.beginStep (s : State) (ks : List Nat) (more : List Nat) : State :=
  let ids := (more ++ ks.filterMap fun k => (s.crew k).stepping).dedup
  let all := (ks ++ (s.crews.filter fun e => (match e.2.stepping with
    | some i => ids.contains i
    | none => false)).map (·.1)).dedup
  let id := (all.min?).getD 0
  let s := s.onBrooded fun x => x.map fun i => if ids.contains i then id else i
  all.foldl (fun s k =>
    let c := s.crew k
    let c := if c.stepping.isSome then c
      else c.onThreads fun l t => if t.isLive then { t with halted := false, passBar := s.beforeBar k l } else t
    s.setCrew k { c with halted := false, stepping := some id }) s

/-- A breakpoint in a launch with a debugger attached (R258): the crews of the thread's halt set that no debugger has halted run on as a
step does. Steps of the launch that run already, another breakpoint's among them, end with it in one report. -/
def State.breakpoint (s : State) (crew l : Nat) : State :=
  let lid := (s.crew crew).launch
  let ks := (s.threadCrews crew l).filter fun k => !(s.crew k).halted
  let running := (s.crews.filterMap fun e => if e.2.launch = lid then e.2.stepping else none).dedup
  if ks.isEmpty then s else s.beginStep ks running

/-- What the service's threads are serving now (R255): trap records, service calls and fetches, each by its launch and TID. -/
def State.serving (s : State) : List (Nat × Word) :=
  s.traps.map (fun r => (r.launch, r.tid)) ++ s.cmds.filterMap fun c => match c.kind with
    | .scall .. | .fetch .. => some (c.launch, c.tid)
    | _ => none

/-- The joined name of a service thread (R255): the launch and TID that it serves, with the service process and thread of that launch; one that
serves none has all ones in both fields, and the number that it has among the service's idle threads (log 73). -/
def State.serviceName (s : State) (idle : Word) : Option (Nat × Word) → JName
  | some e => s.nameOf e.1 e.2
  | none => ⟨idle, 0, 2 ^ 64 - 1, 0xffffffff⟩

/-- The joined names of the service threads that are at work, and of one that is idle (R255). -/
def State.serviceNames (s : State) : List JName := s.serving.map (fun e => s.serviceName 0 (some e)) ++ [s.serviceName 0 none]

/-- A thread of a launch in its crew. -/
def State.findThread (s : State) (lid : Nat) (tid : Word) : Option (Nat × Nat) :=
  s.crews.findSome? fun e =>
    if e.2.launch = lid ∧ e.2.gone = false then
      (laneList.find? fun l => (e.2.thr l).isLive && (e.2.thr l).tid == tid).map fun l => (e.1, l)
    else none

/-- The halt set that a debugger's request names (R256): a herd's, or the crew of a thread that has no herd. None when the launch has
no debugger attached or nothing bears the name. -/
def State.haltSet (s : State) (lid : Nat) : HaltTarget → Option (List Nat)
  | .herd h =>
    if (s.launch lid).debugger && h < (s.launch lid).herds.length then some (s.herdCrews lid h) else none
  | .thread tid =>
    if (s.launch lid).debugger then
      match s.findThread lid tid with
      | none => none
      | some (k, l) => if ((s.crew k).thr l).herdList.isEmpty then some [k] else none
    else none

/-- HALT_HERD (R256). A running step of the set ends. -/
def execHaltHerd (lid : Nat) (t : HaltTarget) (s : State) : Host.Outcome State Fault Refusal :=
  .next (match s.haltSet lid t with
    | none => s
    | some ks => s.haltCrews ks)

/-- STEP (R257): a halted set is released. -/
def execDbgStep (lid : Nat) (t : HaltTarget) (s : State) : Host.Outcome State Fault Refusal :=
  .next (match s.haltSet lid t with
    | none => s
    | some ks => if ks.any fun k => (s.crew k).halted then s.beginStep ks [] else s)

/-- What a dump says of a crew (R259). -/
def Crew.dumped (c : Crew) : DumpCrew :=
  let cells := regList.flatMap fun r => laneList.map fun l => (r, l)
  { num := c.num
    regs := (cells.filter fun e => (c.lane e.1 e.2).st == .live).map fun e => (e.1, e.2, c.rd e.1 e.2)
    released := cells.filter fun e => (c.lane e.1 e.2).st == .released
    cc := laneList.map fun l => (c.thr l).cc, meetStacks := laneList.map fun l => (c.thr l).stack.filterMap fun id => (c.meeting id).map fun m => (m.addr, m.sib) }

/-- DUMP (R259). -/
def execDump (lid : Nat) (t : HaltTarget) (s : State) : Host.Outcome State Fault Refusal :=
  .next (match s.haltSet lid t with
    | none => s
    | some ks => s.post (.dump (s.haltLines ks) (ks.map fun k => (s.crew k).dumped)))

/-- DEBUGGER_ATTACH (R232). -/
def execDebuggerAttach (lid : Nat) (s : State) : Host.Outcome State Fault Refusal :=
  .next (if thas s.launches lid then s.setLaunch lid { s.launch lid with debugger := true } else s)

end Sys2Proof.Machine
end

