-- ==== Sys2Proof/Config.lean ====
section
/-! DEFINITION. What the specification leaves open, as constants with no body: nothing in Lean can evaluate them or prove a
value of them. Each is named in the assumption log. -/

namespace Sys2Proof.Config

/-- A byte whose value the specification leaves undefined: the overlapped destination bytes of one COPY (R153) and the blocks
of a FAULTED fetch (R156). The argument is the counter State.fresh (log 8). -/
opaque freeByte : Nat → BitVec 8

/-- A choice between two outcomes that the specification allows: whether a row of a FAULTED copy was written (R154), whether a
block of a FAULTED fetch was written (R156). The argument is the counter State.fresh (log 8). -/
opaque freeChoice : Nat → Bool

/-- The number of blocks that an NVMe controller transfers at most in one Read (R156): the controller's own, and the rule names none
(log 66). Zero stands for one. -/
opaque maxBlocks : Nat → Nat

/-- The fused public root of the module (R249): a module's own (log 16). -/
opaque fusedRoot : List (BitVec 8)

/-- Whether a signature verifies a message against a root under XMSS with SHAKE256, n = 32 and tree height 20 (R249): the standard's
arithmetic is not in the specification (log 16). -/
opaque xmssVerifies : List (BitVec 8) → List (BitVec 8) → List (BitVec 8) → Bool

end Sys2Proof.Config
end

