-- ==== Sys2Proof/Machine/Operands.lean ====
section
/-! DEFINITION. Operand forms: immediates, register groups by size (R46, R73), addresses of the four spaces with their checks (R105,
R106, R110, R321, R323), and the data of loads and stores (R322, R359). -/

namespace Sys2Proof.Machine

/-- imm12 sign-extended to 32 bits (R263). -/
def simm (i : BitVec 12) : Word := i.signExtend 32

/-- Bytes of an access size (R73). -/
def sizeBytes (z : BitVec 3) : Nat := 2 ^ z.toNat

/-- The registers of a data operand of an access size, lowest first (R46, R73). -/
def sizeRegs (z : BitVec 3) (d : Reg) : List Nat :=
  match z.toNat with
  | 3 => [d.toNat, d.toNat + 1]
  | 4 => [d.toNat, d.toNat + 1, d.toNat + 2, d.toNat + 3]
  | _ => [d.toNat]

/-- A pair's registers (R5). -/
def pairRegs (a : Reg) : List Nat := [a.toNat, a.toNat + 1]
/-- A four-register group (R46). -/
def quadRegs (a : Reg) : List Nat := [a.toNat, a.toNat + 1, a.toNat + 2, a.toNat + 3]
/-- The base operand of a space: one register for scratch, a pair otherwise (R73). -/
def baseRegs (p : BitVec 2) (a : Reg) : List Nat := if p = 1 then [a.toNat] else pairRegs a
/-- An index register; 0 means none (R73). -/
def indexRegs (b : Reg) : List Nat := if b = 0 then [] else [b.toNat]

/-- The address of R321 before it is reduced: base + zero_extend(index) × n + off. -/
def memAddr (c : Crew) (l : Nat) (a b : Reg) (z : BitVec 3) (p : BitVec 2) (off : Word) : Int :=
  let base : Nat := if p = 1 then (c.rd a.toNat l).toNat else (c.rd2 a.toNat l).toNat
  let idx : Nat := if b = 0 then 0 else (c.rd b.toNat l).toNat
  (base : Int) + (idx * sizeBytes z : Nat) + off.toInt

/-- Where an access goes: a virtual address, a scratch offset, or a trap with its TRAPVA. -/
inductive Where where
  | virt (va : Nat)
  | scratch (off : Nat)
  | trap (cause : Word) (va : Dword)
  deriving DecidableEq, Repr

/-- The space's checks up to translation, in the order of R323: alignment, then range. grant is the scratch grant in bytes. -/
def resolve (x : Int) (n : Nat) (p : BitVec 2) (lbase : Dword) (lsize grant : Nat) : Where :=
  match p.toNat with
  | 1 =>
    let off := (x % 2 ^ 32).toNat
    if off % n != 0 then .trap causeMisalign (BitVec.ofNat 64 off)
    else if x < 0 || (grant : Int) ≤ x then .trap causeScratch (BitVec.ofNat 64 off)
    else .scratch off
  | 2 =>
    let va := BitVec.ofInt 64 (x + lbase.toNat)
    if va.toNat % n != 0 then .trap causeMisalign va
    else if x < 0 || (lsize : Int) ≤ x then .trap causeProt va
    else .virt va.toNat
  | _ =>
    let va := BitVec.ofInt 64 x
    if va.toNat % n != 0 then .trap causeMisalign va
    else if 2 ^ 49 ≤ va.toNat then .trap causeProt va
    else .virt va.toNat

/-- The TRAPVA of a place (R110). -/
def Where.va : Where → Dword
  | .virt va => BitVec.ofNat 64 va
  | .scratch off => BitVec.ofNat 64 off
  | .trap _ va => va

/-- The local size of a launch's threads in bytes (R106, R216). -/
def Launch.localBytes (x : Launch) : Nat := x.lsize * 256

/-- The registers that a load writes from its bytes (R322). -/
def loadLanes (z : BitVec 3) (sx : Bool) (bs : List Byte) : List Lane :=
  match z.toNat with
  | 0 => [live (let v := BitVec.ofNat 8 (leNat bs); if sx then v.signExtend 32 else v.setWidth 32)]
  | 1 => [live (let v := BitVec.ofNat 16 (leNat bs); if sx then v.signExtend 32 else v.setWidth 32)]
  | 2 => [live (BitVec.ofNat 32 (leNat bs))]
  | 3 => [live (wordOf bs), live (wordOf (bs.drop 4))]
  | _ => [live (wordOf bs), live (wordOf (bs.drop 4)), live (wordOf (bs.drop 8)), live (wordOf (bs.drop 12))]

/-- The bytes that a store takes from its data operand (R359). -/
def storeBytes (c : Crew) (l : Nat) (z : BitVec 3) (d : Reg) : List Byte :=
  ((sizeRegs z d).flatMap fun r => leBytes 4 (c.rd r l).toNat).take (sizeBytes z)

end Sys2Proof.Machine
end

