-- ==== Sys2Proof/Machine/Integer.lean ====
section
/-! DEFINITION. The integer instructions 0x00 to 0x3c (R101, R264 to R291, R299, R326 to R328, R334, R335, R337, R341 to R344, R347,
R349, R353, R362). -/

namespace Sys2Proof.Machine

/-! ### Shapes -/

/-- Operands of an R form with two sources and one result. -/
def opsRR (d a b : Reg) : Operands := { a := [a.toNat], b := [b.toNat], dst := [d.toNat] }
/-- Operands with one source and one result. -/
def opsR (d a : Reg) : Operands := { a := [a.toNat], dst := [d.toNat] }
/-- Operands with three sources and one result. -/
def opsRRR (d a b c : Reg) : Operands := { a := [a.toNat], b := [b.toNat], c := [c.toNat], dst := [d.toNat] }

/-- One result from two registers. -/
def State.rr (s : State) (d a b : Reg) (f : Word → Word → Word) : State :=
  s.alu (opsRR d a b) fun c l => { w := [live (f (c.rd a.toNat l) (c.rd b.toNat l))] }

/-- One result from one register. -/
def State.ri (s : State) (d a : Reg) (f : Word → Word) : State :=
  s.alu (opsR d a) fun c l => { w := [live (f (c.rd a.toNat l))] }

/-- One result from three registers. -/
def State.rrr (s : State) (d a b c : Reg) (f : Word → Word → Word → Word) : State :=
  s.alu (opsRRR d a b c) fun k l => { w := [live (f (k.rd a.toNat l) (k.rd b.toNat l) (k.rd c.toNat l))] }

/-- A 32-bit sum or difference with flags written to cN under F (R264). cin supplies the carry. -/
def State.rrFlags (s : State) (d a b : Reg) (f : Bool) (n : Cc) (g : Nat → Nat → Nat → Nat → Nat × Flags)
    (cin : Thread → Nat) : State :=
  s.alu (opsRR d a b) fun c l =>
    let r := g (c.rd a.toNat l).toNat (c.rd b.toNat l).toNat (cin (c.thr l)) 32
    { w := [live (BitVec.ofNat 32 r.1)], cc := if f then some (n, r.2) else none }

/-! ### Functions of values -/

/-- Unsigned or signed comparison (R328). -/
def less (s : Bool) (x y : Word) : Bool := if s then x.slt y else x.ult y

/-- DIV (R101, R299). -/
def divWord (s : Bool) (a b : Word) : Word :=
  if b = 0 then 0xffffffff
  else if s then BitVec.ofInt 32 (a.toInt.tdiv b.toInt)
  else BitVec.ofNat 32 (a.toNat / b.toNat)

/-- REM (R101, R347). -/
def remWord (s : Bool) (a b : Word) : Word :=
  if b = 0 then a
  else if s then BitVec.ofInt 32 (a.toInt.tmod b.toInt)
  else BitVec.ofNat 32 (a.toNat % b.toNat)

/-- SHL by an unsigned amount (R349). -/
def shlWord (a : Word) (y : Nat) : Word := if 32 ≤ y then 0 else a <<< y
/-- SHR (R349). -/
def shrWord (a : Word) (y : Nat) : Word := if 32 ≤ y then 0 else a >>> y
/-- SAR (R349). -/
def sarWord (a : Word) (y : Nat) : Word := a.sshiftRight (min y 31)
/-- ROT (R349). -/
def rotWord (a : Word) (y : Nat) : Word := a.rotateLeft (y % 32)

/-- CLZ (R289). -/
def clzWord (a : Word) : Word := BitVec.ofNat 32 (if a = 0 then 32 else 31 - a.toNat.log2)
/-- POPC (R344). -/
def popcWord (a : Word) : Word := BitVec.ofNat 32 ((List.range 32).countP fun i => a.getLsbD i)
/-- BREV (R284). -/
def brevWord (a : Word) : Word := maskOf fun i => a.getLsbD (31 - i)

/-- The field specifier of BFX and BFI (R277): position and width. -/
def fieldSpec (x : Word) : Nat × Nat :=
  (bitsOf x.toNat 0 5, min (bitsOf x.toNat 8 6) (32 - bitsOf x.toNat 0 5))

/-- BFX (R278). -/
def bfxWord (s : Bool) (a b : Word) : Word :=
  let (p, w) := fieldSpec b
  if w = 0 then 0
  else
    let r := a.toNat / 2 ^ p % 2 ^ w
    BitVec.ofNat 32 (if s && r / 2 ^ (w - 1) % 2 == 1 then r + 2 ^ 32 - 2 ^ w else r)

/-- BFI (R279). -/
def bfiWord (a b c : Word) : Word :=
  let (p, w) := fieldSpec c
  let m := BitVec.ofNat 32 ((2 ^ w - 1) * 2 ^ p)
  (a &&& ~~~m) ||| (BitVec.ofNat 32 (b.toNat * 2 ^ p) &&& m)

/-- PERM (R343). -/
def permWord (a b c : Word) : Word :=
  let pool := pairOf a b
  BitVec.ofNat 32 (leNat ((List.range 4).map fun i =>
    let s := bitsOf c.toNat (4 * i) 4
    let x : Byte := pool.extractLsb' (8 * (s % 8)) 8
    if s / 8 = 1 then (if x.msb then 0xff else 0) else x))

/-- CLMUL's 64-bit product (R288). -/
def clmulProduct (a b : Word) : Dword :=
  (List.range 32).foldl (fun p i => if b.getLsbD i then p ^^^ (a.setWidth 64 <<< i) else p) 0

/-! ### Meanings -/

/-- NOP (R341). -/
def execNop (s : State) : Host.Outcome State Fault Refusal := .next (s.alu {} fun _ _ => {})

/-- ADD, R form (R267). -/
def execAdd (d a b : Reg) (f : Bool) (n : Cc) (s : State) : Host.Outcome State Fault Refusal :=
  .next (s.rrFlags d a b f n addFlags fun _ => 0)
/-- ADD, I form (R267). -/
def execAddI (d a : Reg) (i : BitVec 12) (s : State) : Host.Outcome State Fault Refusal :=
  .next (s.ri d a fun x => x + simm i)
/-- ADDC (R269). -/
def execAddc (d a b : Reg) (f : Bool) (n : Cc) (s : State) : Host.Outcome State Fault Refusal :=
  .next (s.rrFlags d a b f n addFlags fun t => (t.flags n).c.toNat)
/-- SUB (R362). -/
def execSub (d a b : Reg) (f : Bool) (n : Cc) (s : State) : Host.Outcome State Fault Refusal :=
  .next (s.rrFlags d a b f n subFlags fun _ => 1)
/-- SUBB (R362). -/
def execSubb (d a b : Reg) (f : Bool) (n : Cc) (s : State) : Host.Outcome State Fault Refusal :=
  .next (s.rrFlags d a b f n subFlags fun t => (t.flags n).c.toNat)
/-- MUL, R form (R337). -/
def execMul (d a b : Reg) (s : State) : Host.Outcome State Fault Refusal := .next (s.rr d a b fun x y => x * y)
/-- MUL, I form (R337). -/
def execMulI (d a : Reg) (i : BitVec 12) (s : State) : Host.Outcome State Fault Refusal :=
  .next (s.ri d a fun x => x * simm i)
/-- MULH (R337). -/
def execMulh (d a b : Reg) (sg : Bool) (s : State) : Host.Outcome State Fault Refusal :=
  .next (s.rr d a b fun x y =>
    if sg then BitVec.ofInt 32 (x.toInt * y.toInt / 2 ^ 32) else BitVec.ofNat 32 (x.toNat * y.toNat / 2 ^ 32))
/-- MAD (R327). -/
def execMad (d a b c : Reg) (s : State) : Host.Outcome State Fault Refusal := .next (s.rrr d a b c fun x y z => x * y + z)
/-- DIV (R299). -/
def execDiv (d a b : Reg) (sg : Bool) (s : State) : Host.Outcome State Fault Refusal := .next (s.rr d a b (divWord sg))
/-- REM (R347). -/
def execRem (d a b : Reg) (sg : Bool) (s : State) : Host.Outcome State Fault Refusal := .next (s.rr d a b (remWord sg))
/-- MIN, R form (R328). -/
def execMin (d a b : Reg) (sg : Bool) (s : State) : Host.Outcome State Fault Refusal :=
  .next (s.rr d a b fun x y => if less sg y x then y else x)
/-- MIN, I form (R328). -/
def execMinI (d a : Reg) (i : BitVec 12) (s : State) : Host.Outcome State Fault Refusal :=
  .next (s.ri d a fun x => if less true (simm i) x then simm i else x)
/-- MAX, R form (R328). -/
def execMax (d a b : Reg) (sg : Bool) (s : State) : Host.Outcome State Fault Refusal :=
  .next (s.rr d a b fun x y => if less sg x y then y else x)
/-- MAX, I form (R328). -/
def execMaxI (d a : Reg) (i : BitVec 12) (s : State) : Host.Outcome State Fault Refusal :=
  .next (s.ri d a fun x => if less true x (simm i) then simm i else x)
/-- ABS (R266). -/
def execAbs (d a : Reg) (s : State) : Host.Outcome State Fault Refusal := .next (s.ri d a fun x => if x.msb then -x else x)
/-- AND, R form (R270). -/
def execAnd (d a b : Reg) (s : State) : Host.Outcome State Fault Refusal := .next (s.rr d a b fun x y => x &&& y)
/-- AND, I form (R270). -/
def execAndI (d a : Reg) (i : BitVec 12) (s : State) : Host.Outcome State Fault Refusal :=
  .next (s.ri d a fun x => x &&& simm i)
/-- OR, R form (R342). -/
def execOr (d a b : Reg) (s : State) : Host.Outcome State Fault Refusal := .next (s.rr d a b fun x y => x ||| y)
/-- OR, I form (R342). -/
def execOrI (d a : Reg) (i : BitVec 12) (s : State) : Host.Outcome State Fault Refusal :=
  .next (s.ri d a fun x => x ||| simm i)
/-- XOR, R form (R342). -/
def execXor (d a b : Reg) (s : State) : Host.Outcome State Fault Refusal := .next (s.rr d a b fun x y => x ^^^ y)
/-- XOR, I form (R342). -/
def execXorI (d a : Reg) (i : BitVec 12) (s : State) : Host.Outcome State Fault Refusal :=
  .next (s.ri d a fun x => x ^^^ simm i)
/-- ANDN (R271). -/
def execAndn (d a b : Reg) (s : State) : Host.Outcome State Fault Refusal := .next (s.rr d a b fun x y => x &&& ~~~y)
/-- SHL, R form (R349). -/
def execShl (d a b : Reg) (s : State) : Host.Outcome State Fault Refusal := .next (s.rr d a b fun x y => shlWord x y.toNat)
/-- SHL, I form (R349). -/
def execShlI (d a : Reg) (i : BitVec 12) (s : State) : Host.Outcome State Fault Refusal :=
  .next (s.ri d a fun x => shlWord x i.toNat)
/-- SHR, R form (R349). -/
def execShr (d a b : Reg) (s : State) : Host.Outcome State Fault Refusal := .next (s.rr d a b fun x y => shrWord x y.toNat)
/-- SHR, I form (R349). -/
def execShrI (d a : Reg) (i : BitVec 12) (s : State) : Host.Outcome State Fault Refusal :=
  .next (s.ri d a fun x => shrWord x i.toNat)
/-- SAR, R form (R349). -/
def execSar (d a b : Reg) (s : State) : Host.Outcome State Fault Refusal := .next (s.rr d a b fun x y => sarWord x y.toNat)
/-- SAR, I form (R349). -/
def execSarI (d a : Reg) (i : BitVec 12) (s : State) : Host.Outcome State Fault Refusal :=
  .next (s.ri d a fun x => sarWord x i.toNat)
/-- ROT, R form (R349). -/
def execRot (d a b : Reg) (s : State) : Host.Outcome State Fault Refusal := .next (s.rr d a b fun x y => rotWord x y.toNat)
/-- ROT, I form (R349). -/
def execRotI (d a : Reg) (i : BitVec 12) (s : State) : Host.Outcome State Fault Refusal :=
  .next (s.ri d a fun x => rotWord x i.toNat)
/-- CLZ (R289). -/
def execClz (d a : Reg) (s : State) : Host.Outcome State Fault Refusal := .next (s.ri d a clzWord)
/-- POPC (R344). -/
def execPopc (d a : Reg) (s : State) : Host.Outcome State Fault Refusal := .next (s.ri d a popcWord)
/-- BREV (R284). -/
def execBrev (d a : Reg) (s : State) : Host.Outcome State Fault Refusal := .next (s.ri d a brevWord)
/-- BFX (R278). -/
def execBfx (d a b : Reg) (sg : Bool) (s : State) : Host.Outcome State Fault Refusal := .next (s.rr d a b (bfxWord sg))
/-- BFI (R279). -/
def execBfi (d a b c : Reg) (s : State) : Host.Outcome State Fault Refusal := .next (s.rrr d a b c bfiWord)
/-- PERM (R343). -/
def execPerm (d a b c : Reg) (s : State) : Host.Outcome State Fault Refusal := .next (s.rrr d a b c permWord)
/-- SEL (R353). -/
def execSel (d a b : Reg) (n : Cc) (k : BitVec 4) (s : State) : Host.Outcome State Fault Refusal :=
  .next (s.alu (opsRR d a b) fun c l =>
    { w := [live (if condHolds k ((c.thr l).flags n) then c.rd a.toNat l else c.rd b.toNat l)] })
/-- CMP, R form (R290). -/
def execCmp (n : Cc) (a b : Reg) (s : State) : Host.Outcome State Fault Refusal :=
  .next (s.alu { a := [a.toNat], b := [b.toNat] } fun c l =>
    { cc := some (n, (subFlags (c.rd a.toNat l).toNat (c.rd b.toNat l).toNat 1 32).2) })
/-- CMP, I form (R290). -/
def execCmpI (n : Cc) (a : Reg) (i : BitVec 12) (s : State) : Host.Outcome State Fault Refusal :=
  .next (s.alu { a := [a.toNat] } fun c l => { cc := some (n, (subFlags (c.rd a.toNat l).toNat (simm i).toNat 1 32).2) })
/-- LEA (R326). -/
def execLea (d a b : Reg) (x : Bool) (t : BitVec 3) (s : State) : Host.Outcome State Fault Refusal :=
  .next (s.alu { a := pairRegs a, b := [b.toNat], dst := pairRegs d } fun c l =>
    let i : Dword := if x then (c.rd b.toNat l).signExtend 64 else (c.rd b.toNat l).setWidth 64
    { w := live2 (c.rd2 a.toNat l + i <<< t.toNat) })
/-- CLMUL (R288). -/
def execClmul (d a b : Reg) (h : Bool) (s : State) : Host.Outcome State Fault Refusal :=
  .next (s.rr d a b fun x y => if h then hiWord (clmulProduct x y) else loWord (clmulProduct x y))
/-- MOV (R334). -/
def execMov (d a : Reg) (s : State) : Host.Outcome State Fault Refusal := .next (s.ri d a fun x => x)
/-- ADD64 (R268). -/
def execAdd64 (d a b : Reg) (f : Bool) (n : Cc) (s : State) : Host.Outcome State Fault Refusal :=
  .next (s.alu { a := pairRegs a, b := pairRegs b, dst := pairRegs d } fun c l =>
    let r := addFlags (c.rd2 a.toNat l).toNat (c.rd2 b.toNat l).toNat 0 64
    { w := live2 (BitVec.ofNat 64 r.1), cc := if f then some (n, r.2) else none })
/-- CMP64 (R291). -/
def execCmp64 (n : Cc) (a b : Reg) (s : State) : Host.Outcome State Fault Refusal :=
  .next (s.alu { a := pairRegs a, b := pairRegs b } fun c l =>
    { cc := some (n, (subFlags (c.rd2 a.toNat l).toNat (c.rd2 b.toNat l).toNat 1 64).2) })
/-- The registers that MOVI writes (R335): LO one register, HI the odd register of a pair, SX and ZX the pair. -/
def moviRegs (d : Reg) (k : BitVec 2) : List Nat :=
  match k.toNat with
  | 0 => [d.toNat]
  | 1 => [d.toNat + 1]
  | _ => pairRegs d
/-- The lanes that MOVI writes (R335). -/
def moviLanes (k : BitVec 2) (i : Word) : List Lane :=
  match k.toNat with
  | 0 => [live i]
  | 1 => [live i]
  | 2 => live2 (i.signExtend 64)
  | _ => live2 (i.setWidth 64)
/-- MOVI (R335). -/
def execMovi (d : Reg) (k : BitVec 2) (i : Word) (s : State) : Host.Outcome State Fault Refusal :=
  .next (s.alu { dst := moviRegs d k } fun _ _ => { w := moviLanes k i })

end Sys2Proof.Machine
end

