-- ==== Sys2Proof/Machine/LoadStore.lean ====
section
/-! DEFINITION. Loads, stores, ATOM and FENCE, 0x80 to 0x89 (R105 to R114, R129 to R141, R272, R307, R320 to R325, R358 to R361). -/

namespace Sys2Proof.Machine

/-! ### Lanes in order -/

/-- The lanes of a list act one after the other on the state; none when one of them has to wait, and then none has acted. -/
def State.eachLane (s : State) (f : State → Nat → Option (State × Eff)) : List Nat → Option (State × Tab Eff)
  | [] => some (s, [])
  | l :: ls =>
    match f s l with
    | none => none
    | some (s', e) =>
      match s'.eachLane f ls with
      | none => none
      | some (s'', es) => some (s'', (l, e) :: es)

/-- An instruction whose lanes act in ascending order, waiting for a reason when one of them has to. -/
def State.memory (s : State) (o : Operands) (why : Nat) (f : State → Nat → Option (State × Eff)) : State :=
  s.issue o fun s g =>
    match s.eachLane f (lanesOf g) with
    | none => .wait why
    | some (s', es) => .done s' (perLane fun l => tget {} es l)

/-- The core, the address space and the launch of the issuing crew. -/
def State.curCrew (s : State) : Crew := s.crew s.cur.crew
/-- The core on which the issuing crew runs. -/
def State.curCore (s : State) : Nat := s.curCrew.lastCore
/-- The launch of the issuing crew. -/
def State.curLaunch (s : State) : Launch := s.launch s.curCrew.launch
/-- The mixed-size debug option (R217). -/
def Launch.dbgmx (x : Launch) : Bool := x.control.getLsbD 8

/-- Where a lane's access goes (R321). -/
def State.accessAt (s : State) (l : Nat) (a b : Reg) (z : BitVec 3) (p : BitVec 2) (off : Word) : Where :=
  let c := s.curCrew
  resolve (memAddr c l a b z p off) (sizeBytes z) p (c.thr l).lbase s.curLaunch.localBytes
    ((s.core s.curCore).window c.launch).bytes

/-! ### Loads -/

/-- The operands of a load (R320). -/
def opsLoad (d a b : Reg) (z : BitVec 3) (p : BitVec 2) : Operands :=
  { a := baseRegs p a, b := indexRegs b, dst := sizeRegs z d }

/-- One lane of a load (R321 to R323). -/
def State.loadLane (s : State) (a b : Reg) (z : BitVec 3) (p : BitVec 2) (x home : Bool) (off : Word) (l : Nat) :
    Option (State × Eff) :=
  let w := s.accessAt l a b z p off
  let n := sizeBytes z
  let r : Done := match w with
    | .trap c _ => .trap c
    | .scratch o => s.loadScratch s.curCore s.curCrew.launch o n
    | .virt va => s.loadVirt s.curCore s.curLaunch.asid s.curLaunch.dbgmx home va n
  match r with
  | .wait => none
  | .trap c => some (s, trapped c w.va)
  | .ok s' bs => some (s', { w := loadLanes z x bs })

/-- A load of any form. -/
def State.load1 (s : State) (d a b : Reg) (z : BitVec 3) (p : BitVec 2) (x home : Bool) (off : Word) : State :=
  s.memory (opsLoad d a b z p) 4 fun s l => s.loadLane a b z p x home off l

/-- LD, R form (R320 to R323). -/
def execLd (d a b : Reg) (z : BitVec 3) (p : BitVec 2) (x : Bool) (s : State) : Host.Outcome State Fault Refusal :=
  .next (s.load1 d a b z p x false 0)
/-- LD, wide form (R320 to R323). -/
def execLdWide (d a b : Reg) (z : BitVec 3) (p : BitVec 2) (x : Bool) (off : Word) (s : State) :
    Host.Outcome State Fault Refusal :=
  .next (s.load1 d a b z p x false off)
/-- LDA (R134, R324): in a model that executes in program order its acquire holds back nothing (log 1). -/
def execLda (d a b : Reg) (z : BitVec 3) (p : BitVec 2) (x : Bool) (s : State) : Host.Outcome State Fault Refusal :=
  .next (s.load1 d a b z p x false 0)
/-- LDNC (R325). -/
def execLdnc (d a b : Reg) (z : BitVec 3) (p : BitVec 2) (x : Bool) (s : State) : Host.Outcome State Fault Refusal :=
  .next (s.load1 d a b z p x true 0)

/-! ### Stores -/

/-- The operands of a store (R358). -/
def opsStore (d a b : Reg) (z : BitVec 3) (p : BitVec 2) : Operands :=
  { a := baseRegs p a, b := indexRegs b, c := sizeRegs z d, visible := true }

/-- One lane of a store (R321, R359, R360). -/
def State.storeLane (s : State) (d a b : Reg) (z : BitVec 3) (p : BitVec 2) (drop : Bool) (off : Word) (l : Nat) :
    Option (State × Eff) :=
  let w := s.accessAt l a b z p off
  let bs := storeBytes s.curCrew l z d
  let r : Done := match w with
    | .trap c _ => .trap c
    | .scratch o => s.storeScratch s.curCore s.curCrew.launch o bs
    | .virt va =>
      s.storeVirt s.curCore s.curLaunch.asid s.curCrew.launch (s.curCrew.thr l).tid s.curLaunch.dbgmx drop va bs
  match r with
  | .wait => none
  | .trap c => some (s, trapped c w.va)
  | .ok s' _ => some (s', {})

/-- A store of any form without a release. -/
def State.store1 (s : State) (d a b : Reg) (z : BitVec 3) (p : BitVec 2) (drop : Bool) (off : Word) : State :=
  s.memory (opsStore d a b z p) 4 fun s l => s.storeLane d a b z p drop off l

/-- ST, R form (R358, R359). -/
def execSt (d a b : Reg) (z : BitVec 3) (p : BitVec 2) (s : State) : Host.Outcome State Fault Refusal :=
  .next (s.store1 d a b z p false 0)
/-- ST, wide form (R358, R359). -/
def execStWide (d a b : Reg) (z : BitVec 3) (p : BitVec 2) (off : Word) (s : State) : Host.Outcome State Fault Refusal :=
  .next (s.store1 d a b z p false off)
/-- STNC (R360). -/
def execStnc (d a b : Reg) (z : BitVec 3) (p : BitVec 2) (s : State) : Host.Outcome State Fault Refusal :=
  .next (s.store1 d a b z p true 0)

/-! ### Fences -/

/-- The lanes of G wait at their fence, and those outside G, in which it does nothing (R47), go on (R307). -/
def State.fenceHold (s : State) (kind : Nat) (g : Mask) : State :=
  let i := s.cur
  let cycle := s.cycleOf i.crew
  let c := (s.crew i.crew).onMask (i.mask &&& ~~~g) fun _ t => retireThread t {} false true (seqPc i.pc i.wide) cycle
  s.setCrew i.crew (c.onMask g fun _ t => { t with fence := some kind, waitG := g })

/-- FENCE of a kind (R133, R307): the lanes of G go on when each of them has passed its fence. -/
def State.fence (s : State) (kind : Nat) : State :=
  s.issue {} fun s g =>
    if (lanesOf g).all fun l => s.fenced kind s.cur.crew l then .done s [] else .hold (s.fenceHold kind g) s.cur.mask

/-- FENCE.core (R133). -/
def execFenceCore (s : State) : Host.Outcome State Fault Refusal := .next (s.fence 0)
/-- FENCE.dev (R133). -/
def execFenceDev (s : State) : Host.Outcome State Fault Refusal := .next (s.fence 1)
/-- FENCE.sys (R133). -/
def execFenceSys (s : State) : Host.Outcome State Fault Refusal := .next (s.fence 2)

/-- STREL (R135, R361): FENCE.dev, then the store. -/
def execStrel (d a b : Reg) (z : BitVec 3) (p : BitVec 2) (s : State) : Host.Outcome State Fault Refusal :=
  .next (s.issue (opsStore d a b z p) fun s g =>
    if (lanesOf g).all fun l => s.fenced 1 s.cur.crew l then
      match s.eachLane (fun s l => s.storeLane d a b z p false 0 l) (lanesOf g) with
      | none => .wait 4
      | some (s', es) => .done s' (perLane fun l => tget {} es l)
    else .wait 5)

/-! ### ATOM -/

/-- The registers of an operand of 32 or 64 bits. -/
def widthRegs (b64 : Bool) (d : Reg) : List Nat := if b64 then pairRegs d else [d.toNat]

/-- The operands of ATOM (R272): CAS also reads its destination, the comparand. -/
def opsAtom (d a b : Reg) (o : BitVec 4) (b64 scratch : Bool) : Operands :=
  { a := if scratch then [a.toNat] else pairRegs a, b := widthRegs b64 b
    more := if o = 9 then widthRegs b64 d else [], dst := widthRegs b64 d, visible := true }

/-- A value of 32 or 64 bits from registers. -/
def Crew.rdW (c : Crew) (b64 : Bool) (r l : Nat) : Nat := if b64 then (c.rd2 r l).toNat else (c.rd r l).toNat

/-- Where an ATOM goes (R137, R272): alignment, then range. -/
def State.atomPlace (s : State) (l : Nat) (a : Reg) (b64 scratch : Bool) : Where :=
  let c := s.curCrew
  let p : BitVec 2 := if scratch then 1 else 0
  resolve (memAddr c l a 0 0 p 0) (if b64 then 8 else 4) p 0 0 ((s.core s.curCore).window c.launch).bytes

/-- One lane of ATOM (R137, R138, R272). -/
def State.atomLane (s : State) (d a b : Reg) (o : BitVec 4) (b64 scratch : Bool) (l : Nat) : Option (State × Eff) :=
  let c := s.curCrew
  let w := s.atomPlace l a b64 scratch
  let x := c.rdW b64 b.toNat l
  let k := c.rdW b64 d.toNat l
  let r : Done := match w with
    | .trap c _ => .trap c
    | .scratch off => s.atomScratch s.curCore c.launch o.toNat b64 off x k
    | .virt va => s.atomVirt s.curCore s.curLaunch.asid c.launch (c.thr l).tid s.curLaunch.dbgmx o.toNat b64 va x k
  match r with
  | .wait => none
  | .trap c => some (s, trapped c w.va)
  | .ok s' bs => some (s', { w := if b64 then live2 (BitVec.ofNat 64 (leNat bs)) else [live (BitVec.ofNat 32 (leNat bs))] })

/-- ATOM (R137, R138, R272): the lanes apply in ascending order. -/
def execAtom (d a b : Reg) (o : BitVec 4) (b64 scratch : Bool) (s : State) : Host.Outcome State Fault Refusal :=
  .next (s.memory (opsAtom d a b o b64 scratch) 4 fun s l => s.atomLane d a b o b64 scratch l)

end Sys2Proof.Machine
end

