-- ==== Sys2Proof/Machine/Paging.lean ====
section
/-! DEFINITION. Pages as the resident service hands them out: frames, page tables, repair of pages of a valid allocation, and
shootdowns (R107, R113, R116, R120, R121, R232, R369). Which frames and ranges it takes is log 10. -/

namespace Sys2Proof.Machine

/-! ### Frames -/

/-- The physical address whose byte lies in a cell, under the interleaved layout: R115 read backwards. -/
def paOfPlain (cell : Nat) : Nat :=
  let pc := cell / 2 ^ 30
  let bank := cell / 2 ^ 26 % 16
  let row := cell / 1024 % 65536
  let col := cell / 64 % 16
  let hi := col / 4 * 16 + bank
  pc / 64 * 2 ^ 36 + row * 2 ^ 20 + hi * 2 ^ 14 + Nat.xor (pc % 64) hi * 2 ^ 8 + cell % 256

/-- The physical address whose byte lies in a cell, under the bank-linear layout: R115 read backwards. -/
def paOfLinear (cell : Nat) : Nat :=
  let pc := cell / 2 ^ 30
  let bank := cell / 2 ^ 26 % 16
  let row := cell / 1024 % 65536
  let col := cell / 64 % 16
  pc / 64 * 2 ^ 36 + pc % 64 * 2 ^ 30 + row / 4 * 2 ^ 16 + bank * 2 ^ 12 + row % 4 * 2 ^ 10 + col * 64 + cell % 64

/-- Whether a cell belongs to a frame under a layout. -/
def inFrame (frame : Nat) (bl : Bool) (cell : Nat) : Bool :=
  if isHost cell then cell / 65536 == frame else (if bl then paOfLinear cell else paOfPlain cell) / 65536 == frame

/-- Every L1 drops the lines that a test on their first cell picks: what it held of a frame that is handed out again (R129). -/
def State.dropLines (s : State) (gone : Nat → Bool) : State :=
  { s with cores := s.cores.map fun e => (e.1, { e.2 with l1 := e.2.l1.filter fun x => !gone (256 * x.line) }) }

/-- A frame's bytes become zero and clean, and no L1 holds any of it. -/
def State.zeroFrame (s : State) (frame : Nat) (bl : Bool) : State :=
  { s.dropLines (inFrame frame bl) with
    mem := s.mem.filter fun e => !inFrame frame bl e.1, bad := s.bad.filter fun w => !inFrame frame bl (8 * w) }

/-- A frame as the service records it: a bank-linear one is told apart from an interleaved one. -/
def frameKey (frame : Nat) (bl : Bool) : Nat := if bl then frame + 2 ^ 30 else frame

/-- The stack and the group of four DRAM rows that a frame uses: an interleaved frame uses rows of every pseudo-channel of its
stack, a bank-linear one four rows of one (R115). -/
def rowGroup (key : Nat) : Nat × Nat :=
  if 2 ^ 30 ≤ key then (bitsOf (key - 2 ^ 30) 20 3, bitsOf key 0 14) else (bitsOf key 20 3, bitsOf key 6 14)

/-- The row group whose cells lie under a mailbox page, and are never used (R210). -/
def mailboxRows : Nat := 0x3fff

/-- A frame that is handed out would use cells under a mailbox page (R210), or share DRAM cells with one that already is (R116). -/
def State.frameTaken (s : State) (frame : Nat) (bl : Bool) : Bool :=
  (rowGroup (frameKey frame bl)).2 == mailboxRows ||
  s.frames.any fun k => k == frameKey frame bl || ((decide (2 ^ 30 ≤ k) != bl) && rowGroup k == rowGroup (frameKey frame bl))

/-- The first of n numbers from a on that pass. -/
def firstFrom (ok : Nat → Bool) (a : Nat) : Nat → Option Nat
  | 0 => none
  | n + 1 => if ok a then some a else firstFrom ok (a + 1) n

/-- The first free frame from a number on, among as many as could be taken. -/
def State.firstFree (s : State) (bl : Bool) (lo hi : Nat) : Option Nat :=
  firstFrom (fun f => !s.frameTaken f bl) lo (min (hi - lo) (64 * (s.frames.length + 8) + 1))

/-- A free frame of device memory between two numbers that an interface was granted (R250). -/
def State.pickFrame (s : State) (vi lo hi : Nat) (bl : Bool) : Option Nat :=
  (s.vi vi).granted.findSome? fun g => s.firstFree bl (max lo g.1) (min hi (g.1 + g.2))

/-- The frames of a stack (R111). -/
def stackFrames (st : Nat) : Nat × Nat := (st * 2 ^ 20, (st + 1) * 2 ^ 20)

/-- The frames of a pseudo-channel under the bank-linear layout, without the mailbox page (R115, R210). -/
def pchFrames (p : Nat) : Nat × Nat := (p * 2 ^ 14, p * 2 ^ 14 + 0x3fff)

/-- A free frame of device memory for a page table: one that no interface was granted, or any, when all were. -/
def State.tableFrame (s : State) : Nat :=
  let starts := 0 :: s.vis.flatMap fun e => e.2.granted.map fun g => g.1 + g.2
  let free := fun f => f < 2 ^ 23 && !s.frameTaken f false
  let search := fun ok => starts.findSome? fun a => firstFrom ok a (64 * (s.frames.length + 8) + 1)
  ((search fun f => free f && !s.vis.any fun e => e.2.grants (f * 65536)).or (search free)).getD 0

/-! ### Page tables -/

/-- Write a page-table entry (R113, log 7), of which every L1 learns (R129). -/
def State.writePte (s : State) (pa : Nat) (e : Dword) : State :=
  (s.writeHome (cellOf pa false) (leBytes 8 e.toNat)).markLine (lineOf (cellOf pa false))

/-- The next table of an entry's address, made when the entry is not valid. -/
def State.nextTable (s : State) (pa : Nat) : State × Nat :=
  let e := s.readPhys pa
  if pteV e then (s, pteFrame e)
  else
    let f := s.tableFrame
    ((({ s with frames := frameKey f false :: s.frames }.zeroFrame f false).writePte pa (BitVec.ofNat 64 (f * 65536 + 1))),
      f * 65536)

/-- The physical address of the leaf entry of a 64 KiB page, with the tables on the way made (R112). -/
def State.leafSlot (s : State) (asid va : Nat) : State × Nat :=
  let r1 := s.nextTable ((s.aspace asid).root + 8 * bitsOf va 42 7)
  let r2 := r1.1.nextTable (r1.2 + 8 * bitsOf va 29 13)
  (r2.1, r2.2 + 8 * bitsOf va 16 13)

/-- Map a 64 KiB page. -/
def State.mapPage (s : State) (asid va : Nat) (e : Dword) : State :=
  let r := s.leafSlot asid va
  r.1.writePte r.2 e

/-- Map a 512 MiB page (R112). -/
def State.mapLarge (s : State) (asid va : Nat) (e : Dword) : State :=
  let r1 := s.nextTable ((s.aspace asid).root + 8 * bitsOf va 42 7)
  r1.1.writePte (r1.2 + 8 * bitsOf va 29 13) e

/-- The physical address of the entry that maps an address, with the size of what it maps, when the tables on the way exist. -/
def State.leafAddr (s : State) (asid va : Nat) : Option (Nat × Nat) :=
  let e1 := s.readPhys ((s.aspace asid).root + 8 * bitsOf va 42 7)
  if !pteV e1 || malformed 1 e1 then none
  else
    let p2 := pteFrame e1 + 8 * bitsOf va 29 13
    let e2 := s.readPhys p2
    if !pteV e2 || malformed 2 e2 then none
    else if pteLeaf e2 then some (p2, 2 ^ 29) else some (pteFrame e2 + 8 * bitsOf va 16 13, 2 ^ 16)

/-- The entry of a read and write page of a frame (R107, R113, R369). -/
def rwEntry (frame : Nat) : Dword := BitVec.ofNat 64 (frame * 65536 + 0x807 + bitsOf frame 20 3 * 256)

/-- The entry of a bag's slot page (R181): bank-linear and readable. -/
def slotEntry (frame : Nat) : Dword := BitVec.ofNat 64 (frame * 65536 + 0x883 + bitsOf frame 20 3 * 256)

/-- The entry of a pseudo-channel's mailbox page (R210): R, UC and BL. -/
def mailboxEntry (p : Nat) : Dword := BitVec.ofNat 64 ((p * 2 ^ 14 + 0x3fff) * 65536 + 0x893 + p / 64 * 256)

/-! ### Shootdown -/

/-- Every TLB of the module drops the entries of a page (R120). -/
def State.dropTlb (s : State) (asid va : Nat) : State :=
  let keep := fun (e : TlbEntry) => !e.hits asid va
  { s with
    cores := s.cores.map fun e => (e.1, { e.2 with tlb := e.2.tlb.filter keep })
    dies := s.dies.map fun e => (e.1, { e.2 with tlb := e.2.tlb.filter keep }) }

/-- The frames of a page of a size (R112). -/
def framesOf (e : Dword) (size : Nat) : List Nat := (List.range (size / 65536)).map (pteFrame e / 65536 + ·)

/-- Remove the mapping of a page by a shootdown; its frames are free again, and the code locks that it held go (R75). -/
def State.unmapPage (s : State) (asid va : Nat) : State :=
  match s.leafAddr asid va with
  | none => s
  | some (pa, size) =>
    let e := s.readPhys pa
    let s := s.dropTlb asid va
    let fs := framesOf e size
    if pteV e then
      { s.writePte pa 0 with
        frames := (fs.map (frameKey · (pteBL e))).foldl List.erase s.frames
        locked := if pteX e then fs.foldl List.erase s.locked else s.locked }
    else s

/-- Remove the mappings of a range of 64 KiB pages. -/
def State.unmapRange (s : State) (asid va : Nat) : Nat → State
  | 0 => s
  | n + 1 => (s.unmapPage asid va).unmapRange asid (va + 65536) n

/-- Every TLB of the module drops the entries of an address space that meet a range (R120). -/
def State.dropTlbRange (s : State) (asid base size : Nat) : State :=
  let keep := fun (e : TlbEntry) => e.asid != asid || e.va + e.size ≤ base || base + size ≤ e.va
  { s with
    cores := s.cores.map fun e => (e.1, { e.2 with tlb := e.2.tlb.filter keep })
    dies := s.dies.map fun e => (e.1, { e.2 with tlb := e.2.tlb.filter keep }) }

/-- What maps a page under a leaf holds a cell. -/
def TlbEntry.covers (e : TlbEntry) (cell : Nat) : Bool :=
  (if isHost cell then cell else if pteBL e.leaf then paOfLinear cell else paOfPlain cell) / e.size == pteFrame e.leaf / e.size

/-! ### Bags as storage -/

/-- The slot size z in bytes (R177, R181, R282). -/
def Bag.slot (b : Bag) : Nat := 16 * 2 ^ b.size
/-- The share count S (R180). -/
def Bag.count (b : Bag) : Nat := if b.domain = 0 then 1 else if b.domain = 1 then 64 else 512
/-- log2 S. -/
def Bag.log2 (b : Bag) : Nat := if b.domain = 0 then 0 else if b.domain = 1 then 6 else 9
/-- Slots to a share (R180). -/
def Bag.q (b : Bag) : Nat := if b.count = 1 then b.cap else (b.cap + b.count - 1) / b.count + b.slack
/-- The pseudo-channel of a share (R180). -/
def Bag.pch (b : Bag) (n : Nat) : Nat := if b.domain = 0 then b.place else if b.domain = 1 then 64 * b.place + n else n
/-- The pages of one share (R181). -/
def Bag.sharePages (b : Bag) : Nat := (b.q * b.slot + 65535) / 65536
/-- The virtual address of slot j of share n (R181). -/
def Bag.slotVa (b : Bag) (n j : Nat) : Nat := b.base + n * b.sharePages * 65536 + j * b.slot
/-- A share of a bag. -/
def Bag.share (b : Bag) (n : Nat) : Share := tget {} b.shares n
/-- Replace a share. -/
def Bag.setShare (b : Bag) (n : Nat) (h : Share) : Bag := { b with shares := tset b.shares n h }
/-- Bag idx of an address space. -/
def State.bag (s : State) (asid idx : Nat) : Bag := tget {} (s.aspace asid).bags idx
/-- Replace a bag. -/
def State.setBag (s : State) (asid idx : Nat) (b : Bag) : State :=
  let a := s.aspace asid
  s.setAspace asid { a with bags := tset a.bags idx b }

/-- The storage of a bag (R181). -/
def Bag.storage (b : Bag) : Range := { base := b.base, pages := b.count * b.sharePages }

/-- A range of pages shares an address with the page of an entry. -/
def Range.meets (r : Range) (e : TlbEntry) : Bool := r.base < e.va + e.size && e.va < r.base + r.pages * 65536

/-! ### When a shootdown can complete -/

/-- An engine command that has translated through the entry of a page and has not completed (R120). One that waits has translated nothing but the
lines that it owns, and one that was refused nothing at all. -/
def State.usesPage (s : State) (asid : Nat) (e : TlbEntry) (c : Cmd) : Bool :=
  c.asid == asid &&
  (match c.phase with
    | .queued => false
    | .started => true
    | .written _ st => st.toNat / 2 ^ 28 != 4) &&
  ((c.kind.vas.any fun va => e.va ≤ va && va < e.va + e.size) ||
    match c.kind with
    | .bdrain idx .. => (s.bag asid idx).storage.meets e
    | _ => false)

/-- A shootdown of a page can complete (R120): no store on its way and no line owned by an engine lies in the page that an entry
maps, no near-memory run computes on it, and neither an engine command nor a placement that has translated through the entry is still to
complete. -/
def State.leafQuiet (s : State) (asid : Nat) (e : TlbEntry) : Bool :=
  !(s.flights.any fun f => e.covers f.addr) && !(s.owned.any fun o => e.covers o.addr) &&
  !(s.sealed.any fun z => z.asid == asid && e.va ≤ z.va && z.va < e.va + e.size && (s.pch z.pch).run.isSome) &&
  !(s.cmds.any (s.usesPage asid e)) &&
  !(s.aspace asid).bags.any fun b => b.2.storage.meets e && b.2.shares.any fun h => h.2.queue.any fun p => p.written.isSome

/-- A shootdown of the page that holds an address can complete. -/
def State.pageQuiet (s : State) (asid va : Nat) : Bool :=
  match s.walk (s.aspace asid).root va with
  | .error _ => true
  | .ok e => s.leafQuiet asid e

/-! ### Valid allocations and repair -/

/-- Whether a range of 64 KiB pages holds an address. -/
def Range.holds (r : Range) (va : Nat) : Bool := r.base ≤ va && va < r.base + r.pages * 65536

/-- The bytes of a local window: LSIZE rounded up to 64 KiB (R107). -/
def Launch.windowBytes (x : Launch) : Nat := (x.lsize * 256 + 65535) / 65536 * 65536

/-- The local area of a launch (R107). -/
def Launch.localArea (x : Launch) : Range :=
  { base := x.localBase, pages := if x.phase = .running then (x.nthr + 65536) * (x.windowBytes / 65536) else 0 }

/-- Where the pages of an allocation are homed: at a stack, or at the accessing cluster's, and whether each is charged to the quota as it
is mapped (R107, R369); or at the pseudo-channel of a bag's share (R181). -/
inductive PageHome where
  | stack (st : Option Nat) (charged : Bool)
  | share (pch : Nat)
  deriving DecidableEq, Repr

/-- The bag of an address space whose storage holds an address. -/
def ASpace.bagAt (a : ASpace) (va : Nat) : Option Bag :=
  (a.bags.find? fun e => (e.2.live || e.2.freeing.isSome) && e.2.storage.holds va).map (·.2)

/-- The valid allocation that holds an address (R232). -/
def State.allocation (s : State) (asid va : Nat) : Option PageHome :=
  let a := s.aspace asid
  match a.allocs.find? fun r => r.holds va with
  | some r => some (.stack r.home false)
  | none =>
    if a.ranges.any fun r => r.holds va then some (.stack none false)
    else if s.launches.any fun e => e.2.asid == asid && e.2.localArea.holds va then some (.stack none true)
    else (a.bagAt va).map fun b => .share (b.pch ((va - b.base) / 65536 / b.sharePages))

/-- Repair of a page that is not present (R121, R232): a zeroed page with R and W, homed as its allocation says or at the stack of
the accessing cluster, or a bag's page (R181). None when the page belongs to no valid allocation, when the quota would be passed, or when
no frame is free. -/
def State.repair (s : State) (asid va cluster : Nat) : Option State :=
  let vi := (s.aspace asid).vi
  let v := s.vi vi
  match s.allocation asid va with
  | none => none
  | some (.stack home charged) =>
    let fr := stackFrames (home.getD cluster)
    if charged && v.memQuota ≤ v.memUsed then none
    else
      match s.pickFrame vi fr.1 fr.2 false with
      | none => none
      | some f =>
        let s := { s with frames := frameKey f false :: s.frames }.zeroFrame f false
        let s := s.setVi vi { s.vi vi with memUsed := v.memUsed + (if charged then 1 else 0) }
        some (s.mapPage asid (va / 65536 * 65536) (rwEntry f))
  | some (.share p) =>
    match s.pickFrame vi (pchFrames p).1 (pchFrames p).2 true with
    | none => none
    | some f =>
      let s := { s with frames := frameKey f true :: s.frames }.zeroFrame f true
      some (s.mapPage asid (va / 65536 * 65536) (slotEntry f))

/-! ### Virtual ranges and areas that the service reserves -/

/-- The virtual address at which the service maps the mailbox page of a pseudo-channel (R210). The rule leaves it open: DESIGN CHOICE, the last
512 pages of the address space in ascending pseudo-channel (log 68). -/
def mailboxVa (p : Nat) : Nat := 2 ^ 49 - (512 - p) * 65536

/-- Ranges of an address space that are taken (R107): what ALLOC has given out, what system software has registered, mailbox pages, bags and
local areas. -/
def State.taken (s : State) (asid : Nat) : List Range :=
  let a := s.aspace asid
  a.allocs ++ a.ranges ++ ((s.vi a.vi).pcs.map fun p => ⟨mailboxVa p, 1, none⟩) ++ (a.bags.filter fun e => e.2.live || e.2.freeing.isSome).map (fun e => e.2.storage) ++
  (s.launches.filter fun e => e.2.asid == asid && e.2.localArea.pages != 0).map fun e => e.2.localArea

/-- Some page between two page numbers, in the 512 MiB that an entry of a second table covers, is mapped (R112). -/
def State.mappedIn (s : State) (root lo hi i : Nat) : Bool :=
  let e1 := s.readPhys (root + 8 * (i / 8192))
  let e2 := s.readPhys (pteFrame e1 + 8 * (i % 8192))
  pteV e1 && !malformed 1 e1 && pteV e2 &&
  (malformed 2 e2 || pteLeaf e2 || (List.range 8192).any fun j =>
    lo ≤ 8192 * i + j && 8192 * i + j < hi && pteV (s.readPhys (pteFrame e2 + 8 * j)))

/-- A range of pages is free: it lies in the 49-bit address space, meets no taken range and no mapped page. -/
def State.rangeFree (s : State) (asid base pages : Nat) : Bool :=
  let lo := base / 65536
  base + pages * 65536 ≤ 2 ^ 49 &&
  (s.taken asid).all (fun r => base + pages * 65536 ≤ r.base || r.base + r.pages * 65536 ≤ base) &&
  !((List.range (pages / 8192 + 2)).any fun k =>
    s.mappedIn (s.aspace asid).root lo (lo + pages) (lo / 8192 + k) && 8192 * (lo / 8192 + k) < lo + pages)

/-- The ends of the mapped pages of an address space, and of what a malformed entry of a second table covers (R112). -/
def State.mappedEnds (s : State) (root : Nat) : List Nat :=
  (List.range 128).flatMap fun i =>
    let e1 := s.readPhys (root + 8 * i)
    if !pteV e1 || malformed 1 e1 then []
    else (List.range 8192).flatMap fun j =>
      let e2 := s.readPhys (pteFrame e1 + 8 * j)
      if !pteV e2 then []
      else if malformed 2 e2 || pteLeaf e2 then [(8192 * i + j + 1) * 2 ^ 29]
      else (List.range 8192).filterMap fun k =>
        if pteV (s.readPhys (pteFrame e2 + 8 * k)) then some ((8192 * i + j) * 2 ^ 29 + (k + 1) * 65536) else none

/-- Where a range of pages is reserved (R107, log 10): the first free place among the one where the last reservation ended, the ends of the
taken ranges, the start of each 4 TiB that an entry of the first table covers, and the ends of mapped pages. A free range that starts nowhere else
reaches down to one of these. None when there is none. -/
def State.reserve (s : State) (asid pages : Nat) : Option Nat :=
  let ends := (s.taken asid).map fun r => (r.base + r.pages * 65536 + 65535) / 65536 * 65536
  ((s.aspace asid).nextVa :: ends ++ (List.range 128).map (2 ^ 42 * ·) ++ s.mappedEnds (s.aspace asid).root).find? fun b => s.rangeFree asid b pages

/-- n free frames for an area of an interface, charged to its quota (R239), or as many as there are. -/
def State.takeFrames (s : State) (vi : Nat) : Nat → State × List Nat
  | 0 => (s, [])
  | n + 1 =>
    match s.pickFrame vi 0 (2 ^ 23) false with
    | none => (s, [])
    | some f =>
      let v := s.vi vi
      let t : State := { s with frames := frameKey f false :: s.frames }
      let r := (t.setVi vi { v with memUsed := v.memUsed + 1 }).takeFrames vi n
      (r.1, f :: r.2)

/-- n frames are set aside for the spill and eviction areas of a launch's crews (R57, R226). -/
def State.setAside (s : State) (lid n : Nat) : State :=
  let r := s.takeFrames (s.launch lid).vi n
  r.1.setLaunch lid { r.1.launch lid with areas := (r.1.launch lid).areas ++ r.2 }

/-- The frames of a launch's brood spill area are set aside (R35), two for each unit of 256 threads (log 36). -/
def State.setBrood (s : State) (lid : Nat) : State :=
  let r := s.takeFrames (s.launch lid).vi (2 * (s.launch lid).spillUnits)
  r.1.setLaunch lid { r.1.launch lid with broodAreas := r.2 }

/-- The areas of a launch go back (R57): their frames are free again, and the quota has them. -/
def State.giveAreas (s : State) (lid : Nat) : State :=
  let x := s.launch lid
  let v := s.vi x.vi
  let fs := x.areas ++ x.broodAreas
  let s : State := { s with frames := (fs.map (frameKey · false)).foldl List.erase s.frames }
  (s.setVi x.vi { v with memUsed := v.memUsed - fs.length }).setLaunch lid { x with areas := [], broodAreas := [] }

/-! ### Translation by engines -/

/-- The translation of an engine or of the service for an access, with a page that is not present repaired first (R121). -/
def State.translateRepair (s : State) (core asid : Nat) (k : Access) (va : Nat) : State × Except Word TlbEntry :=
  let look := fun (s : State) => if va < 2 ^ 49 then s.lookupDie (dieOf core) asid va else .error causeProt
  let r : State × Except Word TlbEntry := match look s with
    | .error c =>
      if c = causeNotPresent then
        match s.repair asid va (clusterOf core) with
        | none => (s, .error c)
        | some s' => (s', look s')
      else (s, .error c)
    | .ok e => (s, .ok e)
  match r.2 with
  | .error c => (r.1, .error c)
  | .ok e =>
    if r.1.permitted k e va then
      let d := r.1.die (dieOf core)
      (r.1.setDie (dieOf core) { d with tlb := holdEntry 4096 d.tlb e }, .ok e)
    else (r.1, .error causeProt)

end Sys2Proof.Machine
end

