-- ==== Sys2Proof/Machine/Engines.lean ====
section
/-! DEFINITION. Engine commands and futures (R142, R146 to R152): slots, ownership, the writes of engines, completion. -/

namespace Sys2Proof.Machine

/-! ### Status words -/

/-- A status word of R147. -/
def statusWord (code result : Nat) : Word := BitVec.ofNat 32 (code * 2 ^ 28 + result % 2 ^ 28)
/-- DONE with a result (R147). -/
def stDone (r : Nat) : Word := statusWord 0 r
/-- CANCELLED (R147). -/
def stCancelled : Word := statusWord 1 0
/-- FAULTED (R147). -/
def stFaulted (r : Nat) : Word := statusWord 2 r
/-- POISONED (R147). -/
def stPoisoned (r : Nat) : Word := statusWord 3 r
/-- REFUSED (R147). -/
def stRefused (r : Nat) : Word := statusWord 4 r
/-- The CODE of a status word (R147). -/
def codeOf (w : Word) : Nat := w.toNat / 2 ^ 28

/-! ### Commands -/

/-- The command with an identifier. -/
def State.cmd (s : State) (id : Nat) : Option Cmd := s.cmds.find? fun c => c.id == id

/-- Replace a command. -/
def State.setCmd (s : State) (c : Cmd) : State := { s with cmds := s.cmds.map fun x => if x.id = c.id then c else x }

/-- A command issues: it takes its slot (R146) and its place in the order of acceptance. -/
def State.accept (s : State) (core slot launch asid : Nat) (tid : Word) (kind : CmdKind) (phase : CmdPhase) (bad : List Nat) :
    State :=
  let id := s.nextCmd
  let c : Cmd := { id := id, core := core, slot := slot, launch := launch, tid := tid, asid := asid, kind := kind, phase := phase, bad := bad }
  let s : State := { s with nextCmd := id + 1, cmds := s.cmds ++ [c] }
  s.setCore core ((s.core core).setSlot slot (.busy id))

/-- The send rule (R142): every older store, ATOM and placement of the lanes' threads has returned its completion time. -/
def State.sent (s : State) (ls : List Nat) : Bool :=
  let c := s.curCrew
  ls.all fun l => !s.outstanding c.launch (c.thr l).tid

/-- The status reaches every lane bound to the slot (R147). -/
def State.deliver (s : State) (core slot : Nat) (st : Nat → Word) : State :=
  { s with crews := s.crews.map fun e =>
      (e.1, if e.2.lastCore = core ∧ e.2.gone = false then
        e.2.onRegs fun _ p => p.map fun p =>
          p.onLanes fun l x => if x.slot = some slot then { x with val := st l, pend := false } else x
      else e.2) }

/-- The slots of a mask. -/
def slotsOf (m : Dword) : List Nat := (List.range 64).filter fun k => m.getLsbD k

/-- The lowest ready slot of a mask, or 64 (R150). -/
def Core.firstReady (c : Core) (m : Dword) : Nat := ((slotsOf m).find? fun k => (c.slot k).ready).getD 64

/-- A thread's wait in FUTURE ends (R19, R150): one that waits in FWANY or FWALL keeps the lowest slot that is ready in this cycle, and
goes on with its issue group (R310, R311). -/
def Thread.leaveFuture (t : Thread) (k : Core) : Thread :=
  { t.wake k.cycle with
    waitMask := if t.waitG = 0 then 0 else t.waitMask
    got := if t.waitG = 0 then none else some (k.firstReady t.waitMask), waitG := t.waitG }

/-- A thread whose wait in FWANY has ended in this cycle looks again when another slot becomes ready in it (R311). -/
def Thread.lookAgain (t : Thread) (k : Core) : Thread :=
  match t.got with
  | none => t
  | some g => if t.readySince = k.cycle then { t with got := some (min g (k.firstReady t.waitMask)) } else t

/-- Threads in FUTURE whose slots have become ready go on (R19, R150). -/
def State.wakeFutures (s : State) (core : Nat) : State :=
  let k := s.core core
  { s with crews := s.crews.map fun e =>
      (e.1, if e.2.lastCore = core ∧ e.2.gone = false then
        e.2.onThreads fun _ t =>
          if t.state = .future ∧ k.satisfies t.waitMask t.waitAll = true then t.leaveFuture k else t.lookAgain k
      else e.2) }

/-- A launch that depends on a command learns the status with which it completed, even when that status is discarded (R219). -/
def State.tellDependants (s : State) (id : Nat) (status : Word) : State :=
  { s with launches := s.launches.map fun e =>
      (e.1, { e.2 with deps := e.2.deps.map fun d => match d with
        | .command k => if k = id then .known status else d
        | _ => d }) }

/-- A command completes (R142, R147, R148): its status is written, its slot is held or frees, and the threads that wait for it go
on. Commands give one status to every lane, except a service call, whose reply differs by lane (R237). -/
def State.finish (s : State) (id : Nat) (status : Word) : State :=
  match s.cmd id with
  | none => s
  | some c =>
    let st := fun l => match c.kind with
      | .scall _ _ _ _ replies => (replies.getD l none).getD status
      | _ => status
    let s := { s with cmds := s.cmds.filter fun x => x.id != id, owned := s.owned.filter fun o => o.cmd != id }
    let s := (s.deliver c.core c.slot st).tellDependants id status
    let s := s.setCore c.core ((s.core c.core).setSlot c.slot (.held status))
    (s.wakeFutures c.core).settleCore c.core

/-- The writes of a command are done: it completes once DTIME has passed its completion time (R142). -/
def State.written (s : State) (c : Cmd) (ct : Nat) (status : Word) : State :=
  let x := s.launch c.launch
  let s : State := { s with owned := s.owned.filter fun o => o.cmd != c.id }
  (s.setCmd { c with phase := .written ct status }).setLaunch c.launch { x with maxCt := max x.maxCt ct }

/-- Add to a trigger counter (R152). -/
def State.bump (s : State) (core n v : Nat) : State :=
  let c := s.core core
  s.setCore core { c with trig := setAt 16 0 c.trig n (c.trig.getD n 0 + BitVec.ofNat 32 v) }

/-- Whether the second half of a completion may happen: the command has written and DTIME has passed its completion time, or it
wrote nothing that has one (R142). -/
def CmdPhase.passed (p : CmdPhase) (dtime : Nat) : Option Word :=
  match p with
  | .written ct st => if ct = 0 ∨ ct < dtime then some st else none
  | _ => none

/-! ### What engines read and write -/

/-- A byte that an engine writes, at an address, with its poison. -/
structure EByte where
  addr : Nat
  val : Byte
  bad : Bool := false
  deriving DecidableEq, Repr

/-- The units of a size that a list of bytes touches, each with whether it is covered whole and clean, and whether a byte of it is
poisoned. -/
def units (size : Nat) (ws : List EByte) : List (Nat × Bool × Bool) :=
  (ws.map fun w => w.addr / size).dedup.map fun u =>
    let mine := ws.filter fun w => w.addr / size == u
    let bad := mine.any (·.bad)
    (u, !bad && (List.range size).all fun i => mine.any fun w => w.addr % size == i, bad)

/-- The poison marks of units after an engine's write (R123, R126). -/
def remark (size : Nat) (bad : List Nat) (ws : List EByte) : List Nat :=
  (units size ws).foldl (fun bad u =>
    if u.2.2 then (if bad.contains u.1 then bad else bad ++ [u.1])
    else if u.2.1 then bad.filter (· != u.1) else bad) bad

/-- The last writes of the sectors that an engine's bytes touch (R141): in each, the bytes written, their number as the size (log 65), and
the completion time of its line. -/
def State.engineNote (s : State) (ws : List EByte) : Tab LastWrite :=
  ((ws.map fun w => sectorOf w.addr).filter fun u => !isHost (64 * u)).dedup.foldl (fun t u =>
    let mine := ((ws.filter fun w => sectorOf w.addr == u).map fun w => w.addr % 64).dedup
    tset t u ⟨BitVec.ofNat 64 (mine.map (2 ^ ·)).sum, mine.length, max s.dtime (s.horizonOf (u / 4))⟩) s.lastWrite

/-- Bytes written by an engine at their homes (R142): the bytes, the poison of 8-byte words (R126), the mark of R129 for every
line, the last write of every sector (R141), and the largest of the lines' completion times max(release, H). -/
def State.engineMem (s : State) (ws : List EByte) : State × Nat :=
  let lines := (ws.map fun w => lineOf w.addr).dedup
  let s1 := { s with
    mem := ws.foldl (fun m w => Memory.write m w.addr w.val) s.mem, bad := remark 8 s.bad ws, lastWrite := s.engineNote ws }
  (lines.foldl (fun s l => s.markLine l) s1,
    lines.foldl (fun ct l => if isHost (l * 256) then ct else max ct (max s.dtime (s.horizonOf l))) 0)

/-- The writes of a command to global memory: those to host memory have still to be acknowledged by the host (R218). -/
def State.engineWrite (s : State) (c : Cmd) (ws : List EByte) : State × Nat :=
  let m := s.engineMem ws
  if ws.any fun w => isHost w.addr then ({ m.1 with hostPending := m.1.hostPending ++ [⟨c.launch, c.tid, true⟩] }, m.2) else m

/-- Bytes written by an engine into a launch's scratch (R123). -/
def Window.engineScratch (w : Window) (ws : List EByte) : Window :=
  { w with scratch := ws.foldl (fun m b => Memory.write m b.addr b.val) w.scratch, scratchBad := remark 64 w.scratchBad ws }

/-- Bytes of a scratch window with their poison. -/
def Window.engineRead (w : Window) (off n : Nat) : List EByte :=
  (List.range n).map fun i => ⟨off + i, Memory.read w.scratch (off + i), w.bad (off + i)⟩

/-- Bytes that one command both reads and writes are undefined (R153): they take free values. Bytes that it writes twice keep the
last write (R241). -/
def undefineOverlap (fresh : Nat) (reads : List Nat) (ws : List EByte) : List EByte :=
  ws.zipIdx.map fun e =>
    if reads.contains e.1.addr then { e.1 with val := Config.freeByte (fresh + e.2) } else e.1

/-- n bytes of global memory for an engine, with repair (R121): cells with values and poison, or the cause. -/
def State.engineLoad (s : State) (core asid va n : Nat) : State × Except Word (List EByte) :=
  match s.translateRepair core asid .read va with
  | (s, .error c) => (s, .error c)
  | (s, .ok e) =>
    let r := s.homeRead e va n
    (s, .ok (r.1.zipIdx.map fun b => ⟨e.cell va + b.2, b.1, r.2⟩))

/-- Where n bytes of global memory lie that an engine writes, with repair (R121). -/
def State.engineCells (s : State) (core asid va n : Nat) : State × Except Word (List Nat) :=
  match s.translateRepair core asid .write va with
  | (s, .error c) => (s, .error c)
  | (s, .ok e) => (s, .ok ((List.range n).map fun i => e.cell va + i))

/-- Bytes at a virtual address that may span pages, read in pieces that an aligned access may have (R110). -/
def State.engineRecord (s : State) (core asid va : Nat) : Nat → State × Except Word (List EByte)
  | 0 => (s, .ok [])
  | n + 1 =>
    match s.engineLoad core asid va 8 with
    | (s, .error c) => (s, .error c)
    | (s, .ok bs) =>
      match s.engineRecord core asid (va + 8) n with
      | (s, .error c) => (s, .error c)
      | (s, .ok rest) => (s, .ok (bs ++ rest))

/-- The bytes of a string that PRINT may read (R369). -/
def stringVas (va : Nat) : List Nat := (List.range 256).map (va + ·)

/-- The virtual addresses that the service accesses for the lane of a call that it serves next (R177, R238, R369). -/
def CmdKind.serviceVas : CmdKind → List Nat
  | .scall n g _ reqs replies =>
    match (lanesOf g).find? fun l => (replies.getD l none).isNone with
    | none => []
    | some l =>
      let f := reqs.getD l []
      if n = 1 then [field f 8 8]
      else if n = 0x10 then (List.range 4).map fun i => field f 0 8 + 8 * i
      else if n = 0x20 then stringVas (field f 0 8)
      else []
  | _ => []

/-- Run an operation over a list, from the first entry to the last. -/
def State.mapM {α β : Type} (f : State → α → State × β) : State → List α → State × List β
  | s, [] => (s, [])
  | s, x :: xs =>
    let r := f s x
    let rs := r.1.mapM f xs
    (rs.1, r.2 :: rs.2)

/-- The lines that now hold the given virtual addresses, which a command owns from its issue (R142, log 19). -/
def State.lines (s : State) (core asid : Nat) (vas : List Nat) : List Owned :=
  ((vas.filterMap fun va =>
    match if va < 2 ^ 49 then s.lookupDie (dieOf core) asid va else .error causeProt with
    | .error _ => none
    | .ok e => if s.permitted .write e va then some (lineOf (e.cell va)) else none).dedup).map fun l => ⟨l * 256, 256, 0⟩

/-- The order in which two commands came to own a line is the order in which they write it (R294): nothing that was owned before the command's
own lines overlaps them. -/
def State.mayWrite (s : State) (id : Nat) : Bool :=
  (s.owned.filter fun o => o.cmd == id).all fun o =>
    (s.owned.takeWhile fun p => p.cmd != id).all fun p => o.addr + o.len ≤ p.addr || p.addr + p.len ≤ o.addr

/-- A command that has written completes (R142, R154): its trigger counter is bumped and its status delivered. -/
def State.conclude (s : State) (c : Cmd) (status : Word) : State :=
  let s := match c.kind with
    | .copy _ _ _ h (some n) => if codeOf status = 0 ∨ codeOf status = 3 then s.bump c.core n h.rows else s
    | _ => s
  s.finish c.id status

/-- The second half of a command's completion (R142). -/
def State.concluded (s : State) (c : Cmd) : Option State := (c.phase.passed s.dtime).map fun st => s.conclude c st

/-! ### Dependences of launches -/

/-- The core of a launch's engine accesses: that of its LAUNCH, or core 0 for a queue's (log 41). -/
def State.launchCore (s : State) (x : Launch) : Nat :=
  match x.parent with
  | some (_, id) => ((s.cmd id).map (·.core)).getD 0
  | none => 0

/-- A number of bytes that an engine reads, when none of them faults or is poisoned. -/
def cleanBytes (r : Except Word (List EByte)) : Option (List Byte) :=
  match r with
  | .error _ => none
  | .ok bs => if bs.any (·.bad) then none else some (bs.map (·.val))

/-- How a dependence stands (R219). -/
inductive DepState where
  | met | waits | other | faulted
  deriving DecidableEq, Repr

/-- The judgement of a status. -/
def judge (status : Word) : DepState := if codeOf status = 0 then .met else .other

/-- A dependence is judged (R219); an event word is read through the launch's address space. -/
def State.judgeDep (s : State) (x : Launch) (d : Dep) : State × DepState :=
  match d with
  | .none => (s, .met)
  | .command _ => (s, .waits)
  | .known st => (s, judge st)
  | .event a =>
    if !s.servesVas (s.launchCore x) x.asid [a] then (s, .waits) else
    let r := s.engineLoad (s.launchCore x) x.asid a 8
    match cleanBytes r.2 with
    | none => (r.1, .faulted)
    | some f => (r.1, if field f 0 8 / 2 ^ 63 = 0 then .waits else judge (BitVec.ofNat 32 (field f 0 4)))

/-- Every dependence of a launch is met (R219): a LAUNCH then counts as started (R304). -/
def State.depsMet (s : State) (x : Launch) : Bool := x.deps.all fun d => (s.judgeDep x d).2 == .met

/-! ### Shape records -/

/-- A shape record from its 32 bytes (R159). -/
def shapeOf (f : List Byte) : Shape :=
  { base := field f 0 4, rows := field f 4 2, cols := field f 6 2, rowStride := signedNat (field f 8 4) 32
    elemStride := field f 12 2, format := field f 14 1, flags := field f 15 1, scaleOff := field f 16 2
    clean := field f 15 1 == 0 && (f.drop 18).all (· == 0) }

/-! ### Commands of each lane -/

/-- Registers that hold a future. -/
def opsFuture (d : Reg) (a b : List Nat) : Operands := { a := a, b := b, dst := [d.toNat], visible := true }

/-- What a lane's command is to be: a precise trap, or the command with its first phase, its record's poison, and the virtual addresses that it
writes in global memory. -/
inductive LaneCmd where
  | trap (cause : Word) (va : Dword)
  | cmd (kind : CmdKind) (phase : CmdPhase) (bad : List Nat) (dst : List Nat)

/-- The pages of an engine's destination that are not present are repaired (R121), so that their lines have a home. -/
def State.repairWrites (s : State) (core asid : Nat) (vas : List Nat) : State :=
  ((vas.map (· / 65536)).dedup).foldl (fun s p => (s.translateRepair core asid .write (p * 65536)).1) s

/-- A command takes ownership of the lines that it will write (R142, R294). -/
def State.own (s : State) (id core asid : Nat) (vas : List Nat) : State :=
  let s := s.repairWrites core asid vas
  { s with owned := s.owned ++ (s.lines core asid vas).map fun o => { o with cmd := id } }

/-- One command per lane (R146): lanes that trap issue none; the others take free slots. Which one a command takes no rule says: DESIGN CHOICE, the
lowest free one, in ascending lane order (log 84). -/
def State.laneCommands (s : State) (mk : Nat → LaneCmd) : List Nat → List Nat → State × Tab Eff
  | [], _ => (s, [])
  | l :: ls, slots =>
    match mk l with
    | .trap c va =>
      let r := s.laneCommands mk ls slots
      (r.1, (l, trapped c va) :: r.2)
    | .cmd kind phase bad dst =>
      let k := slots.headD 0
      let c := s.curCrew
      let asid := s.curLaunch.asid
      let t := (s.accept s.curCore k c.launch asid (c.thr l).tid kind phase bad).own s.nextCmd s.curCore asid dst
      let r := t.laneCommands mk ls slots.tail
      (r.1, (l, { w := [future k] }) :: r.2)

/-- A lane that is to issue a command. -/
def LaneCmd.issues : LaneCmd → Bool
  | .trap .. => false
  | .cmd .. => true

/-- An instruction that issues one command per lane of G (R142, R146, R149): it waits for the send rule, until what it reads itself in a lane can
be served (R209), and for slots. -/
def State.perLaneWhen (s : State) (o : Operands) (served : State → Nat → Bool) (mk : State → Nat → LaneCmd) : State :=
  s.issue o fun s g =>
    let ls := lanesOf g
    let slots := (s.core s.curCore).freeSlots
    if !s.sent ls then .wait 16
    else if !ls.all (served s) then .wait 4
    else if slots.length < ls.countP fun l => (mk s l).issues then .wait 16
    else
      let r := s.laneCommands (mk s) ls slots
      .done r.1 (perLane fun l => tget {} r.2 l)

/-- An instruction that issues one command per lane of G and reads no DRAM itself. -/
def State.perLaneEngine (s : State) (o : Operands) (mk : State → Nat → LaneCmd) : State := s.perLaneWhen o (fun _ _ => true) mk

/-- The leader lane of an issue group: the lowest lane of G (R161). -/
def leaderOf (g : Mask) : Nat := (lanesOf g).headD 0

/-- An instruction that issues one command for its issue group, with its operands in the leader lane (R146, R161): the slot is
bound in every lane of G. full says whether the command has to wait for queue room (R166, R168). -/
def State.groupEngine (s : State) (o : Operands) (mk : State → Nat → LaneCmd) (full : State → CmdKind → Bool) : State :=
  s.issue o fun s g =>
    let ls := lanesOf g
    let l := leaderOf g
    let slots := (s.core s.curCore).freeSlots
    if !s.sent ls then .wait 16
    else
      match mk s l with
      | .trap c va => .done s (perLane fun _ => trapped c va)
      | .cmd kind phase bad dst =>
        if full s kind && phase == .queued then .wait 9
        else if slots.isEmpty then .wait 16
        else
          let k := slots.headD 0
          let c := s.curCrew
          let asid := s.curLaunch.asid
          .done ((s.accept s.curCore k c.launch asid (c.thr l).tid kind phase bad).own s.nextCmd s.curCore asid dst)
            (perLane fun _ => { w := [future k] })

end Sys2Proof.Machine
end

