-- ==== Sys2Proof/Machine/Futures.lean ====
section
/-! DEFINITION. Futures, trigger counters, the copy engine and FETCH, 0xb0 to 0xb6 and 0xb8 to 0xba (R150 to R156, R292 to R296,
R304, R308, R310, R311, R314, R315). -/

namespace Sys2Proof.Machine

/-! ### Testing and waiting -/

/-- FWAIT (R150, R315). -/
def execFwait (d a : Reg) (t : Bool) (s : State) : Host.Outcome State Fault Refusal :=
  .next (s.alu { a := [a.toNat], dst := [d.toNat] } fun c l =>
    let v := c.rd a.toNat l
    if t && codeOf v != 0 then trapped causeFuture 0 else { w := [live v] })

/-- The word that FTEST writes (R150, R314). -/
def testWord (x : Lane) : Word :=
  match x.slot with
  | none => 0xc0000000
  | some k => BitVec.ofNat 32 ((if x.pend then 0 else 2 ^ 31) + k)

/-- FTEST (R150, R314). -/
def execFtest (d a : Reg) (s : State) : Host.Outcome State Fault Refusal :=
  .next (s.alu { a := [a.toNat], dst := [d.toNat], peek := true } fun c l => { w := [live (testWord (c.lane a.toNat l))] })

/-- FFIRST (R150, R310). -/
def execFfirst (d a : Reg) (s : State) : Host.Outcome State Fault Refusal :=
  .next (s.alu { a := pairRegs a, dst := [d.toNat] } fun c l =>
    { w := [live (BitVec.ofNat 32 ((s.core s.curCore).firstReady (c.rd2 a.toNat l)))] })

/-- FWANY and FWALL (R150, R310, R311): each lane of G waits in FUTURE until its own condition holds; a lane whose wait has ended keeps the
slot that ended it, and the issue group goes on when every lane of G has finished waiting. -/
def State.waitSlots (s : State) (o : Operands) (all : Bool) (a : Reg) (w : Nat → List Lane) : State :=
  s.issue o fun s g =>
    let c := s.curCrew
    let k := s.core s.curCore
    let m := fun l => c.rd2 a.toNat l
    let got := fun l => (c.thr l).got.getD (k.firstReady (m l))
    let waits := maskOf fun l => g.getLsbD l && (c.thr l).got.isNone && m l != 0 && !k.satisfies (m l) all
    if waits = 0 then .done s (perLane fun l => { w := w (got l) })
    else
      let c := (c.onMask s.cur.mask fun l t => { t with got := some (got l), waitMask := 0 }).onMask waits fun _ t => { t with got := none }
      .hold (s.setCrew s.cur.crew ((c.await waits all m).onMask s.cur.mask fun _ t => { t with waitG := g })) s.cur.mask

/-- FWANY (R150, R310). -/
def execFwany (d a : Reg) (s : State) : Host.Outcome State Fault Refusal :=
  .next (s.waitSlots { a := pairRegs a, dst := [d.toNat] } false a fun k => [live (BitVec.ofNat 32 k)])
/-- FWALL (R150, R310). -/
def execFwall (a : Reg) (s : State) : Host.Outcome State Fault Refusal :=
  .next (s.waitSlots { a := pairRegs a } true a fun _ => [])

/-- A LAUNCH whose dependences are not yet met is cancelled (R219, R304): it never starts, and completes CANCELLED. One that has not yet left
its core, or not been accepted, has not started. -/
def State.cancelLaunch (s : State) (lid : Nat) : State :=
  let x := s.launch lid
  match x.phase with
  | .sending => s.setLaunch lid { x with phase := .closing stCancelled }
  | .accepted => if s.depsMet x then s else s.setLaunch lid { x with phase := .closing stCancelled }
  | _ => s

/-- Whether a command can still be cancelled (R150, R304): it has not started, and it is of a kind that starts after its issue. -/
def Cmd.cancellable (c : Cmd) : Bool :=
  c.phase == .queued &&
  match c.kind with
  | .nmarm .. | .nmdisarm .. | .scall .. => false
  | _ => true

/-- A command that has not started is cancelled, if it can be (R304). -/
def State.cancelCmd (s : State) (c : Cmd) : State :=
  if c.cancellable then
    match c.kind with
    | .launch lid => s.cancelLaunch lid
    | _ => s.finish c.id stCancelled
  else s

/-- Cancel the command of a slot, if it can be (R304). -/
def State.cancelSlot (s : State) (core slot : Nat) : State :=
  match (s.core core).slot slot with
  | .busy id =>
    match s.cmd id with
    | some c => s.cancelCmd c
    | none => s
  | _ => s

/-- FCANCEL (R150, R304). -/
def execFcancel (a : Reg) (s : State) : Host.Outcome State Fault Refusal :=
  .next (s.issue { a := [a.toNat], peek := true } fun s g =>
    let c := s.curCrew
    let ks := (lanesOf g).filterMap fun l => if (c.lane a.toNat l).pend then (c.lane a.toNat l).slot else none
    .done (ks.foldl (fun s k => s.cancelSlot s.curCore k) s) [])

/-! ### Trigger counters -/

/-- A change of a trigger counter by every lane of G, in ascending order (R152). -/
def State.counterOp (s : State) (n : BitVec 4) (a : Reg) (f : Word → Word → Word) : State :=
  s.issue { a := [a.toNat], visible := true } fun s g =>
    let c := s.core s.curCore
    let v := (lanesOf g).foldl (fun v l => f v (s.curCrew.rd a.toNat l)) (c.trig.getD n.toNat 0)
    .done (s.setCore s.curCore { c with trig := setAt 16 0 c.trig n.toNat v }) []

/-- CTSET (R152, R296). -/
def execCtset (n : BitVec 4) (a : Reg) (s : State) : Host.Outcome State Fault Refusal := .next (s.counterOp n a fun _ v => v)
/-- CTADD (R152, R296). -/
def execCtadd (n : BitVec 4) (a : Reg) (s : State) : Host.Outcome State Fault Refusal := .next (s.counterOp n a fun c v => c + v)

/-! ### COPY -/

/-- The record, the strides or the addresses make the command complete REFUSED (R153, R293). -/
def copyRefused (dir src dst : Nat) (h : Shape) : Bool :=
  let n := copySize h.format
  6 < h.format || h.rows == 0 || h.cols == 0 || h.elemStride == 0 || h.elemStride % n != 0 ||
  (copyElems dir src dst h).any fun e => e.2.1 % n != 0 || e.2.2 % n != 0

/-- The operands of COPY (R292). -/
def opsCopy (d a b : Reg) (dir : BitVec 2) : Operands :=
  opsFuture d (if dir = 1 then [a.toNat] else pairRegs a) (if dir = 0 then [b.toNat] else pairRegs b)

/-- The value of a base: one register for scratch, a pair otherwise (R292). -/
def Crew.base (c : Crew) (scratch : Bool) (r : Reg) (l : Nat) : Nat :=
  if scratch then (c.rd r.toNat l).toNat else (c.rd2 r.toNat l).toNat

/-- One lane of COPY: the checks of R293 in their order. -/
def State.copyLane (s : State) (a b : Reg) (dir : BitVec 2) (shape : Nat) (ctr : Option Nat) (l : Nat) : LaneCmd :=
  let c := s.curCrew
  let w := (s.core s.curCore).window c.launch
  let src := c.base (dir == 1) a l
  let dst := c.base (dir == 0) b l
  if w.bytes < shape + 32 then .trap causeScratch (BitVec.ofNat 64 shape)
  else
    let h := shapeOf (w.read shape 32)
    let kind := fun ctr => CmdKind.copy dir.toNat (BitVec.ofNat 64 src) (BitVec.ofNat 64 dst) h ctr
    if copyRefused dir.toNat src dst h then .cmd (kind none) (.written 0 (stRefused 0)) [] []
    else
      let es := copyElems dir.toNat src dst h
      let n := copySize h.format
      let side := if dir = 0 then es.map (·.2.2) else if dir = 1 then es.map (·.2.1) else []
      match side.find? fun x => x < 0 || (w.bytes : Int) < x + n with
      | some x => .trap causeScratch (BitVec.ofNat 64 ((x % 2 ^ 32).toNat))
      | none =>
        .cmd (kind ctr) .queued (if w.bad shape then [1] else []) (if dir = 0 then [] else es.map fun e => vaOf e.2.2)

/-- COPY (R153, R292, R293, R294). -/
def execCopy (d a b : Reg) (dir : BitVec 2) (shape : BitVec 20) (n : BitVec 4) (t : Bool) (s : State) :
    Host.Outcome State Fault Refusal :=
  .next (s.perLaneEngine (opsCopy d a b dir) fun s l =>
    s.copyLane a b dir shape.toNat (if t then some n.toNat else none) l)

/-- What an element's source delivers: its bytes, or none when an access faults. -/
def State.copyRead (s : State) (c : Cmd) (scratch : Bool) (n : Nat) (x : Int) : State × Option (List EByte) :=
  if scratch then (s, some (((s.core c.core).window c.launch).engineRead x.toNat n))
  else
    let r := s.engineLoad c.core c.asid (vaOf x) n
    (r.1, r.2.toOption)

/-- Where an element goes: its cells, or none when an access faults. -/
def State.copyCells (s : State) (c : Cmd) (scratch : Bool) (n : Nat) (x : Int) : State × Option (List Nat) :=
  if scratch then (s, some ((List.range n).map fun i => x.toNat + i))
  else
    let r := s.engineCells c.core c.asid (vaOf x) n
    (r.1, r.2.toOption)

/-- An element as the engine sees it: its row, its source bytes and its destination cells, each when its access does not fault. -/
structure CopyElem where
  row : Nat := 0
  src : Option (List EByte) := none
  dst : Option (List Nat) := none
  deriving DecidableEq, Repr

/-- Neither access of an element faults. -/
def CopyElem.sound (e : CopyElem) : Bool := e.src.isSome && e.dst.isSome

/-- The engine looks at one element of a copy. -/
def State.copyElem (s : State) (c : Cmd) (dir n : Nat) (e : Nat × Int × Int) : State × CopyElem :=
  let r := s.copyRead c (dir == 1) n e.2.1
  let w := r.1.copyCells c (dir == 0) n e.2.2
  (w.1, { row := e.1, src := r.2, dst := w.2 })

/-- The bytes that a copy's element writes. -/
def elemBytes (allBad : Bool) (bs : List EByte) (cells : List Nat) : List EByte :=
  (bs.zip cells).map fun e => ⟨e.2, e.1.val, e.1.bad || allBad⟩

/-- A copy runs (R154): its reads and writes, the completion time and the status. Of a copy that faults, each row that can be
written may or may not have been (log 15). No rule orders the rows of one command: DESIGN CHOICE, every source byte is read before any is written
(log 85). -/
def State.copyRun (s : State) (c : Cmd) (dir : Nat) (src dst : Dword) (h : Shape) : State :=
  let n := copySize h.format
  let r := s.mapM (fun s e => s.copyElem c dir n e) (copyElems dir src.toNat dst.toNat h)
  let s := r.1
  let faulty := fun row => r.2.any fun e => e.row == row && !e.sound
  let fault := (List.range h.rows).find? faulty
  let written := fun row => fault.isNone || (!faulty row && Config.freeChoice (s.fresh + row))
  let ws := (r.2.filter fun e => written e.row).flatMap fun e => elemBytes (c.bad != []) (e.src.getD []) (e.dst.getD [])
  let reads := if dir = 2 then r.2.flatMap fun e => (e.src.getD []).map (·.addr) else []
  let ws := undefineOverlap (s.fresh + h.rows) reads ws
  let status := match fault with
    | some row => stFaulted row
    | none => if ws.any (·.bad) then stPoisoned h.rows else stDone h.rows
  let s : State := { s with fresh := s.fresh + h.rows + ws.length }
  if dir = 0 then
    let w := (s.core c.core).window c.launch
    (s.setWindow c.core (w.engineScratch ws)).written c 0 status
  else
    let m := s.engineWrite c ws
    m.1.written c m.2 status

/-- The two steps of a copy's completion: its writes, once it is its turn at their homes (R294), and the delivery of its status
(R142). A refused command has only the second. -/
def State.copyComplete (s : State) (id : Nat) : Option State :=
  match s.cmd id with
  | none => none
  | some c =>
    match c.kind, c.phase with
    | .copy dir src dst h _, .queued => if s.mayWrite id && s.servesCmd c then some (s.copyRun c dir src dst h) else none
    | .copy .., _ => s.concluded c
    | _, _ => none

/-- COPY_COMPLETE (R154). -/
def execCopyComplete (id : Nat) (s : State) : Host.Outcome State Fault Refusal := .next ((s.copyComplete id).getD s)

/-! ### FETCH -/

/-- A namespace is bound only with these data sizes (R308). -/
def QPair.bound (q : QPair) : Bool := q.lba == 512 || q.lba == 4096

/-- The record breaks R155's table, or its namespace is not the bound one (R156, R308). -/
def fetchRefused (q : QPair) (f : List Byte) : Bool :=
  field f 0 4 != q.nsid || field f 4 4 == 0 || 65536 < field f 4 4 || field f 16 8 % 256 != 0 || (f.drop 24).any (· != 0)

/-- The queue pair of an interface (R155), when it is bound. -/
def Vi.pair (v : Vi) (q : Nat) : Option QPair := ((v.qps.find? fun e => e.1 == q).map (·.2)).filter QPair.bound

/-- The interface of a command. -/
def State.cmdVi (s : State) (c : Cmd) : Nat := (s.aspace c.asid).vi

/-- The request of a fetch record of 32 bytes, for a namespace of the pair (R155). -/
def fetchReq (p : QPair) (f : List Byte) (bad : Bool) : FetchReq :=
  { count := field f 4 4, first := field f 8 8, size := p.lba, dst := field f 16 8, bad := bad }

/-- The destination that a FETCH's record names as it issues, whose lines it then owns (R142, R308). -/
def State.fetchDst (s : State) (core asid q va : Nat) : List Nat :=
  match (s.vi (s.aspace asid).vi).pair q, (s.engineLoad core asid va 32).2 with
  | some p, .ok bs =>
    let f := bs.map (·.val)
    if fetchRefused p f then [] else (fetchReq p f false).lineVas
  | _, _ => []

/-- One lane of FETCH (R308). -/
def State.fetchLane (s : State) (q : BitVec 4) (a : Reg) (l : Nat) : LaneCmd :=
  let va := s.curCrew.rd2 a.toNat l
  if va.toNat % 32 != 0 then .trap causeMisalign va
  else .cmd (.fetch q.toNat va none) .queued [] (s.fetchDst s.curCore s.curLaunch.asid q.toNat va.toNat)

/-- FETCH (R156, R308). -/
def execFetch (d a : Reg) (q : BitVec 4) (s : State) : Host.Outcome State Fault Refusal :=
  .next (s.perLaneWhen (opsFuture d (pairRegs a) [])
    (fun s l => s.servesVas s.curCore s.curLaunch.asid [(s.curCrew.rd2 a.toNat l).toNat]) fun s l => s.fetchLane q a l)

/-- The Read commands of a FETCH (R156): count blocks from the first LBA on, at most m in each. -/
def splitReads (cmd nsid first m count : Nat) : List NvmeRead :=
  (List.range ((count + m - 1) / m)).map fun i => { nsid := nsid, slba := first + i * m, blocks := min m (count - i * m), cmd := cmd }

/-- Change a queue pair of a command's interface. -/
def State.onPair (s : State) (c : Cmd) (q : Nat) (f : QPair → QPair) : State :=
  let vi := s.cmdVi c
  s.setVi vi { s.vi vi with qps := tset (s.vi vi).qps q (f (tget {} (s.vi vi).qps q)) }

/-- The lines of a command's destination that it does not own yet. -/
def State.ownMore (s : State) (c : Cmd) (vas : List Nat) : State :=
  let mine := (s.owned.filter fun o => o.cmd == c.id).map (·.addr)
  let s := s.repairWrites c.core c.asid vas
  { s with owned := s.owned ++ ((s.lines c.core c.asid vas).filter fun o => !mine.contains o.addr).map fun o => { o with cmd := c.id } }

/-- The engine begins a FETCH (R156, R308): an unbound pair is refused; the record is read and judged; the destination's pages are repaired
(R121) and such of its lines owned as were not when it issued (R142); and the Read commands go into the submission queue, whose doorbell is rung. -/
def State.fetchStart (s : State) (c : Cmd) (q : Nat) (record : Dword) : State :=
  match (s.vi (s.cmdVi c)).pair q with
  | none => s.written c 0 (stRefused 0)
  | some p =>
    let r := s.engineLoad c.core c.asid record.toNat 32
    match r.2 with
    | .error _ => r.1.written c 0 (stFaulted 0)
    | .ok bs =>
      let f := bs.map (·.val)
      if fetchRefused p f then r.1.written c 0 (stRefused 0)
      else
        let req := fetchReq p f (bs.any (·.bad))
        let s := r.1.ownMore c req.lineVas
        let reads := splitReads c.id p.nsid req.first (max 1 (Config.maxBlocks p.ctrl)) req.count
        (s.setCmd { c with kind := .fetch q record (some req), phase := .started }).onPair c q fun p =>
          { p with sq := p.sq ++ reads, sqTail := p.sqTail + reads.length }

/-- The cells of each block of a FETCH's destination, none for a block that has a faulting line (R121). -/
def State.fetchCells (s : State) (c : Cmd) (r : FetchReq) : State × List (Option (List Nat)) :=
  let w := s.mapM (fun s va => s.engineCells c.core c.asid va 256) r.lineVas
  let n := r.size / 256
  (w.1, (List.range r.count).map fun i =>
    let ls := (w.2.drop (i * n)).take n
    if ls.all fun x => x.toOption.isSome then some (ls.flatMap fun x => x.toOption.getD []) else none)

/-- The bytes that a FETCH writes: every block; or, when it faults, such blocks as free choices pick among those that can be written whole,
with free values in place of data that the controller has not vouched for (R156, log 15). -/
def fetchBytes (r : FetchReq) (good sound : Bool) (fresh : Nat) (blocks : List (Option (List Nat))) (data : List Byte) : List EByte :=
  blocks.zipIdx.flatMap fun b => match b.1 with
    | none => []
    | some cells =>
      if good || Config.freeChoice (fresh + b.2) then
        cells.zipIdx.map fun e => ⟨e.1,
          if sound then data.getD (b.2 * r.size + e.2) 0 else Config.freeByte (fresh + r.count + b.2 * r.size + e.2), r.bad⟩
      else []

/-- The controller has completed the Reads of a FETCH (R156): it has delivered data, and a status, which the device reads in the completion
queue, whose doorbell it rings; the blocks are written. None when the data are not those of the record, or an earlier owner has still to write
(R294). -/
def State.fetchRun (s : State) (c : Cmd) (q : Nat) (r : FetchReq) (data : List Byte) (status : Nat) : Option State :=
  if data.length != r.count * r.size || !s.mayWrite c.id || !s.servesCmd c then none
  else
    let w := s.fetchCells c r
    let s := w.1
    let fault := w.2.any Option.isNone
    let ws := fetchBytes r (!fault && status == 0) (status == 0) s.fresh w.2 data
    let s : State := { s with fresh := s.fresh + r.count + r.count * r.size }
    let st := if fault then stFaulted 0
      else if status != 0 then stFaulted (status % 2 ^ 11)
      else if r.bad then stPoisoned r.count else stDone r.count
    let m := s.engineWrite c ws
    some ((m.1.onPair c q fun p =>
      { p with sq := p.sq.filter fun e => e.cmd != c.id, cqHead := p.cqHead + p.sq.countP fun e => e.cmd == c.id }).written c m.2 st)

/-- An earlier FETCH of the same queue pair has still to be submitted (R308). -/
def State.fetchBehind (s : State) (c : Cmd) (q : Nat) : Bool :=
  s.cmds.any fun d => decide (d.id < c.id) && d.phase == .queued && s.cmdVi d == s.cmdVi c && (match d.kind with
    | .fetch k _ _ => k == q
    | _ => false)

/-- The three steps of a fetch (R142, R156): it starts, its data arrive and are written, and its status is delivered. -/
def State.fetchComplete (s : State) (id : Nat) (data : List Byte) (status : Nat) : Option State :=
  match s.cmd id with
  | none => none
  | some c =>
    match c.kind, c.phase with
    | .fetch q record _, .queued => if s.fetchBehind c q || !s.servesCmd c then none else some (s.fetchStart c q record)
    | .fetch q _ (some r), .started => s.fetchRun c q r data status
    | .fetch .., _ => s.concluded c
    | _, _ => none

/-- FETCH_COMPLETE (R156). -/
def execFetchComplete (id : Nat) (data : List Byte) (status : BitVec 11) (s : State) : Host.Outcome State Fault Refusal :=
  .next ((s.fetchComplete id data status.toNat).getD s)

end Sys2Proof.Machine
end

