-- ==== Sys2Proof/Machine/Bags.lean ====
section
/-! DEFINITION. Bags: BPUT, BTAKE, BDRAIN, BSCAN, BCOUNT and BINFO, 0xc8 to 0xcd, reservations, placements and drains (R144,
R177 to R193, R275, R276, R280, R282, R285, R286). -/

namespace Sys2Proof.Machine

/-! ### Bags and shares -/

/-- n(s) of R185: the resident count and the placements on their way. -/
def Share.n (h : Share) : Nat := h.c + h.queue.length
/-- A placement of the share is in progress (R187). -/
def Share.placing (h : Share) : Bool := h.queue.any fun p => p.written.isSome

/-- The bag that a handle names, when it meets R178: its index. -/
def State.handle (s : State) (asid : Nat) (h : Dword) : Option Nat :=
  let lo := (loWord h).toNat
  let hi := (hiWord h).toNat
  let b := s.bag asid (lo % 4096)
  if hi == asid && b.live && b.gen == lo / 4096 then some (lo % 4096) else none

/-- Where a slot lies, for the placement engine, a take or a drain of a core: a page that is not present is repaired first (R121), and the
slot is read and written under the bag's own authority (R181), but never in a code-locked frame (R75) or in a sealed page (R114, R209). -/
def State.slotPlace (s : State) (core asid va : Nat) : State × Except Word Nat :=
  match s.translateRepair core asid .read va with
  | (s, .error c) => (s, .error c)
  | (s, .ok e) => if s.codeLocked (e.pa va) || pteSeal e.leaf then (s, .error causeProt) else (s, .ok (e.cell va))

/-! ### Placement -/

/-- place_record of R185: the share that receives a record. -/
def Bag.target (b : Bag) (key : Word) : Nat :=
  if b.count = 1 then 0
  else
    let h := ((key &&& b.mask).toNat * 0x9e3779b1) % 2 ^ 32
    let aff := h / 2 ^ (32 - b.log2)
    let n := fun i => (b.share i).n
    let all := List.range b.count
    let cs := if b.domain = 2 then all.filter fun i => i / 64 == aff / 64 else all
    let lo := ((cs.map n).min?).getD 0
    if n aff < lo + b.slack && n aff < b.q then aff
    else if cs.any fun i => n i < b.q then ((cs.find? fun i => n i == lo).getD 0)
    else
      let least := ((all.map n).min?).getD 0
      (all.find? fun i => n i == least).getD 0

/-- A reservation at the count cell (R182): granted, it takes its place in the chosen share's queue (R185). -/
def Bag.reserve (b : Bag) (core : Nat) (owner : Option (Nat × Word)) (key : Word) (data : List Byte) : Option Bag :=
  if b.resident + b.reserved < b.cap then
    let t := b.target key
    let h := b.share t
    let b : Bag := { b with reserved := b.reserved + 1 }
    some (b.setShare t { h with queue := h.queue ++ [⟨owner, key, data, core, none⟩] })
  else none

/-- The bytes of a slot (R181): key, sequence, FULL, record. -/
def slotBytes (key : Word) (seq : Nat) (data : List Byte) : List Byte :=
  leBytes 4 key.toNat ++ leBytes 2 (seq % 65536) ++ leBytes 2 1 ++ data

/-- The writes of a batch (R187): each placement goes into the next slot, from c on. One whose slot cannot be written, because the repair
of its page is refused, its frame is code-locked or its page sealed, writes nothing and is dropped: DESIGN CHOICE, the rules give a placement no status
(log 64). -/
def State.writeBatch (s : State) (asid : Nat) (b : Bag) (n j seq : Nat) : List Placement → State × List Placement
  | [] => (s, [])
  | p :: ps =>
    match s.slotPlace p.core asid (b.slotVa n j) with
    | (s, .error _) => s.writeBatch asid b n j seq ps
    | (s, .ok cell) =>
      let r := s.engineMem ((slotBytes p.key seq p.data).zipIdx.map fun e => ⟨cell + e.2, e.1, false⟩)
      let rest := r.1.writeBatch asid b n (j + 1) (seq + 1) ps
      (rest.1, { p with written := some (j, r.2) } :: rest.2)

/-- The controller of a share serves the placements that wait there as one batch, when none is in progress (R187) and its pseudo-channel serves
accesses (R209). -/
def State.placeBatch (s : State) (asid idx n : Nat) : Option State :=
  let b := s.bag asid idx
  let h := b.share n
  if h.queue.isEmpty || h.placing || !s.opens (b.pch n) then none
  else
    let r := s.writeBatch asid b n h.c h.seq h.queue
    let b := { b with reserved := b.reserved - (h.queue.length - r.2.length) }
    some (r.1.setBag asid idx (b.setShare n { h with seq := (h.seq + r.2.length) % 65536, queue := r.2 }))

/-- PLACEMENT_BATCH (R187). -/
def execPlacementBatch (asid idx share : Nat) (s : State) : Host.Outcome State Fault Refusal :=
  .next ((s.placeBatch asid idx share).getD s)

/-- The oldest placement in progress completes (R182, R187): the counts change and its completion time returns to its thread
(R144). -/
def State.placeDone (s : State) (asid idx n : Nat) : Option State :=
  let b := s.bag asid idx
  let h := b.share n
  match h.queue with
  | p :: rest =>
    match p.written with
    | none => none
    | some (_, ct) =>
      let b := { b with reserved := b.reserved - 1, resident := b.resident + 1 }
      let s := s.setBag asid idx (b.setShare n { h with c := h.c + 1, ct := max h.ct ct, queue := rest })
      some (match p.owner with
        | some (launch, tid) => s.raiseWct launch tid ct
        | none => s)
  | [] => none

/-- PLACEMENT_COMPLETE (R182, R187). -/
def execPlacementComplete (asid idx share : Nat) (s : State) : Host.Outcome State Fault Refusal :=
  .next ((s.placeDone asid idx share).getD s)

/-! ### BPUT -/

/-- Registers of a record (R282). -/
def Bag.recordRegs (b : Bag) : Nat := (b.slot - 8) / 4

/-- The record registers of a lane of BPUT; none when its handle is pending or fails R178, or when they run past w63. -/
def State.putRegs (s : State) (d a : Reg) (l : Nat) : List Nat :=
  let c := s.curCrew
  if (pairRegs a).any fun r => (c.lane r l).pend then []
  else
    match s.handle s.curLaunch.asid (c.rd2 a.toNat l) with
    | none => []
    | some idx =>
      let n := (s.bag s.curLaunch.asid idx).recordRegs
      if d.toNat + n ≤ 64 then (List.range n).map fun i => d.toNat + i else []

/-- The flags of a put with F (R184). -/
def putFlags (granted : Bool) : Flags := { z := !granted, c := granted }

/-- One lane of BPUT (R184, R282). -/
def State.putLane (s : State) (d a k : Reg) (f : Bool) (n : Cc) (l : Nat) : Option (State × Eff) :=
  let c := s.curCrew
  let asid := s.curLaunch.asid
  match s.handle asid (c.rd2 a.toNat l) with
  | none => some (s, trapped causeBagHandle 0)
  | some idx =>
    let b := s.bag asid idx
    if 64 < d.toNat + b.recordRegs then some (s, trapped causeOverrun 0)
    else
      let data := (List.range b.recordRegs).flatMap fun i => leBytes 4 (c.rd (d.toNat + i) l).toNat
      let flags := fun g => if f then some (n, putFlags g) else none
      match b.reserve s.curCore (some (c.launch, (c.thr l).tid)) (c.rd k.toNat l) data with
      | some b' => some (s.setBag asid idx b', { cc := flags true })
      | none => some (s, if f then { cc := flags false } else trapped causeBagCap 0)

/-- BPUT (R184, R282). -/
def execBput (d a b : Reg) (f : Bool) (n : Cc) (s : State) : Host.Outcome State Fault Refusal :=
  .next (s.memory { a := pairRegs a, b := [b.toNat], lanes := laneList.map (s.putRegs d a), visible := true } 13
    fun s l => s.putLane d a b f n l)

/-! ### BTAKE -/

/-- FULL is cleared in a slot's memory (R188, R189): the state and the completion time of the write. -/
def State.clearFull (s : State) (cell : Nat) : State × Nat :=
  s.engineMem [⟨cell + 6, Memory.read s.mem (cell + 6) &&& 0xfe, false⟩]

/-- The registers that BTAKE may write: those of the largest bag that a lane of G names. -/
def State.takeRegs (s : State) (d a : Reg) : List Nat :=
  let n := (lanesOf (s.curCrew.guarded s.cur)).foldl (fun n l =>
    match s.handle s.curLaunch.asid (s.curCrew.rd2 a.toNat l) with
    | none => n
    | some idx => max n ((s.bag s.curLaunch.asid idx).slot / 4)) 0
  (List.range (min n (64 - d.toNat))).map fun i => d.toNat + i

/-- A slot's words as registers. -/
def slotLanes (n : Nat) (bs : List Byte) : List Lane := (List.range n).map fun i => live (wordOf (bs.drop (4 * i)))

/-- One lane of BTAKE (R188, R286); none while a placement of the share is in progress (R187), or its pseudo-channel does not serve (R209). A slot that cannot be reached (R121) leaves its
record resident, and the lane takes the trap of the failed access (log 64). -/
def State.takeLane (s : State) (d a b : Reg) (f : Bool) (n : Cc) (l : Nat) : Option (State × Eff) :=
  let c := s.curCrew
  let asid := s.curLaunch.asid
  let sh := (c.rd b.toNat l).toNat
  let flags := fun z => if f then some (n, ({ z := z } : Flags)) else none
  match s.handle asid (c.rd2 a.toNat l) with
  | none => some (s, trapped causeBagHandle 0)
  | some idx =>
    let g := s.bag asid idx
    let regs := g.slot / 4
    if g.count ≤ sh then some (s, trapped causeBagHandle 0)
    else if 64 < d.toNat + regs then some (s, trapped causeOverrun 0)
    else
      let h := g.share sh
      if h.placing then none
      else if h.c = 0 then some (s, { w := List.replicate regs (live 0), cc := flags true })
      else
        let va := g.slotVa sh (h.c - 1)
        match s.slotPlace s.curCore asid va with
        | (s, .error cause) => some (s, trapped cause (BitVec.ofNat 64 va))
        | (s, .ok cell) =>
        if !s.serves cell then none
        else if s.sectorBad cell || s.sectorBad (cell + g.slot - 1) then some (s, trapped causePoison (BitVec.ofNat 64 va))
        else
          let bs := Memory.readN s.mem cell g.slot
          let s := (s.clearFull cell).1
          let g := { g with resident := g.resident - 1 }
          some (s.setBag asid idx (g.setShare sh { h with c := h.c - 1 }), { w := slotLanes regs bs, cc := flags false })

/-- BTAKE (R188, R286). -/
def execBtake (d a b : Reg) (f : Bool) (n : Cc) (s : State) : Host.Outcome State Fault Refusal :=
  .next (s.issue { a := pairRegs a, b := [b.toNat], dst := s.takeRegs d a, visible := true } fun s g =>
    if !s.sent (lanesOf g) then .wait 16
    else
      match s.eachLane (fun s l => s.takeLane d a b f n l) (lanesOf g) with
      | none => .wait 13
      | some (s', es) => .done s' (perLane fun l => tget {} es l))

/-! ### BDRAIN -/

/-- BDRAIN's checks in the order of R276. -/
def State.drainLane (s : State) (a p k : Reg) (l : Nat) : LaneCmd :=
  let c := s.curCrew
  let asid := s.curLaunch.asid
  let v := (c.rd p.toNat l).toNat
  let addr := (c.rd k.toNat l).toNat
  let sh := v % 512
  let n := v / 65536
  match s.handle asid (c.rd2 a.toNat l) with
  | none => .trap causeBagHandle 0
  | some idx =>
    let b := s.bag asid idx
    let z := b.slot
    let kind := CmdKind.bdrain idx sh n addr 0
    if b.count ≤ sh then .trap causeBagHandle 0
    else if addr % z != 0 then .trap causeMisalign (BitVec.ofNat 64 addr)
    else if n != 0 && decide (((s.core s.curCore).window c.launch).bytes < addr + n * z) then
      .trap causeScratch (BitVec.ofNat 64 addr)
    else if n = 0 || v / 512 % 128 != 0 then .cmd kind (.written 0 (stRefused 0)) [] []
    else .cmd kind .queued [] []

/-- BDRAIN (R189, R276). -/
def execBdrain (d a b c : Reg) (s : State) : Host.Outcome State Fault Refusal :=
  .next (s.perLaneEngine { opsFuture d (pairRegs a) [b.toNat] with c := [c.toNat] } fun s l => s.drainLane a b c l)

/-- What a round of a drain has taken: how many slots, the bytes for scratch, and the largest completion time. -/
structure Drained where
  n : Nat := 0
  bytes : List EByte := []
  ct : Nat := 0
  deriving DecidableEq, Repr

/-- The slots of one round, newest first: each slot's bytes go to scratch and its FULL bit falls in memory (R189). A slot that cannot be
reached ends the round (R121). -/
def State.drainSlots (s : State) (core asid : Nat) (b : Bag) (sh top off : Nat) : Nat → State × Drained
  | 0 => (s, {})
  | k + 1 =>
    match s.slotPlace core asid (b.slotVa sh (top - 1)) with
    | (s, .error _) => (s, {})
    | (s, .ok cell) =>
      let bs := (Memory.readN s.mem cell b.slot).zipIdx.map fun e => (⟨off + e.2, e.1, s.sectorBad (cell + e.2)⟩ : EByte)
      let w := s.clearFull cell
      let r := w.1.drainSlots core asid b sh (top - 1) (off + b.slot) k
      (r.1, { n := r.2.n + 1, bytes := bs ++ r.2.bytes, ct := max w.2 r.2.ct })

/-- The sectors of scratch that a command has now covered whole with clean data lose their poison (R123): it has written from addr up to stop, from
mid on in this round. A sector that earlier rounds have covered keeps what has struck it since, and so does one that they have covered in part,
unless it was poisoned then (held). -/
def Window.clearWhole (w : Window) (addr mid stop : Nat) (bad held : List Nat) : Window :=
  { w with scratchBad := w.scratchBad.filter fun u =>
      bad.contains u || !(addr ≤ 64 * u && 64 * u + 64 ≤ stop && mid < 64 * u + 64 && (mid ≤ 64 * u || held.contains u)) }

/-- One round of a drain (R189), once the share's pseudo-channel serves accesses (R209), or its end, at which the resident count falls and the status is written (R182). A slot that cannot be
reached ends the drain FAULTED (R121). -/
def State.drainRound (s : State) (id : Nat) : Option State :=
  match s.cmd id with
  | none => none
  | some c =>
    match c.kind, c.phase with
    | .bdrain .., .written .. => s.concluded c
    | .bdrain idx sh n addr removed, _ =>
      let b := s.bag c.asid idx
      let h := b.share sh
      if h.placing then none
      else if removed < n ∧ 0 < h.c then if !s.opens (b.pch sh) then none else
        let k := min (min (1024 / b.slot) (n - removed)) h.c
        let r := s.drainSlots c.core c.asid b sh h.c (addr + removed * b.slot) k
        let done := removed + r.2.n
        let bad := c.bad ++ (r.2.bytes.filter (·.bad)).map (·.addr / 64)
        let w := (((s.core c.core).window c.launch).engineScratch r.2.bytes).clearWhole addr (addr + removed * b.slot) (addr + done * b.slot)
          bad (c.out.map (·.1))
        let b := b.setShare sh { h with c := h.c - r.2.n }
        let s := r.1.setWindow c.core w
        let c := { c with
          kind := .bdrain idx sh n addr done, phase := .started, ct := max c.ct r.2.ct, bad := bad, out := w.scratchBad.map fun u => (u, 0) }
        some (if r.2.n = k then (s.setBag c.asid idx b).setCmd c
          else ((s.setCmd c).setBag c.asid idx { b with resident := b.resident - done }).written c c.ct (stFaulted 0))
      else
        let s := s.setBag c.asid idx { b with resident := b.resident - removed }
        some (s.written c c.ct (if c.bad = [] then stDone removed else stPoisoned removed))
    | _, _ => none

/-- DRAIN_ROUND (R189). -/
def execDrainRound (id : Nat) (s : State) : Host.Outcome State Fault Refusal := .next ((s.drainRound id).getD s)

/-! ### Views and counts -/

/-- One lane of BSCAN (R190, R285); none while DTIME has not passed the completion time of a placement that the cut counts. -/
def State.scanLane (s : State) (a b k : Reg) (l : Nat) : Option (State × Eff) :=
  let c := s.curCrew
  let asid := s.curLaunch.asid
  let sh := (c.rd b.toNat l).toNat
  let cur := (c.rd k.toNat l).toNat
  match s.handle asid (c.rd2 a.toNat l) with
  | none => some (s, trapped causeBagHandle 0)
  | some idx =>
    let g := s.bag asid idx
    let h := g.share sh
    if g.count ≤ sh then some (s, trapped causeBagHandle 0)
    else if 0 < h.ct ∧ s.dtime ≤ h.ct then none
    else
      let per := 65536 / g.slot
      let e := min h.c ((cur / per + 1) * per)
      let va := live2 (BitVec.ofNat 64 (g.slotVa sh cur))
      let word := fun (n : Nat) => live (BitVec.ofNat 32 n)
      some (s, { w := va ++ (if cur < h.c then [word (e - cur), word e] else [word 0, word cur]) })

/-- BSCAN (R190, R285). -/
def execBscan (d a b c : Reg) (s : State) : Host.Outcome State Fault Refusal :=
  .next (s.issue { a := pairRegs a, b := [b.toNat], c := [c.toNat], dst := quadRegs d, visible := true } fun s g =>
    if !s.sent (lanesOf g) then .wait 16
    else
      match s.eachLane (fun s l => s.scanLane a b c l) (lanesOf g) with
      | none => .wait 13
      | some (s', es) => .done s' (perLane fun l => tget {} es l))

/-- BCOUNT (R191, R275). -/
def execBcount (d a : Reg) (s : State) : Host.Outcome State Fault Refusal :=
  .next (s.alu { a := pairRegs a, dst := [d.toNat], visible := true } fun c l =>
    match s.handle s.curLaunch.asid (c.rd2 a.toNat l) with
    | none => trapped causeBagHandle 0
    | some idx => { w := [live (BitVec.ofNat 32 (s.bag s.curLaunch.asid idx).resident)] })

/-- The word that a selector of BINFO names (R191, R280); none for a share at or beyond S. -/
def Bag.info (b : Bag) (v : Nat) : Option Nat :=
  if v < 512 then (if v < b.count then some (b.share v).c else none)
  else if v = 0x80000000 then some (b.log2 + b.size * 16 + b.domain * 64 + b.slack * 256)
  else if v = 0x80000001 then some b.cap
  else if v = 0x80000002 then some b.q
  else if v = 0x80000003 then some ((((List.range b.count).map fun i => (b.share i).c).min?).getD 0)
  else some 0xffffffff

/-- BINFO (R191, R280). -/
def execBinfo (d a b : Reg) (s : State) : Host.Outcome State Fault Refusal :=
  .next (s.alu { a := pairRegs a, b := [b.toNat], dst := [d.toNat], visible := true } fun c l =>
    match s.handle s.curLaunch.asid (c.rd2 a.toNat l) with
    | none => trapped causeBagHandle 0
    | some idx =>
      match (s.bag s.curLaunch.asid idx).info (c.rd b.toNat l).toNat with
      | none => trapped causeBagHandle 0
      | some v => { w := [live (BitVec.ofNat 32 v)] })

/-! ### Reservations of remote clients -/

/-- The count cell serves the reservation of a remote client's put (R182, R247); its answer leaves on the port that carried it. -/
def State.serveReservation (s : State) (k : Nat) : Option State :=
  match s.reservations[k]? with
  | none => none
  | some u =>
    let s : State := { s with reservations := dropAt s.reservations k }
    some (match u.req with
      | .put asid idx gen key record =>
        let b := s.bag asid idx
        let s := if b.live && b.gen == gen && record.length + 8 == b.slot then
            match b.reserve 0 none key record with
            | some b' => s.setBag asid idx b'
            | none => s
          else s
        s.post (.ueAnswer u.port)
      | _ => s)

/-- RESERVATION_SERVE (R182). -/
def execReservationServe (k : Nat) (s : State) : Host.Outcome State Fault Refusal := .next ((s.serveReservation k).getD s)

end Sys2Proof.Machine
end

