-- ==== Sys2Proof/Machine/Broods.lean ====
section
/-! DEFINITION. Brood bins (R34 to R39, R240): threads enter a bin, spill, and hatch into crews. -/

namespace Sys2Proof.Machine

/-- The number of a new crew: the preferred one, or else the least that no crew bears. R17 asks only that it be unique: DESIGN CHOICE, a launched
crew prefers its number in its launch, a hatched one the count of crews made so far (log 6). -/
def State.crewNumber (s : State) (preferred : Nat) : Word :=
  let used := (s.crews.filter fun e => !e.2.gone).map fun e => e.2.num.toNat
  BitVec.ofNat 32 (if used.contains preferred then ((List.range (used.length + 1)).find? fun n => !used.contains n).getD 0
    else preferred)

/-- The rename map that the registers of brooded threads give, outside the pool until the crew is admitted (R36, R38, R56). No rule says whether the
poison of a register's half (R123) goes with a thread that regroups: DESIGN CHOICE, it does not (log 86). -/
def broodMap (ts : List Brooded) : List (Option PReg) :=
  regList.map fun r =>
    if r != 0 && ts.any fun b => b.regs.any fun e => e.1 == r then
      some { lanes := laneList.map fun l =>
        match (ts[l]?).bind fun b => b.regs.find? fun e => e.1 == r with
        | some e => live e.2
        | none => {} }
    else none

/-- The lanes of a crew whose threads start as listed (R17). -/
def bornThreads (ts : List Brooded) : List Thread := laneList.map fun l => (ts[l]?.map (·.thr)).getD {}

/-- A crew of a launch takes its spill and eviction areas (R57): one that its launch has set aside, or else a new one. -/
def State.takeArea (s : State) (lid : Nat) : State × Option Nat :=
  let s := if (s.launch lid).areas.isEmpty then s.setAside lid 1 else s
  let x := s.launch lid
  (s.setLaunch lid { x with areas := x.areas.tail }, x.areas.head?)

/-- A new crew joins the admission queue of its cluster (R34, R223). -/
def State.enqueue (s : State) (c : Crew) : State :=
  let k := s.nextCrew
  let r := s.takeArea c.launch
  let x := r.1.cluster c.cluster
  let s : State := { r.1 with nextCrew := k + 1 }
  (s.setCrew k { c with area := r.2 }).setCluster c.cluster { x with queue := x.queue ++ [k] }

/-- A bin hatches (R34): its threads become a crew, lane by lane in the order of their entry (R17), which joins the cluster's
admission queue and starts at the bin's entry address. Threads of a bin of REGROUP have retired a visible effect (R227), and a
debugger's step that one of them runs in goes on with the crew (R257). -/
def State.hatchCrew (s : State) (cl : Nat) (b : Bin) : State :=
  let k := s.nextCrew
  let ts := (b.threads.take 32).map fun x => { x with thr := { x.thr with state := .brood, pc := b.entry } }
  s.enqueue { num := s.crewNumber k, launch := b.launch, cluster := cl, hatched := true, map := broodMap ts
              threads := bornThreads ts, born := ts, herdSet := k, visible := !b.spawned
              stepping := (ts.filterMap (·.stepping)).min? }

/-- The key of a bin: launch, kind, entry address and 32-bit key (R34). -/
def Bin.hasKey (b : Bin) (launch : Nat) (spawned : Bool) (entry : Dword) (key : Word) : Bool :=
  b.launch == launch && b.spawned == spawned && b.entry == entry && b.key == key

/-- The launches' spilled threads of a cluster, with their launches. -/
def State.spilledOf (s : State) (cl : Nat) : List (Nat × Spilled) :=
  s.launches.flatMap fun e => (e.2.spill.filter fun x => x.cluster == cl).map fun x => (e.1, x)

/-- A freed bin takes the spilled threads of the key that spilled earliest, up to 32 in their spill order, and its timer starts
(R35). -/
def State.refillBin (s : State) (cl idx : Nat) : State :=
  match leastBy (fun x y => x.2.order < y.2.order) (s.spilledOf cl) with
  | none => s
  | some (lid, f) =>
    let x := s.launch lid
    let mine := fun (y : Spilled) => y.cluster == cl && y.spawned == f.spawned && y.entry == f.entry && y.key == f.key
    let go := ((x.spill.filter mine).map (·.order)).take 32
    let c := s.cluster cl
    let b : Bin := { launch := lid, spawned := f.spawned, entry := f.entry, key := f.key, timer := c.cycle + f.timer
                     threads := (x.spill.filter fun y => go.contains y.order && mine y).map (·.thr) }
    (s.setCluster cl { c with bins := tset c.bins idx b }).setLaunch lid
      { x with spill := x.spill.filter fun y => !(go.contains y.order && mine y) }

/-- Bin idx of a cluster hatches and frees (R34, R35); a bin that its refill fills hatches in turn. -/
def State.hatch (s : State) (cl idx : Nat) : Nat → State
  | 0 => s
  | fuel + 1 =>
    let c := s.cluster cl
    if thas c.bins idx then
      let b := tget {} c.bins idx
      let s := (s.setCluster cl { c with bins := tdel c.bins idx }).hatchCrew cl b
      let s := s.refillBin cl idx
      if 32 ≤ (tget {} (s.cluster cl).bins idx).threads.length then s.hatch cl idx fuel else s
    else s

/-- How often spilled threads can fill a freed bin again. -/
def State.hatchFuel (s : State) (cl : Nat) : Nat := (s.spilledOf cl).length / 32 + 1

/-- The lowest bin number that no bin of the cluster bears, among 256. -/
def Cluster.freeBin (c : Cluster) : Option Nat := (List.range 256).find? fun n => !thas c.bins n

/-- The cycles of a timer code (R41). -/
def timerCycles (t : BitVec 8) : Nat := if t = 0 then 8192 else t.toNat * 256

/-- The lowest slot of a launch's brood spill area that no thread has. -/
def Launch.spillSlot (x : Launch) : Nat :=
  ((List.range (x.spill.length + 1)).find? fun k => !x.spill.any fun y => y.slot == k).getD 0

/-- The 512 bytes of a thread in the brood spill area (R35): the values of w0 to w63, a mask of those that travel with it, its TID, program
counter, condition codes, FCW, FSTAT, TSTAT, WCT, LBASE, and the herd of each slot plus one. The rule gives no layout: DESIGN CHOICE (log 36). -/
def Brooded.bytes (b : Brooded) : List Byte :=
  let t := b.thr
  let has := fun (r : Nat) => b.regs.find? fun e => e.1 == r
  ((List.range 64).flatMap fun r => leBytes 4 ((has r).map (·.2.toNat) |>.getD 0)) ++
  leBytes 8 ((b.regs.map fun e => 2 ^ e.1).sum) ++ leBytes 4 t.tid.toNat ++ leBytes 8 t.pc.toNat ++
  leBytes 2 ((List.range 4).foldl (fun x n => x + flagBits (t.cc.getD n {}) * 16 ^ n) 0) ++ leBytes 4 t.fcw.toNat ++ leBytes 4 t.fstat.toNat ++
  leBytes 4 t.tstat.toNat ++ leBytes 8 t.wct.toNat ++ leBytes 8 t.lbase.toNat ++
  ((List.range 4).flatMap fun i => leBytes 4 (match t.herds.getD i none with
    | none => 0
    | some h => h + 1)) ++ leBytes 190 0

/-- A thread that spills is written to the brood spill area (R35), if there is one. -/
def State.saveBrooded (s : State) (launch slot : Nat) (b : Brooded) : State :=
  match (s.launch launch).broodAreas[slot / 128]? with
  | none => s
  | some f => b.bytes.zipIdx.foldl (fun s e => s.writeHome (cellOf (f * 65536 + slot % 128 * 512 + e.2) false) [e.1]) s

/-- A thread enters the bin of its key, opens a bin, or spills; none when the spill area is full (R34, R35). -/
def State.enterBin (s : State) (cl launch : Nat) (spawned : Bool) (entry : Dword) (key : Word) (timer : Nat) (b : Brooded) :
    Option State :=
  let c := s.cluster cl
  match c.bins.find? fun e => e.2.hasKey launch spawned entry key with
  | some (idx, bin) =>
    let s := s.setCluster cl { c with bins := tset c.bins idx { bin with threads := bin.threads ++ [b] } }
    some (if 32 ≤ bin.threads.length + 1 then s.hatch cl idx (s.hatchFuel cl) else s)
  | none =>
    match c.freeBin with
    | some idx =>
      some (s.setCluster cl { c with
        bins := tset c.bins idx ⟨launch, spawned, entry, key, c.cycle + timer, [b]⟩ })
    | none =>
      let x := s.launch launch
      if x.spill.length < x.spillUnits * 256 then
        let y : Spilled := ⟨c.spills, x.spillSlot, cl, spawned, entry, key, timer, b⟩
        some (((s.setLaunch launch { x with spill := x.spill ++ [y] }).setCluster cl { c with spills := c.spills + 1 }).saveBrooded
          launch y.slot b)
      else none

/-- A bin's timer expires (R34), once the cycle in which it does so is over: what enters the bin in that cycle enters it before. -/
def State.binTimeout (s : State) (cl idx : Nat) : Option State :=
  let c := s.cluster cl
  if thas c.bins idx && (tget {} c.bins idx).timer < c.cycle then some (s.hatch cl idx (s.hatchFuel cl)) else none

/-- The registers of a launched or spawned thread's start: w60:61 holds LSIZE (R36, R37). -/
def stackRegs (x : Launch) : List (Nat × Word) := [(60, BitVec.ofNat 32 x.localBytes), (61, 0)]

/-- The child of a thread (R36). -/
def State.child (s : State) (crew l : Nat) (first n : Nat) : Brooded :=
  let c := s.crew crew
  let x := s.launch c.launch
  { thr := { tid := BitVec.ofNat 32 x.nextTid, state := .brood, fcw := x.fcw }
    regs := ((List.range n).map fun i => (i + 1, c.rd (first + i) l)) ++ stackRegs x }

/-- One lane of SPAWN (R36, R355): the next TID and a place in the bin, or SPAWN_REFUSED. -/
def State.spawnLane (s : State) (a n : Reg) (entry : Dword) (timer : Nat) (l : Nat) : State × Eff :=
  let c := s.curCrew
  let x := s.launch c.launch
  match if 2 ^ 32 ≤ x.nextTid then none
        else s.enterBin c.cluster c.launch true entry 0 timer (s.child s.cur.crew l a.toNat n.toNat) with
  | none => (s, trapped causeSpawn 0)
  | some s' => (s'.setLaunch c.launch { s'.launch c.launch with nextTid := x.nextTid + 1 }, {})

/-- The packet that a B-form offset names, its slot A (R41, R67). -/
def offTarget (pc : Dword) (o : BitVec 24) : Dword := packetAddr pc + (o.signExtend 64 <<< 4) + 4

/-- SPAWN (R36, R355): the group waits until what its threads have written is complete, so that no child starts before (log 1). -/
def execSpawn (a n : Reg) (entry : BitVec 24) (t : BitVec 8) (s : State) : Host.Outcome State Fault Refusal :=
  .next (s.issue { a := (List.range n.toNat).map fun i => a.toNat + i, visible := true } fun s g =>
    if (lanesOf g).all fun l => s.fenced 1 s.cur.crew l then
      match s.eachLane (fun s l => some (s.spawnLane a n (offTarget s.cur.pc entry) (timerCycles t) l)) (lanesOf g) with
      | none => .wait 5
      | some (s', es) => .done s' (perLane fun l => tget {} es l)
    else .wait 5)

/-- What travels with a regrouped thread (R38, R346): its live lanes, with the statuses of completed futures as plain values. A
marked key does not travel (R345). -/
def Crew.travels (c : Crew) (l : Nat) (key : Reg) (marked : Bool) : List (Nat × Word) :=
  (regList.filter fun r => r != 0 && (c.lane r l).st == .live && !(marked && r == key.toNat)).map fun r => (r, (c.lane r l).val)

/-- One lane of REGROUP (R38, R345): the thread moves to the bin and its lane is cleared, or it takes SPAWN_REFUSED and stays. -/
def State.regroupLane (s : State) (key : Reg) (marked : Bool) (entry : Dword) (timer : Nat) (l : Nat) : State × Eff :=
  let c := s.curCrew
  let t := c.thr l
  let rlsd := c.readsReleased [key.toNat] l
  let b : Brooded :=
    { thr := { t with state := .brood, fence := none, got := none, waitG := 0, passBar := false, tstat := if rlsd then t.tstat ||| 1 else t.tstat }
      regs := c.travels l key marked, stepping := c.stepping }
  match s.enterBin c.cluster c.launch false entry (c.rd key.toNat l) timer b with
  | none => (s, trapped causeSpawn 0)
  | some s' => (s'.setCrew s.cur.crew (((s'.crew s.cur.crew).clearLane l .released).setThr l {}), { pc := .kept })

/-- The slots of every pending lane of a thread. -/
def Crew.allPending (c : Crew) (l : Nat) : List Nat := c.pendingSlots regList l

/-- REGROUP (R38, R345, R346): threads with a meeting trap, threads with futures wait for them in FUTURE, and the others go once
their writes are complete. -/
def execRegroup (a : Reg) (entry : BitVec 24) (t : BitVec 8) (s : State) : Host.Outcome State Fault Refusal :=
  .next (s.issue { a := [a.toNat], visible := true } fun s g =>
    let c := s.curCrew
    let meets := maskOf fun l => g.getLsbD l && !(c.thr l).stack.isEmpty
    let waits := maskOf fun l => g.getLsbD l && !meets.getLsbD l && !(c.allPending l).isEmpty
    let go := g &&& ~~~meets
    if waits != 0 then .hold (s.setCrew s.cur.crew (c.await waits true fun l => slotMask (c.allPending l))) waits
    else if (lanesOf go).all fun l => s.fenced 1 s.cur.crew l then
      match s.eachLane (fun s l =>
          some (s.regroupLane a (s.cur.lu.getLsbD 0) (offTarget s.cur.pc entry) (timerCycles t) l)) (lanesOf go) with
      | none => .wait 5
      | some (s', es) =>
        .done s' (perLane fun l => if meets.getLsbD l then trapped causeRegroupMeet 0 else tget {} es l)
    else .wait 5)

/-- BIN_TIMER_EXPIRY (R34). -/
def execBinTimerExpiry (cluster bin : Nat) (s : State) : Host.Outcome State Fault Refusal :=
  .next ((s.binTimeout cluster bin).getD s)

end Sys2Proof.Machine
end

