-- ==== Sys2Proof/Machine/Launches.lean ====
section
/-! DEFINITION. Launches (R28 to R30, R107, R194, R216 to R223, R231, R319, R371): records, LAUNCH, 0xbb, acceptance, start and
completion. -/

namespace Sys2Proof.Machine

/-! ### Records -/

/-- A launch as its record gives it (R216, R217); the class is the larger of CLASS and the launcher's (R222). R216 and R91 do not say whether a
record with reserved bits set in FCW is refused: DESIGN CHOICE, the bits 31:5 are discarded, as a write of FCW discards them (log 75). -/
def recordLaunch (x : Launch) (f : List Byte) : Launch :=
  let control := field f 12 4
  { x with
    entry := BitVec.ofNat 64 (field f 0 8), control := BitVec.ofNat 32 control, count := field f 8 4, countPtr := field f 16 8
    lsize := field f 34 2, scratch := field f 36 1, acc := field f 37 1, dscale := field f 38 1, bscale := field f 39 1
    fcw := BitVec.ofNat 32 (field f 40 4 % 32), perShare := field f 44 2, spillUnits := field f 46 2
    trapEntry := BitVec.ofNat 64 (field f 48 8), event := field f 56 8, affinity := BitVec.ofNat 64 (field f 96 8)
    affLen := field f 104 8, cls := max x.cls (bitsOf control 4 2) }

/-- AFF of the control word (R217). -/
def Launch.aff (x : Launch) : Nat := bitsOf x.control.toNat 2 2
/-- CP of the control word (R217). -/
def Launch.cp (x : Launch) : Bool := x.control.getLsbD 1
/-- POLICY of the control word (R217, R231). -/
def Launch.policy (x : Launch) : Nat := bitsOf x.control.toNat 9 3

/-- A dependence field breaks R218; kind 2 comes only from LAUNCH. -/
def depBad (own : Bool) (d : Nat) : Bool :=
  match d % 4 with
  | 0 => d != 0
  | 1 => d / 4 % 2 != 0 || d / 2 ^ 49 != 0
  | 2 => !own || d / 4 % 64 != 0 || d / 2 ^ 14 != 0
  | _ => true

/-- A record breaks R216 to R218, R231 or R371. own is set for the record of a LAUNCH. -/
def recordBad (own : Bool) (f : List Byte) : Bool :=
  let entry := field f 0 8
  let control := field f 12 4
  let aff := bitsOf control 2 2
  let cp := bitsOf control 1 1 == 1
  let policy := bitsOf control 9 3
  let table := field f 24 8
  let herds := field f 32 2
  let m := field f 44 2
  !(entry % 16 == 4 || entry % 16 == 8 || entry % 16 == 12) || 2 ^ 49 ≤ entry ||
  (!cp && aff != 2 && 2 ^ 28 < field f 8 4) ||
  control / 2 ^ 12 != 0 || control % 2 != 0 || aff == 3 || 3 < policy || (policy == 2 && field f 48 8 == 0) ||
  (if cp then field f 16 8 % 4 != 0 else field f 16 8 != 0) ||
  table % 16 != 0 || 256 < herds || ((table == 0) != (herds == 0)) ||
  16 < field f 36 1 || 32 < field f 37 1 || 16 < field f 38 1 || 16 < field f 39 1 ||
  (if aff = 2 then m < 32 || 2048 < m || m % 32 != 0 || field f 104 8 != 0 else m != 0) ||
  field f 56 8 % 8 != 0 || (List.range 4).any (fun i => depBad own (field f (64 + 8 * i) 8)) ||
  (f.drop 112).any (· != 0)

/-- The dependences of a record (R218); slots lists what each completion slot was bound to when LAUNCH executed. -/
def recordDeps (slots : List Dep) (f : List Byte) : List Dep :=
  (List.range 4).map fun i =>
    let d := field f (64 + 8 * i) 8
    match d % 4 with
    | 1 => .event (d / 8 * 8 % 2 ^ 49)
    | 2 => slots.getD (bitsOf d 8 6) .none
    | _ => .none

/-- A herd entry (R28). -/
def herdOf (f : List Byte) : HerdEntry := ⟨field f 0 4, field f 4 4, field f 8 4, field f 12 4⟩

/-- A herd entry breaks a limit of R28. -/
def HerdEntry.broken (h : HerdEntry) : Bool := h.width == 0 || h.count == 0 || (1 < h.count && h.stride < h.width)

/-- Pieces of a list, n at a time. -/
def chunks {α : Type} (n : Nat) : Nat → List α → List (List α)
  | 0, _ => []
  | k + 1, xs => xs.take n :: chunks n k (xs.drop n)

/-! ### Acceptance -/

/-- A launch is going to complete with a status, without having run a thread (R219). -/
def State.close (s : State) (lid : Nat) (status : Word) : State :=
  s.setLaunch lid { s.launch lid with phase := .closing status }

/-- Acceptance (R216, R219, R371): the record and its group table are read, and judged. own is set for a LAUNCH. -/
def State.acceptRecord (s : State) (lid : Nat) (own : Bool) (va : Nat) : State :=
  let x := s.launch lid
  let core := s.launchCore x
  let r := s.engineRecord core x.asid va 16
  match cleanBytes r.2 with
  | none => r.1.close lid (stFaulted 0)
  | some f =>
    let y := recordLaunch { x with deps := recordDeps x.deps f } f
    let s := r.1.setLaunch lid y
    if recordBad own f then s.close lid (stRefused 0)
    else
      let n := field f 32 2
      let t := s.engineRecord core x.asid (field f 24 8) (2 * n)
      match cleanBytes t.2 with
      | none => t.1.close lid (stFaulted 0)
      | some g =>
        let hs := (chunks 16 n g).map herdOf
        let s := t.1
        if hs.any HerdEntry.broken then s.close lid (stRefused 0x14)
        else if y.aff = 2 ∧ s.handle x.asid y.affinity = none then s.close lid (stRefused 0x06)
        else
          let s := s.setLaunch lid { y with herds := hs, phase := .accepted }
          let s := s.setBrood lid
          if y.aff = 2 ∨ y.cp = true then s else s.setAside lid ((y.count + 31) / 32)

/-- The virtual addresses of a launch record and of the herds that it names, which acceptance reads (R216, R28). -/
def State.recordVas (s : State) (x : Launch) (va : Nat) : List Nat :=
  va :: match cleanBytes (s.engineRecord (s.launchCore x) x.asid va 16).2 with
  | none => []
  | some f => (List.range (field f 32 2)).map fun i => field f 24 8 + 16 * i

/-- Accesses of a launch can be served now (R209). -/
def State.servesLaunch (s : State) (x : Launch) (vas : List Nat) : Bool := s.servesVas (s.launchCore x) x.asid vas

/-- A queue's next record is accepted in ring order (R221). -/
def State.acceptQueue (s : State) (vi queue : Nat) : Option State :=
  let v := s.vi vi
  let q := tget {} v.queues queue
  if !thas v.queues queue || q.head == q.tail ||
      !s.servesVas 0 q.asid (s.recordVas { asid := q.asid } (q.base + 128 * q.head)) then none
  else
    let lid := s.nextLaunch
    let s := s.setVi vi { v with queues := tset v.queues queue { q with head := (q.head + 1) % 2 ^ q.log2 } }
    let s : State := { s with nextLaunch := lid + 1 }
    let s := s.setLaunch lid { vi := vi, asid := q.asid, process := BitVec.ofNat 32 vi, sthread := BitVec.ofNat 32 queue }
    some (s.acceptRecord lid false (q.base + 128 * q.head))

/-- LAUNCH_RECORD_ACCEPT (R221). -/
def execLaunchRecordAccept (vi queue : Nat) (s : State) : Host.Outcome State Fault Refusal :=
  .next ((s.acceptQueue vi queue).getD s)

/-! ### LAUNCH -/

/-- What each completion slot of a core is bound to (R218). -/
def Core.slotDeps (c : Core) : List Dep :=
  (List.range 64).map fun k => match c.slot k with
    | .free => .none
    | .busy id => .command id
    | .held st => .known st

/-- One lane of LAUNCH (R222): a misaligned record traps, and any other takes a slot and waits for its send rule. -/
def State.launchLane (s : State) (a : Reg) (deps : List Dep) (l slot : Nat) : State × Eff :=
  let c := s.curCrew
  let p := s.curLaunch
  let va := c.rd2 a.toNat l
  if va.toNat % 128 != 0 then (s, trapped causeMisalign va)
  else
    let lid := s.nextLaunch
    let x : Launch :=
      { vi := p.vi, asid := p.asid, record := va, deps := deps, cls := p.cls, phase := .sending
        parent := some (c.launch, s.nextCmd), process := p.process, sthread := p.sthread }
    let s := s.accept s.curCore slot c.launch p.asid (c.thr l).tid (.launch lid) .queued []
    let s : State := { s with nextLaunch := lid + 1 }
    (s.setLaunch lid x, { w := [future slot] })

/-- The lanes of LAUNCH in ascending order; those that trap take no slot. -/
def State.launchLanes (s : State) (a : Reg) (deps : List Dep) : List Nat → List Nat → State × Tab Eff
  | [], _ => (s, [])
  | l :: ls, slots =>
    let r := s.launchLane a deps l (slots.headD 0)
    let rs := r.1.launchLanes a deps ls (if r.2.trap.isSome then slots else slots.tail)
    (rs.1, (l, r.2) :: rs.2)

/-- LAUNCH (R222, R319): it waits for its slots (R149), and its slot dependences bind before the send rule is met (R218). -/
def execLaunch (d a : Reg) (s : State) : Host.Outcome State Fault Refusal :=
  .next (s.issue (opsFuture d (pairRegs a) []) fun s g =>
    let ls := lanesOf g
    let slots := (s.core s.curCore).freeSlots
    if slots.length < ls.countP fun l => (s.curCrew.rd2 a.toNat l).toNat % 128 == 0 then .wait 16
    else
      let r := s.launchLanes a (s.core s.curCore).slotDeps ls slots
      .done r.1 (perLane fun l => tget {} r.2 l))

/-- A LAUNCH leaves the core once the send rule is met (R142, R222); its launch starts after what the rule waited for (R319). -/
def State.sendLaunch (s : State) (lid : Nat) : Option State :=
  let x := s.launch lid
  match x.parent with
  | none => none
  | some (p, id) =>
    if s.outstanding p ((s.cmd id).map (·.tid) |>.getD 0) || !s.servesLaunch x (s.recordVas x x.record.toNat) then none
    else some ((s.setLaunch lid { x with startAfter := (s.launch p).maxCt }).acceptRecord lid true x.record.toNat)

/-! ### Herds and placement -/

/-- The herds of a launch break R30 for n threads: a thread of more than four, or a connected set of more crews than the 16 cores
of a cluster take in, 64 each. -/
def Launch.herdsBad (x : Launch) (n : Nat) : Bool :=
  (4 < x.herds.length && (List.range n).any fun t => 4 < (x.herdsOf t).length) ||
  (x.herdSets n).any fun ts => 1024 < (crewsOf ts).length

/-- The cluster with the fewest crews waiting for admission, lowest number first (R223). -/
def State.emptiest (s : State) : Nat :=
  (leastBy (fun a b => (s.cluster a).queue.length < (s.cluster b).queue.length) (List.range 8)).getD 0

/-- The cluster that crew k of a launch of n threads takes (R194, R223). -/
def State.placeCrew (s : State) (x : Launch) (n k : Nat) : Nat :=
  if x.aff = 2 then
    match s.handle x.asid x.affinity with
    | none => s.emptiest
    | some idx => (s.bag x.asid idx).pch (32 * k / x.perShare) / 64
  else if x.aff = 1 ∧ x.affLen ≠ 0 then
    let va := x.affinity.toNat + 32 * k * x.affLen / n
    match if va < 2 ^ 49 then s.walk (s.aspace x.asid).root va else .error causeProt with
    | .ok e => pteHS e.leaf
    | .error _ => s.emptiest
  else s.emptiest

/-- A launched thread as it starts (R37), with the registers of its start. -/
def Launch.firstThread (x : Launch) (t : Nat) : Brooded :=
  { thr :=
      { tid := BitVec.ofNat 32 t, state := .ready, pc := x.entry, fcw := x.fcw
        herds := (List.range 4).map fun i => (x.herdsOf t)[i]?
        window := if x.lsize = 0 then none else some t, lbase := BitVec.ofNat 64 (x.localBase + t * x.windowBytes)
        share := if x.aff = 2 then BitVec.ofNat 32 (t / x.perShare) else 0xffffffff }
    regs := stackRegs x }

/-- The launch's crews join their clusters' queues, in crew order (R223); first is the model's number of crew 0. -/
def State.makeCrews (s : State) (lid first : Nat) (sets : List (List Nat)) : List Nat → State
  | [] => s
  | k :: ks =>
    let x := s.launch lid
    let ts := ((List.range (min 32 (x.nthr - 32 * k))).map fun l => x.firstThread (32 * k + l))
    let low := ((sets.find? fun c => c.contains k).bind (·.min?)).getD k
    let cl := if low < k then (s.crew (first + low)).cluster else s.placeCrew x x.nthr k
    let c : Crew :=
      { num := s.crewNumber k, launch := lid, cluster := cl, lastCore := 16 * cl, map := broodMap ts, threads := bornThreads ts
        born := ts, herdSet := first + low }
    (s.enqueue c).makeCrews lid first sets ks

/-! ### Start -/

/-- The thread count once the dependences are met (R194, R220), or the status that refuses the launch. R194 judges the handle when the launch is
accepted, and no rule says what becomes of a launch whose bag is freed before it starts: DESIGN CHOICE, it is refused with BAG_HANDLE then, too
(log 83). -/
def State.resolveCount (s : State) (x : Launch) : State × Except Word Nat :=
  if x.aff = 2 then
    (s, match s.handle x.asid x.affinity with
      | none => .error (stRefused 0x06)
      | some idx => .ok ((s.bag x.asid idx).count * x.perShare))
  else if x.cp then
    let r := s.engineLoad (s.launchCore x) x.asid x.countPtr 4
    match cleanBytes r.2 with
    | none => (r.1, .error (stFaulted 0))
    | some f => (r.1, if 2 ^ 28 < field f 0 4 then .error (stRefused 0) else .ok (field f 0 4))
  else (s, .ok x.count)

/-- The device starts a launch whose dependences are met (R30, R107, R220, R223). -/
def State.beginLaunch (s : State) (lid : Nat) : State :=
  let x := s.launch lid
  let s := match x.parent.bind fun p => s.cmd p.2 with
    | some c => s.setCmd { c with phase := .started }
    | none => s
  let r := s.resolveCount x
  let s := r.1
  match r.2 with
  | .error st => s.close lid st
  | .ok 0 => s.close lid (stDone 0)
  | .ok n =>
    if x.herdsBad n then s.close lid (stRefused 0x14)
    else
      let pages := (n + 65536) * (x.windowBytes / 65536)
      match if pages = 0 then some 0 else s.reserve x.asid pages with
      | none => s.close lid (stRefused 0)
      | some base =>
        let s := if pages = 0 then s else s.setAspace x.asid { s.aspace x.asid with nextVa := base + pages * 65536 }
        let s := s.setAside lid ((n + 31) / 32 - x.areas.length)
        let x := s.launch lid
        let live := x.herds.zipIdx.map fun h => (h.2, ({ live := (h.1.members n).length } : Barrier))
        let s := s.setLaunch lid { x with
          phase := .running, nthr := n, nextTid := n, localBase := base, barriers := live }
        s.makeCrews lid s.nextCrew (mergeSets ((x.herdSets n).map crewsOf)) (List.range ((n + 31) / 32))

/-- The steps towards a launch's start: a LAUNCH is sent and accepted; a launch that waits is judged, and starts once every
dependence is met and DTIME has passed what its launcher had written (R219, R319). -/
def State.launchStart (s : State) (lid : Nat) : Option State :=
  let x := s.launch lid
  if !thas s.launches lid then none
  else
    match x.phase with
    | .sending => s.sendLaunch lid
    | .accepted =>
      let r := s.mapM (fun s d => s.judgeDep x d) x.deps
      let ds := r.2
      if ds.contains .faulted then some (r.1.close lid (stFaulted 0))
      else if ds.contains .other then some (r.1.close lid stCancelled)
      else if ds.contains .waits then none
      else if x.cp && !s.servesLaunch x [x.countPtr] then none
      else if x.startAfter = 0 ∨ x.startAfter < s.dtime then some (r.1.beginLaunch lid)
      else none
    | _ => none

/-- LAUNCH_START (R219, R220). -/
def execLaunchStart (lid : Nat) (s : State) : Host.Outcome State Fault Refusal := .next ((s.launchStart lid).getD s)

/-! ### Completion -/

/-- Whether threads, commands, writes or host accesses of a launch remain (R20, R218), or a debugger's step of its crews has still to end
in its report (R257). -/
def State.launchBusy (s : State) (lid : Nat) : Bool :=
  (s.crews.any fun e => e.2.launch == lid && (!e.2.gone || e.2.stepping.isSome || s.halting.any (·.contains e.1))) ||
  (s.clusters.any fun e => e.2.bins.any fun b => b.2.launch == lid) || !(s.launch lid).spill.isEmpty ||
  (s.cmds.any fun c => c.launch == lid) || (s.flights.any fun f => f.launch == lid) ||
  (s.hostPending.any fun h => h.launch == lid) ||
  (s.aspace (s.launch lid).asid).bags.any fun b => b.2.shares.any fun h =>
    h.2.queue.any fun p => (match p.owner with
      | some o => o.1 == lid
      | none => false)

/-- The status with which a launch completes now, when it can (R219). -/
def State.launchOutcome (s : State) (lid : Nat) : Option Word :=
  let x := s.launch lid
  if s.launchBusy lid || !(x.maxCt == 0 || x.maxCt < s.dtime) || !(x.startAfter == 0 || x.startAfter < s.dtime) then none
  else
    match x.phase with
    | .closing st => some st
    | .running => some (match x.killCause with
        | some c => stFaulted c
        | none => stDone 0)
    | _ => none

/-- The completion event word is written (R218), or an error record is posted; none while an engine owns the line. -/
def State.writeEvent (s : State) (lid : Nat) (status : Word) : Option State :=
  let x := s.launch lid
  if x.event = 0 then some s
  else
    let r := if x.event % 8 = 0 then s.translateRepair (s.launchCore x) x.asid .write x.event else (s, .error causeProt)
    match r.2 with
    | .error _ => some (r.1.post (.eventError lid x.event))
    | .ok e =>
      let cell := e.cell x.event
      let bs := leBytes 8 (status.toNat + 2 ^ 63)
      if isHost cell then some (r.1.writeHome cell bs)
      else if r.1.ownedBy cell 8 || !r.1.serves cell then none
      else some (r.1.applyHome cell bs).1

/-- The local area and its pages are released (R107), and the pages return to the quota. -/
def State.releaseArea (s : State) (lid : Nat) : State :=
  let x := s.launch lid
  let r := x.localArea
  let t := s.unmapRange x.asid r.base r.pages
  let v := t.vi x.vi
  t.setVi x.vi { v with memUsed := v.memUsed - (s.frames.length - t.frames.length) }

/-- A launch completes (R218 to R220): its event word, its LAUNCH future and its dependants receive its status. -/
def State.launchComplete (s : State) (lid : Nat) : Option State :=
  if !thas s.launches lid then none
  else
    match s.launchOutcome lid with
    | none => none
    | some st =>
      (s.writeEvent lid st).map fun s =>
        let x := s.launch lid
        let s := if x.localArea.pages = 0 then s else s.releaseArea lid
        let s : State := { s with crews := s.crews.filter fun e => e.2.launch != lid }
        let s := (s.giveAreas lid).setLaunch lid { (s.giveAreas lid).launch lid with phase := .done st, deps := [] }
        match x.parent with
        | some p => s.finish p.2 st
        | none => s

/-- LAUNCH_COMPLETION (R218). -/
def execLaunchCompletion (lid : Nat) (s : State) : Host.Outcome State Fault Refusal := .next ((s.launchComplete lid).getD s)

end Sys2Proof.Machine
end

