-- ==== Sys2Proof/Machine/Sched.lean ====
section
/-! DEFINITION. Admission, scratch grants, pre-emption, the register pool's banks and the ballast window (R54 to R58, R107 to R109,
R149, R171, R172, R224 to R227). -/

namespace Sys2Proof.Machine

/-! ### Windows of the unified store -/

/-- A core already holds the grants of a launch, or the launch asks for none. -/
def Core.holdsGrant (c : Core) (lid : Nat) (x : Launch) : Bool :=
  (c.windows.any fun w => w.launch == lid) || (x.scratch == 0 && x.acc == 0 && x.dscale == 0 && x.bscale == 0)

/-- The grants of a launch fit on a core (R9, R10, R108, R109). -/
def Core.fits (c : Core) (x : Launch) : Bool :=
  x.scratch + c.scratchBanks ≤ 16 && (x.scratch == 0 || x.scratch + 4 ≤ c.l1Usable) &&
  x.acc + (c.windows.map (·.accUnits)).sum ≤ 32 && x.dscale + (c.windows.map (·.dsUnits)).sum ≤ 16 &&
  x.bscale + (c.windows.map (·.bsUnits)).sum ≤ 16

/-- Every bank of a launch's scratch on a core has joined (R108). -/
def Core.ready (c : Core) (lid : Nat) : Bool := c.windows.all fun w => w.launch != lid || w.joined == w.banks

/-- The L1 gives up lines when it loses banks (R10, R54, R108). The rule leaves open which: DESIGN CHOICE, those that were filled least
recently beyond the capacity of the banks that remain (log 60). -/
def Core.trimL1 (c : Core) : Core := { c with l1 := c.l1.take (c.l1Usable * 256) }

/-- A core grants a launch its windows (R108, R109, R171), when it does not hold them. -/
def Core.grant (c : Core) (lid : Nat) (x : Launch) : Core :=
  if c.holdsGrant lid x then c
  else
    let w : Window :=
      { launch := lid, banks := x.scratch, joinAt := if x.scratch = 0 then none else some (c.cycle + 64)
        accUnits := x.acc, dsUnits := x.dscale, bsUnits := x.bscale }
    Core.trimL1 { c with windows := c.windows ++ [w] }

/-- One bank of scratch joins its window 64 cycles after its transfer started (R108). Whether the banks of one grant transfer at once is left
open: DESIGN CHOICE, each starts when the one before has joined (log 76). -/
def State.joinScratch (s : State) (core launch : Nat) : Option State :=
  let c := s.core core
  match c.windows.find? fun w => w.launch == launch with
  | none => none
  | some w =>
    match w.joinAt with
    | none => none
    | some t =>
      if c.cycle < t then none
      else some (s.setWindow core { w with
        joined := w.joined + 1, joinAt := if w.joined + 1 < w.banks then some (c.cycle + 64) else none })

/-- SCRATCH_BANK_JOIN (R108). -/
def execScratchBankJoin (core launch : Nat) (s : State) : Host.Outcome State Fault Refusal :=
  .next ((s.joinScratch core launch).getD s)

/-! ### Admission -/

/-- The threads of a crew that still need a local window (R107). -/
def Crew.windowless (c : Crew) (x : Launch) : List Nat :=
  if x.lsize = 0 then [] else laneList.filter fun l => (c.thr l).isLive && (c.thr l).window.isNone

/-- The lowest-numbered free windows of a launch at or above its thread count (R107). -/
def Launch.freeWindows (x : Launch) (n : Nat) : List Nat :=
  (((List.range (x.windows.length + n)).map (x.nthr + ·)).filter fun w =>
    w < x.nthr + 65536 && !x.windows.contains w).take n

/-- The core to which a crew is bound by its completion slots (R149) or by its launch's windows (R172, log 82). -/
def Crew.boundTo (c : Crew) (x : Launch) : Option Nat :=
  if !c.slotsHeld.isEmpty || (c.evicted && (x.scratch != 0 || x.acc != 0 || x.dscale != 0 || x.bscale != 0)) then some c.lastCore
  else c.chosen

/-- A store that the crew's threads may have seen before its home applied it: one of their own whose completion time has not returned, or one on
its way from a core in whose L1 they may have read it, the core that the crew was evicted from, or any of the cluster for a hatched crew. -/
def State.storing (s : State) (k : Nat) : Bool :=
  let c := s.crew k
  (laneList.any fun l => (c.thr l).isLive && s.flights.any fun f => f.launch == c.launch && f.tid == (c.thr l).tid) ||
  s.flights.any fun f => !f.applied &&
    (if c.evicted then f.core == c.lastCore else c.hatched && c.admitSeq.isNone && clusterOf f.core == c.cluster)

/-- Whether a core to which the crew may go takes it, but for banks that have still to join (R224). A crew that has run before waits until the
stores that its threads have made or seen are at home, so that on another core they still read them (R131, R139): DESIGN CHOICE, the rules do not
say how a device that moves a crew keeps that promise (log 62). -/
def State.admits (s : State) (k core : Nat) : Bool :=
  let c := s.crew k
  let x := s.launch c.launch
  let m := s.core core
  (s.crewsOn core).length < 64 && !s.storing k && (m.holdsGrant c.launch x || m.fits x) && (x.cls != 3 || 0 < s.ballast) &&
  96 ≤ s.freeRegs core && (x.freeWindows (c.windowless x).length).length == (c.windowless x).length

/-- The core that takes a crew: one that holds its launch's grants, then the largest FREE, then the lowest number (R224). -/
def State.admitCore (s : State) (k : Nat) : Option Nat :=
  let c := s.crew k
  let x := s.launch c.launch
  let cores := match c.boundTo x with
    | some b => [b]
    | none => (List.range 16).map (16 * c.cluster + ·)
  let key := fun n => ([if (s.core n).holdsGrant c.launch x then 0 else 1, 8192 - s.freeRegs n, n], n)
  (leastBy (fun a b => lexLt a.1 b.1) ((cores.filter fun n => s.admits k n).map key)).map (·.2)

/-- The crews of one interface that wait in a cluster, by class and arrival (R224). -/
def State.waitingOf (s : State) (cl vi : Nat) : List Nat :=
  (List.range 4).flatMap fun k => (s.cluster cl).queue.filter fun n =>
    !(s.crew n).gone && (s.launch (s.crew n).launch).vi == vi && (s.launch (s.crew n).launch).cls == k

/-- The interfaces with waiting crews, in the order of the round robin (R224): the one whose turn it is while it has credit, then
those after it. -/
def State.viOrder (s : State) (cl : Nat) : List Nat :=
  let c := s.cluster cl
  let vs := (c.queue.map fun n => (s.launch (s.crew n).launch).vi).dedup
  let vs := (s.vis.map (·.1)).filter vs.contains ++ vs.filter fun v => !thas s.vis v
  let turn := if 0 < c.credit then vs.filter (· == c.viTurn) else []
  turn ++ vs.filter (c.viTurn < ·) ++ vs.filter (· ≤ c.viTurn)

/-- What admission does next in a cluster: a crew whose grant it makes, or one that it admits. A crew that no core takes, or whose
banks have still to join, is passed over (log 42). -/
def State.admitNext (s : State) (cl : Nat) : Option (Nat × Nat × Nat) :=
  (s.viOrder cl).findSome? fun v => (s.waitingOf cl v).findSome? fun k =>
    match s.admitCore k with
    | none => none
    | some n =>
      let c := s.crew k
      let x := s.launch c.launch
      if (s.core n).holdsGrant c.launch x && !(s.core n).ready c.launch then none else some (v, k, n)

/-- The cell of a byte of a crew's eviction area (R226), which lies behind the spill slots in the crew's frame (log 36). -/
def Crew.evictCell (c : Crew) (off : Nat) : Nat := cellOf (c.area.getD 0 * 65536 + 16384 + off) false

/-- A register as a resumed crew reads it back from its eviction area. A lane that is bound to a completion slot has its word from there. -/
def State.restoreReg (s : State) (c : Crew) (r : Nat) (p : PReg) : PReg :=
  if c.area.isNone then p
  else (s.readSlot (c.evictCell (256 * r)) p).onLanes fun l x => if (p.lane l).slot.isSome then p.lane l else x

/-- The registers that an admitted crew brings with it are drawn from the pool (R56); those of an evicted crew (back) are read from its
eviction area. -/
def State.drawRegs (s : State) (k core : Nat) (back : Bool) : State :=
  regList.foldl (fun s r =>
    let c := s.crew k
    match c.reg r with
    | none => s
    | some p =>
      if p.bank.isNone && !p.spilled && laneList.any fun l => (p.lane l).st == .live then
        let b := s.pickBank core
        let p := if back then s.restoreReg c r p else p
        s.setCrew k (c.onRegs fun i q => if i = r then some { p with bank := some b, touched := (s.core core).cycle } else q)
      else s) s

/-- A thread of an admitted crew (R36, R37, R107, R225). What is left of a YIELD's hold, counted by the cluster's clock while the crew has
no core, goes on (R21, R368). -/
def Thread.admitted (t : Thread) (cycle late : Nat) (w : Option (Nat × Nat)) : Thread :=
  let t := { t with
    state := if t.state = .brood then .ready else t.state, readySince := cycle
    waitMask := if t.got.isSome then 0 else t.waitMask, hold := t.hold.map fun k => cycle + (k - late) }
  match w with
  | none => t
  | some (n, base) => { t with window := some n, lbase := BitVec.ofNat 64 base }

/-- A crew is admitted to a core (R36, R37, R56, R107, R224). Its lanes take the windows that they need in ascending order, the lowest
free window first: DESIGN CHOICE, the rule does not say which lane takes which (log 61). A crew whose threads may have run on another
core finds the L1 of this one empty, so that no thread reads what is older than it has read or written before (R131, R139; log 62). -/
def State.seat (s : State) (cl vi k n : Nat) : State :=
  let c := s.crew k
  let x := s.launch c.launch
  let need := c.windowless x
  let ws := x.freeWindows need.length
  let win := fun l => ((need.zip ws).find? fun e => e.1 == l).map fun e => (e.2, x.localBase + e.2 * x.windowBytes)
  let cycle := (s.core n).cycle
  let c := { c with
    core := some n, lastCore := n, chosen := none, evicted := false
    admitSeq := some (c.admitSeq.getD s.nextSeq), startTime := if c.admitSeq.isSome then c.startTime else s.dtime }
  let c := c.onThreads fun l t => if t.isLive then t.admitted cycle (s.cluster c.cluster).cycle (win l) else t
  let m := s.cluster cl
  let back := (s.crew k).evicted
  let s := if back || (s.crew k).hatched then s.setCore n { s.core n with l1 := [] } else s
  let s : State := { s with nextSeq := s.nextSeq + (if (s.crew k).admitSeq.isSome then 0 else 1) }
  let s := (s.setCrew k c).setLaunch c.launch { x with windows := x.windows ++ ws }
  let s := s.setCluster cl { m with
    queue := m.queue.filter (· != k), viTurn := vi
    credit := (if m.viTurn = vi && 0 < m.credit then m.credit else max 1 (s.vi vi).weight) - 1 }
  ((s.drawRegs k n back).notePool n).wakeFutures n

/-- One admission: a crew's launch receives its grant on the chosen core, and the crew is admitted once every bank of it has
joined (R108, R224). -/
def State.admitOne (s : State) (cl : Nat) : Option State :=
  (s.admitNext cl).map fun e =>
    let c := s.crew e.2.1
    let x := s.launch c.launch
    let m := (s.core e.2.2).grant c.launch x
    if m.ready c.launch then (s.setCore e.2.2 m).seat cl e.1 e.2.1 e.2.2
    else (s.setCore e.2.2 m).setCrew e.2.1 { c with chosen := some e.2.2 }

/-- CREW_ADMIT (R224). -/
def execCrewAdmit (cluster : Nat) (s : State) : Host.Outcome State Fault Refusal := .next ((s.admitOne cluster).getD s)

/-! ### Pre-emption -/

/-- A crew leaves its core for the admission queue: its registers return to the pool, and it has no unretired entry (R226). -/
def Crew.offCore (c : Crew) : Crew :=
  let c := c.onRegs fun _ p => p.map fun p => { p with bank := none }
  { c with core := none, rob := [], leaving := false }

/-- A meeting as its 40 bytes in the eviction area: the number of the instance, its address, its three masks, the released bit, and the deadline
plus one, or 0. -/
def Meeting.bytes (m : Meeting) : List Byte :=
  leBytes 8 m.id ++ leBytes 8 m.addr.toNat ++ leBytes 4 m.sib.toNat ++ leBytes 4 m.wait.toNat ++ leBytes 4 m.dep.toNat ++
  leBytes 4 (if m.released then 1 else 0) ++ leBytes 8 (match m.deadline with
    | none => 0
    | some d => d + 1)

/-- What the eviction area holds behind the registers (R226): a byte of the rename map for each register (0 no register, 1 one in the eviction
area, 2 one in its spill slot), the condition codes of each lane, the stall counters, the meeting stack of each lane as 16 numbers, each plus one,
and the meetings. The layout is a DESIGN CHOICE (log 36). -/
def Crew.saved (c : Crew) : List Byte :=
  (regList.flatMap fun r => leBytes 1 (match c.reg r with
    | none => 0
    | some p => if p.spilled then 2 else 1)) ++
  (laneList.flatMap fun l => leBytes 2 ((List.range 4).foldl (fun x n => x + flagBits ((c.thr l).cc.getD n {}) * 16 ^ n) 0)) ++
  ((List.range 16).flatMap fun n => leBytes 4 (c.stalls.getD n 0)) ++
  (laneList.flatMap fun l => (List.range 16).flatMap fun n => leBytes 8 (match (c.thr l).stack[n]? with
    | none => 0
    | some id => id + 1)) ++ c.meetings.flatMap Meeting.bytes

/-- The live lanes of a register go to its slot in the eviction area, with its lane states; the sectors take the poison of its halves. A lane
that is not live is not written (R226). -/
def State.saveReg (s : State) (c : Crew) (r : Nat) (p : PReg) : State :=
  if c.area.isNone then s else
  let cell := c.evictCell (256 * r)
  let s := (laneList.filter fun l => (p.lane l).st == .live).foldl (fun s l =>
    s.writeHome (cell + 4 * l) (leBytes 4 (p.lane l).val.toNat)) s
  let s := s.writeHome (cell + 128) (laneList.map fun l => BitVec.ofNat 8 (p.lane l).st.code)
  let bad := (if p.poisonLo then wordsOf cell 64 else []) ++ if p.poisonHi then wordsOf (cell + 64) 64 else []
  { s with bad := addWords (clearWords s.bad cell 128) bad }

/-- What is live of a crew is written to its eviction area (R226), 256 bytes of the frame at a time, which lie together in DRAM (R115). -/
def State.save (s : State) (c : Crew) : State :=
  if c.area.isNone then s
  else
    let s := regList.foldl (fun s r => match c.reg r with
      | none => s
      | some p => if p.bank.isSome then s.saveReg c r p else s) s
    (chunks 256 ((c.saved.length + 255) / 256) c.saved).zipIdx.foldl (fun s e => s.writeHome (c.evictCell (16384 + 256 * e.2)) e.1) s

/-- The eviction of a crew (R226): what is live is saved, and it re-enters the queue at the head of its class. The cluster's clock
goes on counting a YIELD's hold (R21). -/
def State.evict (s : State) (k : Nat) : State :=
  let c := s.crew k
  let s := s.save c
  let m := s.cluster c.cluster
  let core := c.lastCore
  let now := (s.core core).cycle
  let c := c.offCore.onThreads fun _ t => { t with hold := t.hold.map fun h => m.cycle + (h - now) }
  let c := { c with evicted := true, evictions := c.evictions + 1 }
  ((s.setCrew k c).setCluster c.cluster { m with queue := k :: m.queue }).settleCore core

/-- The crew as a flush leaves it (R227): every thread is at its start again, with its own TID and local window. -/
def Crew.restarted (c : Crew) : Crew :=
  let d := { c.offCore with threads := bornThreads c.born, map := broodMap c.born, meetings := [], flushed := true }
  d.onThreads fun l t => if (c.thr l).isLive then { t with window := (c.thr l).window, lbase := (c.thr l).lbase } else t

/-- The flush of a crew (R227): a thread that had left its herds is a member again. -/
def State.flush (s : State) (k : Nat) : State :=
  let c := s.crew k
  let d := c.restarted
  let back := laneList.filter fun l => !(c.thr l).isLive && (d.thr l).isLive
  let s := back.foldl (fun s l => (d.thr l).herdList.foldl (fun s h =>
    s.onBarrier c.launch h fun b => { b with live := b.live + 1 }) s) s
  let m := s.cluster c.cluster
  ((s.setCrew k d).setCluster c.cluster { m with queue := m.queue ++ [k] }).settleCore c.lastCore

/-- A victim is flushed when its launch has IDEM and it has had no visible effect (R227). Otherwise it is evicted (R226): at once when it
has no unretired entry, and else it stops issuing until its entries have retired. -/
def State.takeVictim (s : State) (k : Nat) : State :=
  let c := s.crew k
  if (s.launch c.launch).control.getLsbD 6 && !c.visible then s.flush k
  else if c.rob.isEmpty then s.evict k
  else s.setCrew k { c with leaving := true }

/-- The next victim on a core for a class: the highest class, then the highest admission sequence (R226). -/
def State.victimOn (s : State) (core cls : Nat) : Option Nat :=
  let key := fun (e : Nat × Crew) => [4 - (s.launch e.2.launch).cls, 2 ^ 64 - e.2.seqKey]
  (leastBy (fun a b => lexLt (key a) (key b))
    ((s.crewsOn core).filter fun e => !e.2.leaving && cls < (s.launch e.2.launch).cls)).map (·.1)

/-- FREE as it will be when the victims of the core have left it (R226). -/
def State.freeSoon (s : State) (core : Nat) : Nat :=
  s.freeRegs core + ((s.crewsOn core).map fun e => if e.2.leaving then e.2.held else 0).sum

/-- Victims of one core until FREE reaches the need. -/
def State.preemptCore (s : State) (core cls need : Nat) : Nat → State
  | 0 => s
  | n + 1 =>
    if need ≤ s.freeSoon core then s
    else
      match s.victimOn core cls with
      | none => s
      | some k => (s.takeVictim k).preemptCore core cls need n

/-- Victims of the cores in ascending number until some core reaches the need (R226). -/
def State.preemptCores (s : State) (cls need : Nat) : List Nat → State
  | [] => s
  | n :: ns =>
    let s := s.preemptCore n cls need 64
    if need ≤ s.freeSoon n then s else s.preemptCores cls need ns

/-- Pre-emption for a crew that waits and that no core takes (R226): its need is 96 registers for each crew of the connected set that
still waits. None when a core has them already, or there is no victim. -/
def State.preemptFor (s : State) (cl k : Nat) : Option State :=
  let c := s.crew k
  let cls := (s.launch c.launch).cls
  let need := 96 * (s.cluster cl).queue.countP fun n =>
    (s.crew n).launch == c.launch && (s.crew n).herdSet == c.herdSet
  let cores := (List.range 16).map (16 * cl + ·)
  if (s.admitCore k).isSome || (cores.any fun n => need ≤ s.freeSoon n) || (cores.all fun n => (s.victimOn n cls).isNone) then none
  else
    let s := s.preemptCores cls need cores
    some (s.setCluster cl { s.cluster cl with preempted := (s.cluster cl).cycle })

/-- A victim of a cluster whose entries have retired (R226). -/
def State.readyVictim (s : State) (cl : Nat) : Option Nat :=
  (s.crews.find? fun e => e.2.leaving && e.2.cluster == cl && e.2.core.isSome && e.2.rob.isEmpty).map (·.1)

/-- Pre-emption in a cluster (R226): a victim whose entries have retired leaves its core; otherwise the first crew, in the order of
admission, for which there are victims takes them. -/
def State.preempt (s : State) (cl : Nat) : Option State :=
  match s.readyVictim cl with
  | some k => some (s.evict k)
  | none =>
    if (s.cluster cl).preempted < (s.cluster cl).cycle then
      (s.viOrder cl).findSome? fun v => (s.waitingOf cl v).findSome? fun k => s.preemptFor cl k
    else none

/-- PREEMPT (R226). -/
def execPreempt (cluster : Nat) (s : State) : Host.Outcome State Fault Refusal := .next ((s.preempt cluster).getD s)

/-! ### Banks of the register pool -/

/-- The pool starts to take a bank from the L1 (R54). -/
def State.growPool (s : State) (core : Nat) : Option State :=
  let c := s.core core
  if (s.crewsOn core).isEmpty || !c.canGrow || c.grow.isSome ||
      !(s.starving core || !(s.cluster (clusterOf core)).queue.isEmpty) then none
  else some (s.setCore core (Core.trimL1 { c with grow := some (c.cycle + 64) }))

/-- POOL_GROW (R54). -/
def execPoolGrow (core : Nat) (s : State) : Host.Outcome State Fault Refusal := .next ((s.growPool core).getD s)

/-- The bank joins the pool 64 cycles after its transfer began (R54). -/
def State.joinPool (s : State) (core : Nat) : Option State :=
  let c := s.core core
  match c.grow with
  | none => none
  | some t =>
    if c.cycle < t then none else some (s.setCore core { c with grow := none, poolIdle := c.poolIdle ++ [some c.cycle] })

/-- POOL_BANK_JOIN (R54). -/
def execPoolBankJoin (core : Nat) (s : State) : Host.Outcome State Fault Refusal := .next ((s.joinPool core).getD s)

/-- The highest-numbered bank that has held no register for 65536 cycles (R54). -/
def Core.staleBank (c : Core) : Option Nat :=
  if c.poolBanks ≤ 2 then none
  else (List.range c.poolBanks).reverse.find? fun b => match c.poolIdle.getD b none with
    | some t => t + 65536 ≤ c.cycle
    | none => false

/-- A bank returns to the L1 (R54); the banks above it take the next lower numbers. -/
def State.returnBank (s : State) (core : Nat) : Option State :=
  let c := s.core core
  c.staleBank.map fun b =>
    let s := s.setCore core { c with poolIdle := dropAt c.poolIdle b }
    let down := fun (k : Nat) => if b < k then k - 1 else k
    { s with crews := s.crews.map fun e =>
        (e.1, if e.2.core = some core then
          { e.2.onRegs fun _ p => p.map fun p => { p with bank := p.bank.map down } with
            rob := e.2.rob.map fun y => { y with banks := y.banks.map down } }
        else e.2) }

/-- POOL_BANK_RETURN (R54). -/
def execPoolBankReturn (core : Nat) (s : State) : Host.Outcome State Fault Refusal := .next ((s.returnBank core).getD s)

/-- A cold register (R57): it lies in the pool and holds no pending future. -/
def PReg.cold (p : PReg) : Bool := p.bank.isSome && laneList.all fun l => !(p.lane l).pend

/-- A slot's 256 bytes are written: the first two sectors carry the poison of the two halves of the register. -/
def State.writeHalves (s : State) (cell : Nat) (bs : List Byte) (lo hi : Bool) : State :=
  let s := if lo then s.writeBad cell (bs.take 64) else s.writeHome cell (bs.take 64)
  let s := if hi then s.writeBad (cell + 64) ((bs.drop 64).take 64) else s.writeHome (cell + 64) ((bs.drop 64).take 64)
  s.writeHome (cell + 128) (bs.drop 128)

/-- An unretired entry names the register as a source or a destination (R57). -/
def Crew.named (c : Crew) (r : Nat) : Bool := c.rob.any fun e => e.srcs.contains r || e.dst.contains r

/-- The crew's cold register that was least recently read or written (R57). Of several, the lowest number: DESIGN CHOICE, the rule does not
order them (log 63). -/
def Crew.coldest (c : Crew) : Option Nat :=
  (leastBy (fun a b => a.2 < b.2) (regList.filterMap fun r =>
    (c.reg r).bind fun p => if p.cold && c.area.isSome && !c.named r then some (r, p.touched) else none)).map (·.1)

/-- The next register to spill on a core (R57): of the youngest crew other than the oldest that has a cold one. -/
def State.nextSpill (s : State) (core : Nat) : Option (Nat × Nat) :=
  (leastBy (fun (a b : Nat × Nat × Nat) => b.2.2 < a.2.2) ((s.crewsOn core).filterMap fun e =>
    if s.isOldest core e.1 then none else e.2.coldest.map fun r => (e.1, r, e.2.seqKey))).map fun e => (e.1, e.2.1)

/-- One register goes to its spill slot (R57), its poisoned halves as poisoned sectors. -/
def State.spillReg (s : State) (k r : Nat) : State :=
  let c := s.crew k
  match c.reg r with
  | none => s
  | some p =>
    let s := s.writeHalves (c.slotCell r) p.slotBytes p.poisonLo p.poisonHi
    s.setCrew k (c.onRegs fun i q => if i = r then some { p with bank := none, spilled := true } else q)

/-- The youngest crew of a core, other than the oldest, that has unretired entries (R57). -/
def State.youngestBusy (s : State) (core : Nat) : Option Nat :=
  (leastBy (fun (a b : Nat × Nat) => b.2 < a.2) ((s.crewsOn core).filterMap fun e =>
    if s.isOldest core e.1 || e.2.rob.isEmpty then none else some (e.1, e.2.seqKey))).map (·.1)

/-- Registers spill until FREE reaches 192 or none is left; when no crew has a cold register, the youngest that has unretired entries
loses them, and its threads resume from their own program counters (R57). The oldest entry of a crew that still waits has not begun its
effect. -/
def State.spillMany (s : State) (core : Nat) : Nat → State
  | 0 => s
  | n + 1 =>
    if 192 ≤ s.freeRegs core then s
    else
      match s.nextSpill core with
      | some (k, r) => (s.spillReg k r).spillMany core n
      | none =>
        match s.youngestBusy core with
        | some k => (s.setCrew k ((s.crew k).squash (s.cycleOf k))).spillMany core n
        | none => s

/-- The pool has been exhausted for 4096 cycles, and registers spill (R57). -/
def State.spillPool (s : State) (core : Nat) : Option State :=
  let c := s.core core
  match c.exhausted with
  | none => none
  | some t =>
    if c.cycle < t + 4096 then none
    else some (((s.setCore core { c with exhausted := none }).spillMany core 8192).notePool core)

/-- POOL_SPILL (R57). -/
def execPoolSpill (core : Nat) (s : State) : Host.Outcome State Fault Refusal := .next ((s.spillPool core).getD s)

/-- REGISTER_REFILL (R58). -/
def execRegisterRefill (crew reg : Nat) (s : State) : Host.Outcome State Fault Refusal := .next ((s.refill crew reg).getD s)

/-! ### Ballast -/

/-- A port's window of 256 cycles begins (R225). -/
def State.ballastWindow (s : State) (core port : Nat) : Option State :=
  let c := s.core core
  if c.cycle % 256 = 0 ∧ c.ports = [] ∧ c.portUse.getD port 0 ≠ 0 then some (s.setCore core { c with portUse := setAt 4 0 c.portUse port 0 })
  else none

/-- BALLAST_WINDOW (R225). -/
def execBallastWindow (core port : Nat) (s : State) : Host.Outcome State Fault Refusal :=
  .next ((s.ballastWindow core port).getD s)

end Sys2Proof.Machine
end

