-- ==== Sys2Proof/Machine/Traps.lean ====
section
/-! DEFINITION. What becomes of a trap (R63, R228 to R236, R258): a trap at an instruction fetch, page repair, the launch's policy, a
debugger's release, and the killing of threads and launches. -/

namespace Sys2Proof.Machine

/-! ### Traps at a fetch -/

/-- TAKE_TRAP (R63, R77, R371): the lanes of the issue group take the trap that the fetch of their instruction gives. TRAPPC is
their instruction address, which is also the next instruction in program order (R234). -/
def State.fetchTrap (s : State) (cause : Word) (va : Dword) : Option State :=
  let i := s.cur
  let c := s.crew i.crew
  if !c.running || !c.rob.isEmpty || i.mask == 0 || !(lanesOf i.mask).all fun l => (c.thr l).eligible && (c.thr l).pc == i.pc then none
  else
    match s.target c.lastCore (s.asidOf i.crew) i.pc with
    | .ok _ => none
    | .error e =>
      if e = (cause, va) then
        some (s.takeTraps i.crew i.pc i.pc (fun _ => some (cause, va)) (lanesOf i.mask))
      else none

/-- TAKE_TRAP (R63, R371). -/
def execTakeTrap (cause : Word) (va : Dword) (s : State) : Host.Outcome State Fault Refusal :=
  .next ((s.fetchTrap cause va).getD s)

/-! ### Ending and resuming threads -/

/-- A trapped thread goes on at an address (R232). -/
def State.resume (s : State) (crew l : Nat) (pc : Dword) : State :=
  s.onThr crew l fun t => { t.wake (s.cycleOf crew) with pc := pc, trap := none }

/-- A thread is killed (R233): it counts as exited. -/
def State.killThread (s : State) (crew l : Nat) : State := s.exitLanes crew (laneMask l)

/-- A crew of a killed launch ends (R233, R261). -/
def State.killCrew (s : State) (k : Nat) : State :=
  let c := s.crew k
  let m := s.cluster c.cluster
  let s := s.setCluster c.cluster { m with queue := m.queue.filter (· != k) }
  (s.setCrew k { c with killed := true }).exitLanes k (maskOf fun l => (c.thr l).isLive)

/-- The bins of a killed launch are discarded (R39, R233), and other launches' spilled threads take their places (R35). -/
def State.dropBins (s : State) (lid cl : Nat) : State :=
  ((s.cluster cl).bins.filter fun b => b.2.launch == lid).foldl (fun s b =>
    let c := s.cluster cl
    let s := (s.setCluster cl { c with bins := tdel c.bins b.1 }).refillBin cl b.1
    if 32 ≤ (tget {} (s.cluster cl).bins b.1).threads.length then s.hatch cl b.1 (s.hatchFuel cl) else s) s

/-- A command that a kill of its launch cancels when it has not started (R233, R319): matrix and near-memory commands, and a child
launch whose dependences are not met. -/
def Cmd.diesWithLaunch (c : Cmd) : Bool :=
  match c.kind with
  | .mma .. | .mdrain .. | .mzero .. | .copys .. | .nmload .. | .nmrun .. | .launch .. => true
  | _ => false

/-- A launch is killed (R233): every thread ends, and it completes FAULTED with the cause. A launch that has not started completes
at once. A second kill changes nothing. -/
def State.killLaunch (s : State) (lid cause : Nat) : State :=
  let x := s.launch lid
  match x.phase with
  | .sending | .accepted => s.close lid (stFaulted cause)
  | .running =>
    if x.killCause.isSome then s
    else
      let s := s.setLaunch lid { x with killCause := some cause, spill := [] }
      let s : State := { s with traps := s.traps.filter fun r => r.launch != lid }
      let s := (s.cmds.filter fun c => c.launch == lid && c.diesWithLaunch).foldl (fun s c => s.cancelCmd c) s
      let s := (s.clusters.map (·.1)).foldl (fun s cl => s.dropBins lid cl) s
      let ks := (s.crews.filter fun e => e.2.launch == lid && !e.2.gone).map (·.1)
      let s := ks.foldl (fun s k => s.killCrew k) s
      { s with traps := s.traps.filter fun r => r.launch != lid }
  | _ => s

/-- SYSTEM_SOFTWARE_KILL (R232, R233). No trap caused it, so RESULT holds a free value (log 8). -/
def execSystemSoftwareKill (lid : Nat) (s : State) : Host.Outcome State Fault Refusal :=
  .next (if thas s.launches lid then
      ({ s with fresh := s.fresh + 1 } : State).killLaunch lid (Config.freeByte s.fresh).toNat
    else s)

/-! ### Trap records -/

/-- The thread that a record names, when it is still in that trap. -/
def State.trapThread (s : State) (r : TrapRec) : Option Thread :=
  let t := (s.crew r.crew).thr r.lane
  if (s.crew r.crew).launch == r.launch && t.tid == r.tid && t.state == .trapped && t.trap.isSome then some t else none

/-- A record leaves the service's list. -/
def State.dropTrap (s : State) (k : Nat) : State := { s with traps := dropAt s.traps k }

/-- The cause code of a cause word (R229). -/
def causeCode (c : Word) : Nat := c.toNat % 256

/-- A page is mapped unless it already is (R119, R232). None when the repair is refused. -/
def State.repairPage (s : State) (asid cl va : Nat) : Option State :=
  match s.walk (s.aspace asid).root va with
  | .error c => if c = causeNotPresent then s.repair asid va cl else some s
  | .ok _ => some s

/-- The record's thread trapped in TRET at the read of its frame, whose 64 bytes may lie in two pages while TRAPVA names their start (R366). -/
def State.trappedInTret (s : State) (r : TrapRec) : Bool :=
  let c := s.crew r.crew
  r.info.va == (c.thr r.lane).lbase + c.rd2 60 r.lane &&
  match s.target r.core r.asid r.info.pc with
  | .error _ => false
  | .ok p => match p.fetch (slotIdx r.info.pc) with
    | .ok i => i.instr == .tret
    | .error _ => false

/-- What repair does for a record of PAGE_NOT_PRESENT (R119, R232): every page that the instruction needs at TRAPVA is mapped, and the
thread replays it. None when a repair is refused. -/
def State.repairFor (s : State) (r : TrapRec) : Option State :=
  let va := r.info.va.toNat
  (s.repairPage r.asid (clusterOf r.core) va).bind fun s' =>
    if s.trappedInTret r then s'.repairPage r.asid (clusterOf r.core) (va + 63) else some s'

/-- The service repairs the page of a trap record (R232). -/
def State.pageRepair (s : State) (k : Nat) : Option State :=
  match s.traps[k]? with
  | none => none
  | some r =>
    if causeCode r.info.cause != 2 || (s.trapThread r).isNone then none
    else (s.repairFor r).map fun s => (s.dropTrap k).resume r.crew r.lane r.info.pc

/-- PAGE_REPAIR (R232). -/
def execPageRepair (k : Nat) (s : State) : Host.Outcome State Fault Refusal := .next ((s.pageRepair k).getD s)

/-! ### Delivery to the user trap entry -/

/-- The frame stores of a delivery, in four local stores of 16 bytes (R234). -/
def State.storeFrame (s : State) (core asid launch : Nat) (tid : Word) (va : Nat) : List (List Byte) → Done
  | [] => .ok s []
  | f :: fs =>
    let store := fun (s : State) => s.storeVirt core asid launch tid (s.launch launch).dbgmx false va f
    let r := match store s with
      | .trap c =>
        if c = causeNotPresent then
          match s.repair asid va (clusterOf core) with
          | some s' => store s'
          | none => .trap c
        else .trap c
      | x => x
    match r with
    | .ok s' _ => s'.storeFrame core asid launch tid (va + 16) fs
    | x => x

/-- Registers w60 and w61 that a delivery has to draw from the pool. -/
def Crew.framesRegs (c : Crew) : List Nat :=
  if c.core.isNone then [] else [60, 61].filter fun r => match c.reg r with
    | none => true
    | some p => p.bank.isNone && !p.spilled

/-- A delivery sets one register of one lane (R234). -/
def Crew.pokeLane (c : Crew) (r l : Nat) (v : Word) (bank cycle : Nat) : Crew :=
  c.onRegs fun i p =>
    if i = r then
      let p := p.getD {}
      let p := p.onLanes fun k x => if k = l then live v else x
      some { p with touched := cycle, bank := if p.bank.isNone && !p.spilled && c.core.isSome then some bank else p.bank }
    else p

/-- The registers of the frame are read back when they are spilled (R58); none while one cannot be. A crew that is on no core takes its
value from the slot into its eviction area (R226). -/
def State.unspill (s : State) (crew : Nat) : List Nat → Option State
  | [] => some s
  | r :: rs =>
    let c := s.crew crew
    match (c.reg r).filter (·.spilled) with
    | none => s.unspill crew rs
    | some p =>
      match if c.core.isSome then s.refill crew r
          else
            let p := s.readSlot (c.slotCell r) p
            some ((s.setCrew crew (c.onRegs fun k q => if k = r then some p else q)).saveReg c r p) with
      | none => none
      | some s' => s'.unspill crew rs

/-- Registers of a crew that is on no core are written to its eviction area again (R226). -/
def State.saveAgain (s : State) (crew : Nat) (rs : List Nat) : State :=
  rs.foldl (fun s r => match (s.crew crew).reg r with
    | some p => s.saveReg (s.crew crew) r p
    | none => s) s

/-- Delivery of a trap to the user trap entry (R234), with the frame's registers at hand: none while it has to wait for a register or for a
store. -/
def State.deliverFrame (s : State) (r : TrapRec) : Option State :=
  let x := s.launch r.launch
  let c := s.crew r.crew
  let t := c.thr r.lane
  let f := (c.rd2 60 r.lane &&& ~~~15) - 64
  if x.localBytes < f.toNat + 64 then some (s.killLaunch r.launch (causeCode r.info.cause))
  else
    match s.storeFrame c.lastCore x.asid r.launch r.tid (t.lbase.toNat + f.toNat)
        (chunks 16 4 (trapFrame c r.lane r.info)) with
    | .wait => none
    | .trap _ => some (s.killLaunch r.launch (causeCode r.info.cause))
    | .ok s' _ =>
      if c.core.isSome && !s.mayAllocate r.crew c.framesRegs.length then none else
      let s := s'
      let cycle := s.cycleOf r.crew
      let s := [(60, loWord f), (61, hiWord f)].foldl (fun s e =>
        s.setCrew r.crew ((s.crew r.crew).pokeLane e.1 r.lane e.2 (s.pickBank c.lastCore) cycle)) s
      let s := (s.resume r.crew r.lane x.trapEntry).onThr r.crew r.lane fun t =>
        { t with cause := r.info.cause, trapPc := r.info.pc, trapVa := r.info.va }
      let s := s.setCrew r.crew { s.crew r.crew with visible := true }
      some (if c.core.isSome then s.notePool c.lastCore else s.saveAgain r.crew [60, 61])

/-- Delivery of a trap to the user trap entry (R234): none while it has to wait. -/
def State.deliverTrap (s : State) (r : TrapRec) : Option State := (s.unspill r.crew [60, 61, 62, 63]).bind fun s => s.deliverFrame r

/-! ### Policies -/

/-- The policy of a record's launch is applied (R231, R232, R258). -/
def State.applyPolicy (s : State) (k : Nat) (r : TrapRec) : Option State :=
  let x := s.launch r.launch
  let s := s.dropTrap k
  if causeCode r.info.cause = 0x0d ∧ x.debugger = true then some (s.breakpoint r.crew r.lane)
  else
    match x.policy with
    | 0 => some (s.killLaunch r.launch (causeCode r.info.cause))
    | 1 => some (s.killThread r.crew r.lane)
    | 2 => s.deliverTrap r
    | _ => some s

/-- The order in which records are taken (R233): by cycle, then by CREW, then by lane. -/
def TrapRec.comesBefore (q r : TrapRec) : Bool := lexLt [q.dtime, q.num.toNat, q.lane] [r.dtime, r.num.toNat, r.lane]

/-- The policy kills the launch of a record now (R231, R234): KILL_LAUNCH does, and USER when the frame cannot be built. -/
def State.kills (s : State) (r : TrapRec) : Bool :=
  (s.launch r.launch).policy == 0 ||
  ((s.launch r.launch).policy == 2 && (s.deliverTrap r).any fun t => (t.launch r.launch).killCause.isSome)

/-- The service takes up a trap record (R231 to R233): one whose thread is no longer in the trap is discarded, one whose page it can
repair is not the policy's, and one that would kill its launch waits until its cycle is over and none of the launch comes before it. -/
def State.trapPolicy (s : State) (k : Nat) : Option State :=
  match s.traps[k]? with
  | none => none
  | some r =>
    if (s.trapThread r).isNone then some (s.dropTrap k)
    else if (causeCode r.info.cause == 2 && (s.repairFor r).isSome) then none
    else if (causeCode r.info.cause = 0x0d ∧ (s.launch r.launch).debugger = true) then s.applyPolicy k r
    else if s.kills r ∧ (s.dtime ≤ r.dtime ∨ s.traps.any (fun q => q.launch == r.launch && q.comesBefore r && s.kills q)) then none
    else s.applyPolicy k r

/-- TRAP_POLICY (R231). -/
def execTrapPolicy (k : Nat) (s : State) : Host.Outcome State Fault Refusal := .next ((s.trapPolicy k).getD s)

/-- A debugger releases or kills a thread that is held in TRAPPED (R231, R232): a released thread replays its instruction, and after
TRAP or BKPT goes on behind it. -/
def State.debuggerRelease (s : State) (lid : Nat) (tid : Word) (kill : Bool) : Option State :=
  if !(s.launch lid).debugger then none
  else
    match s.findThread lid tid with
    | none => none
    | some (crew, l) =>
      match ((s.crew crew).thr l).trap with
      | none => none
      | some i =>
        if s.traps.any fun r => r.launch == lid && r.tid == tid then none
        else if kill then some (s.killThread crew l)
        else
          let code := causeCode i.cause
          some (s.resume crew l (if code = 0x0c ∨ code = 0x0d then i.next else i.pc))

/-- DEBUGGER_RELEASE (R231). -/
def execDebuggerRelease (launch : Nat) (tid : Word) (kill : Bool) (s : State) : Host.Outcome State Fault Refusal :=
  .next ((s.debuggerRelease launch tid kill).getD s)

end Sys2Proof.Machine
end

