-- ==== Sys2Proof/Machine/Services.lean ====
section
/-! DEFINITION. SCALL, 0xd8, and the services of the resident service (R177 to R181, R237, R238, R350, R369). -/

namespace Sys2Proof.Machine

/-! ### SCALL -/

/-- The 16-byte slots of the request: a lane's group of four registers, zero for the others (R237). -/
def Crew.requests (c : Crew) (a : Reg) (g : Mask) : List (List Byte) :=
  laneList.map fun l =>
    if g.getLsbD l then (quadRegs a).flatMap fun r => leBytes 4 (c.rd r l).toNat else List.replicate 16 0

/-- SCALL (R237, R350): one command for the issue group, which waits for the send rule and for a slot. Its record holds the fields +0 to +23 of
R230 for the leader lane. Their cause word is 0, since no trap has been taken: DESIGN CHOICE (log 67). -/
def execScall (d a : Reg) (i : BitVec 12) (s : State) : Host.Outcome State Fault Refusal :=
  .next (s.issue (opsFuture d (quadRegs a) []) fun s g =>
    let c := s.curCrew
    match s.sent (lanesOf g), (s.core s.curCore).freeSlots with
    | true, k :: _ =>
      let l := leaderOf g
      let head := recordHead c.launch (c.thr l).tid c.num s.curCore l 0
      let kind := CmdKind.scall i.toNat g head (c.requests a g) (List.replicate 32 none)
      .done (s.accept s.curCore k c.launch s.curLaunch.asid (c.thr l).tid kind .queued [])
        (perLane fun _ => { w := [future k] })
    | _, _ => .wait 16)

/-! ### Requests and replies -/

/-- Services of R238. -/
def knownService (n : Nat) : Bool := n == 1 || n == 2 || n == 0x10 || n == 0x11 || n == 0x20

/-- The request of a lane that a service is to serve next: its command and its 16 bytes. The lanes of one call are served in
ascending order, and none once the launch has been killed. -/
def State.request (s : State) (id lane service : Nat) : Option (Cmd × List Byte) :=
  match s.cmd id with
  | none => none
  | some c =>
    match c.kind with
    | .scall n g _ reqs replies =>
      let next := (lanesOf g).find? fun l => (replies.getD l none).isNone
      if n = service ∧ (s.launch c.launch).killCause = none ∧ next = some lane then some (c, reqs.getD lane []) else none
    | _ => none

/-- The reply word of a lane, with the completion time of what the service wrote for it (R151, R237). -/
def State.reply (s : State) (c : Cmd) (lane : Nat) (w : Nat) (ct : Nat) : State :=
  match c.kind with
  | .scall n g h reqs replies =>
    s.setCmd { c with
      kind := .scall n g h reqs (setAt 32 none replies lane (some (BitVec.ofNat 32 w))), phase := .started, ct := max c.ct ct }
  | _ => s

/-- SERVICE_REPLY (R237): the call completes once every lane has its word and DTIME has passed what was written; an unknown service
number completes REFUSED, and a call of a killed launch CANCELLED. -/
def State.serviceReply (s : State) (id : Nat) : Option State :=
  match s.cmd id with
  | none => none
  | some c =>
    match c.kind with
    | .scall n g _ _ replies =>
      if (s.launch c.launch).killCause.isSome then
        some ((s.setCmd { c with kind := .scall n g [] [] [] }).finish id stCancelled)
      else if !knownService n then some (s.finish id (stRefused 0))
      else if (lanesOf g).all fun l => (replies.getD l none).isSome then
        if c.ct = 0 ∨ c.ct < s.dtime then some (s.finish id (stDone 0)) else none
      else none
    | _ => none

/-- SERVICE_REPLY (R237). -/
def execServiceReply (id : Nat) (s : State) : Host.Outcome State Fault Refusal := .next ((s.serviceReply id).getD s)

/-- Where the service writes for a thread of a command through its address space (R369), with a page that is not present repaired first; none
when the thread may not write there. -/
def State.servicePlace (s : State) (c : Cmd) (va : Nat) : State × Option Nat :=
  match s.translateRepair c.core c.asid .write va with
  | (s, .error _) => (s, none)
  | (s, .ok e) => (s, some (e.cell va))

/-- The service writes bytes: the state and the completion time. -/
def State.serviceStore (s : State) (cell : Nat) (bs : List Byte) : State × Nat :=
  if isHost cell then (s.writeHome cell bs, 0) else s.applyHome cell bs

/-- An engine owns a line that the service would write (R142), or a pseudo-channel that it accesses computes (R209): it then has to wait. -/
def State.serviceHeld (s : State) (c : Cmd) (va n : Nat) : Bool :=
  !s.servesVas c.core c.asid c.kind.serviceVas ||
  match s.lookupDie (dieOf c.core) c.asid va with
  | .ok e => s.ownedBy (e.cell va) n
  | .error _ => false

/-! ### ALLOC and FREE -/

/-- Frames of device memory that an interface was granted and that are free. -/
def State.spareFrames (s : State) (vi : Nat) : Nat :=
  let v := s.vi vi
  (v.granted.map fun g => min (g.1 + g.2) (2 ^ 23) - min g.1 (2 ^ 23)).sum - s.frames.countP fun k => v.grants (k % 2 ^ 30 * 65536)

/-- ALLOC for one lane (R238, R369). -/
def State.allocLane (s : State) (id lane : Nat) : Option State :=
  (s.request id lane 1).bind fun q =>
    let c := q.1
    let f := q.2
    let size := field f 0 4
    let home := field f 4 1
    let out := field f 8 8
    if s.serviceHeld c out 8 then none
    else if size = 0 ∨ (8 ≤ home ∧ home ≠ 0xff) ∨ field f 5 3 ≠ 0 ∨ out % 8 ≠ 0 then some (s.reply c lane 1 0)
    else
      match s.servicePlace c out with
      | (s, none) => some (s.reply c lane 1 0)
      | (s, some cell) =>
        let a := s.aspace c.asid
        let v := s.vi a.vi
        match s.reserve c.asid size with
        | none => some (s.reply c lane 1 0)
        | some base =>
          if v.memQuota < v.memUsed + size ∨ s.spareFrames a.vi < size then some (s.reply c lane 3 0)
          else
            let st := if home = 0xff then clusterOf c.core else home
            let r := s.serviceStore cell (leBytes 8 base)
            let s := r.1.setAspace c.asid { a with nextVa := base + size * 65536, allocs := a.allocs ++ [⟨base, size, some st⟩] }
            some ((s.setVi a.vi { v with memUsed := v.memUsed + size }).reply c lane 0 r.2)

/-- ALLOC (R238). -/
def execAllocSvc (id lane : Nat) (s : State) : Host.Outcome State Fault Refusal := .next ((s.allocLane id lane).getD s)

/-- Every page of a range can be shot down. -/
def State.rangeQuiet (s : State) (asid va n : Nat) : Bool := (List.range n).all fun i => s.pageQuiet asid (va + 65536 * i)

/-- FREE for one lane (R238, R369). -/
def State.freeLane (s : State) (id lane : Nat) : Option State :=
  (s.request id lane 2).bind fun q =>
    let c := q.1
    let a := s.aspace c.asid
    match a.allocs.find? fun r => r.base == field q.2 0 8 with
    | none => some (s.reply c lane 1 0)
    | some r =>
      if field q.2 8 8 ≠ 0 then some (s.reply c lane 1 0)
      else if !s.rangeQuiet c.asid r.base r.pages then none
      else
        let s := s.unmapRange c.asid r.base r.pages
        let s := s.setAspace c.asid { a with allocs := a.allocs.filter fun x => x.base != r.base }
        let v := s.vi a.vi
        some ((s.setVi a.vi { v with memUsed := v.memUsed - r.pages }).reply c lane 0 0)

/-- FREE (R238). -/
def execFreeSvc (id lane : Nat) (s : State) : Host.Outcome State Fault Refusal := .next ((s.freeLane id lane).getD s)

/-! ### BAGNEW and BAGFREE -/

/-- A bag as its creation record gives it (R177); none for a field outside the table's limits. -/
def bagOf (f : List Byte) : Option Bag :=
  let cap := field f 0 4
  let size := field f 8 1
  let dom := field f 9 1
  let b := field f 10 1
  let place := field f 12 2
  let limit := if dom = 0 then 511 else if dom = 1 then 7 else 0
  if cap = 0 ∨ 2 ^ 24 < cap ∨ 3 < size ∨ 3 < dom ∨ b = 0 ∨ field f 11 1 ≠ 0 ∨ limit < place ∨ field f 14 8 ≠ 0 ∨
      field f 22 2 ≠ 0 then none
  else some { cap := cap, mask := BitVec.ofNat 32 (field f 4 4), size := size, domain := dom, slack := b, place := place }

/-- The lowest index of the bag table that no bag holds (R177, R178). -/
def ASpace.freeBag (a : ASpace) : Option Nat :=
  (List.range 4096).find? fun i => !(tget {} a.bags i).live && (tget {} a.bags i).freeing.isNone

/-- Pages of a share's slots are mapped (R181): bank-linear, at the share's pseudo-channel. -/
def State.mapShare (s : State) (vi asid p va : Nat) : Nat → Option State
  | 0 => some s
  | n + 1 =>
    match s.pickFrame vi (pchFrames p).1 (pchFrames p).2 true with
    | none => none
    | some f =>
      let s := { s with frames := frameKey f true :: s.frames }.zeroFrame f true
      (s.mapPage asid va (slotEntry f)).mapShare vi asid p (va + 65536) n

/-- The pages of every share of a bag. -/
def State.mapBag (s : State) (vi asid : Nat) (b : Bag) : List Nat → Option State
  | [] => some s
  | n :: ns =>
    match s.mapShare vi asid (b.pch n) (b.slotVa n 0) b.sharePages with
    | none => none
    | some s' => s'.mapBag vi asid b ns

/-- A bag is created (R177): the state, the reply and the completion time of the handle. A page of the record that is not present is repaired
first; beyond that only a created bag changes anything. R177 does not say what is replied for a record whose bytes are poisoned, or when no range can
be reserved for the storage: DESIGN CHOICE, 1 and 3 (logs 87 and 88). -/
def State.newBag (s : State) (c : Cmd) (va : Nat) : State × Nat × Nat :=
  let r := s.engineRecord c.core c.asid va 4
  let w := r.1.servicePlace c (va + 24)
  let s := w.1
  match cleanBytes r.2, w.2 with
  | some f, some cell =>
    match bagOf f with
    | none => (s, 1, 0)
    | some b =>
      let a := s.aspace c.asid
      match a.freeBag with
      | none => (s, 2, 0)
      | some idx =>
        let pages := b.count * b.sharePages
        let v := s.vi a.vi
        if v.memQuota < v.memUsed + pages then (s, 3, 0)
        else
          match s.reserve c.asid pages with
          | none => (s, 3, 0)
          | some base =>
            let b := { b with live := true, gen := (s.bag c.asid idx).gen, base := base }
            let t := s.setAspace c.asid { a with nextVa := base + pages * 65536, bags := tset a.bags idx b }
            match (t.setVi a.vi { v with memUsed := v.memUsed + pages }).mapBag a.vi c.asid b (List.range b.count) with
            | none => (s, 3, 0)
            | some t =>
              let h := t.serviceStore cell (leBytes 8 (b.gen * 4096 + idx + c.asid * 2 ^ 32))
              (h.1, 0, h.2)
  | _, _ => (s, 1, 0)

/-- BAGNEW for one lane (R177). -/
def State.bagnewLane (s : State) (id lane : Nat) : Option State :=
  (s.request id lane 0x10).bind fun q =>
    let c := q.1
    let va := field q.2 0 8
    if s.serviceHeld c (va + 24) 8 then none
    else if va % 32 ≠ 0 ∨ field q.2 8 8 ≠ 0 then some (s.reply c lane 1 0)
    else
      let r := s.newBag c va
      some (r.1.reply c lane r.2.1 r.2.2)

/-- BAGNEW (R177). -/
def execBagnewSvc (id lane : Nat) (s : State) : Host.Outcome State Fault Refusal := .next ((s.bagnewLane id lane).getD s)

/-- Commands on a bag that were accepted before its freeing: placements and drains (R179). -/
def State.bagBusy (s : State) (asid idx : Nat) : Bool :=
  (s.bag asid idx).shares.any (fun h => !h.2.queue.isEmpty) ||
  s.cmds.any fun c => c.asid == asid && (match c.kind with
    | .bdrain i _ _ _ _ => i == idx
    | _ => false)

/-- The storage of a bag goes back (R179): its records are discarded, its pages removed and its quota returned. -/
def State.discardBag (s : State) (asid idx : Nat) : State :=
  let b := s.bag asid idx
  let n := b.count * b.sharePages
  let s := (s.unmapRange asid b.base n).setBag asid idx { gen := b.gen }
  let vi := (s.aspace asid).vi
  let v := s.vi vi
  s.setVi vi { v with memUsed := v.memUsed - n }

/-- The bag that a call, command and lane, is freeing: its address space and its index. -/
def State.freeing (s : State) (id lane : Nat) : Option (Nat × Nat) :=
  s.aspaces.findSome? fun a => (a.2.bags.find? fun b => b.2.freeing == some (id, lane)).map fun b => (a.1, b.1)

/-- The freed bag goes, once the commands on it have completed and its pages can be shot down (R179). -/
def State.endFree (s : State) (asid idx : Nat) : Option State :=
  let b := s.bag asid idx
  if s.bagBusy asid idx || !s.rangeQuiet asid b.base (b.count * b.sharePages) then none else some (s.discardBag asid idx)

/-- A call that waits for its freed bag gets its reply; one whose launch has been killed in the meantime has none any more. -/
def State.replyFree (s : State) (id lane : Nat) : State :=
  match s.request id lane 0x11 with
  | some q => s.reply q.1 lane 0 0
  | none => s

/-- BAGFREE for one lane (R179): the generation rises when the request is served; the bag goes once the commands on it have
completed, whatever becomes of the call. -/
def State.bagfreeLane (s : State) (id lane : Nat) : Option State :=
  match s.freeing id lane with
  | some b => (s.endFree b.1 b.2).map fun s => s.replyFree id lane
  | none =>
    (s.request id lane 0x11).map fun q =>
      let c := q.1
      match s.handle c.asid (BitVec.ofNat 64 (field q.2 0 8)) with
      | none => s.reply c lane 1 0
      | some idx =>
        if field q.2 8 8 ≠ 0 then s.reply c lane 1 0
        else
          let b := s.bag c.asid idx
          let s := s.setBag c.asid idx { b with gen := (b.gen + 1) % 2 ^ 20, live := false, freeing := some (id, lane) }
          let s := s.setCmd { c with phase := .started }
          ((s.endFree c.asid idx).map fun s => s.replyFree id lane).getD s

/-- BAGFREE (R179). -/
def execBagfreeSvc (id lane : Nat) (s : State) : Host.Outcome State Fault Refusal := .next ((s.bagfreeLane id lane).getD s)

/-! ### PRINT -/

/-- A string at an address, up to its zero byte (R369), with the pages repaired on the way: none when a byte cannot be read or none of the first
n is zero. -/
def State.readString (s : State) (c : Cmd) (va : Nat) : Nat → State × Option (List Byte)
  | 0 => (s, none)
  | n + 1 =>
    let r := s.engineLoad c.core c.asid va 1
    match cleanBytes r.2 with
    | some [b] =>
      if b = 0 then (r.1, some [])
      else
        let t := r.1.readString c (va + 1) n
        (t.1, t.2.map (b :: ·))
    | _ => (r.1, none)

/-- PRINT for one lane (R238, R369): the lanes of a call append in ascending order. -/
def State.printLane (s : State) (id lane : Nat) : Option State :=
  (s.request id lane 0x20).bind fun q =>
    let c := q.1
    if !s.servesVas c.core c.asid (stringVas (field q.2 0 8)) then none
    else some (match s.readString c (field q.2 0 8) 256 with
      | (s, none) => s.reply c lane 1 0
      | (s, some bs) =>
        let x := s.launch c.launch
        (s.setLaunch c.launch { x with prints := x.prints ++ [(bs, BitVec.ofNat 64 (field q.2 8 8))] }).reply c lane 0 0)

/-- PRINT (R238). -/
def execPrintSvc (id lane : Nat) (s : State) : Host.Outcome State Fault Refusal := .next ((s.printLane id lane).getD s)

end Sys2Proof.Machine
end

