-- ==== Sys2Proof/Machine/Fabric.lean ====
section
/-! DEFINITION. The host port, Supex, Ultra Ethernet and the boot path (R145, R221, R245 to R250). -/

namespace Sys2Proof.Machine

/-! ### Physical accesses -/

/-- An access of the host or of a Supex port to device memory that one packet can make: within one 256-byte line. -/
def physForm (pa n : Nat) : Bool := 0 < n && pa / 256 == (pa + n - 1) / 256 && pa + n ≤ 2 ^ 39

/-- The memory firewall for accesses of CXL.mem and of Supex packets (R246, R250): the range was granted to the interface in whose name they
come (log 43). -/
def State.granted (s : State) (vi pa : Nat) : Bool := (s.vi vi).grants pa

/-- Bytes are written at their home, sectors marked bad poisoned (R124, R145): the state and the completion time. -/
def State.physWrite (s : State) (pa : Nat) (data : List Byte) (bad : List Bool) : State × Nat :=
  let cell := cellOf pa false
  let r := s.applyHome cell data
  let ws := bad.zipIdx.flatMap fun b => if b.1 then wordsOf (cell + 64 * b.2) 64 else []
  ({ r.1 with bad := addWords r.1.bad ws }, r.2)

/-- A write from outside reaches home (R75, R145, R248, R250, R254): held during a checkpoint, and behind writes that one has held, refused for a code-locked frame or
outside the granted ranges, and otherwise applied and acknowledged once DTIME has passed its completion time. None while an engine
owns the line, or its pseudo-channel does not serve (R209). -/
def State.outsideWrite (s : State) (vi : Nat) (port : Option Nat) (pa : Nat) (data : List Byte) (bad : List Bool) : Option State :=
  if !s.granted vi pa || s.codeLocked pa then some (s.post (.writeAck pa false))
  else if s.ckpt = .streaming ∨ s.held ≠ [] then some { s with held := s.held ++ [⟨some vi, port, pa, data, bad, false⟩] }
  else if s.ownedBy (cellOf pa false) data.length || !s.serves (cellOf pa false) then none
  else
    let r := s.physWrite pa data bad
    some { r.1 with acks := r.1.acks ++ [⟨port, pa, r.2⟩] }

/-- HOST_WRITE (R145, R246): CXL.mem in the name of an interface, or a write of the host to its own memory. -/
def State.hostWrite (s : State) (vi pa : Nat) (data : List Byte) : Option State :=
  if isHost pa && pa + data.length ≤ 2 ^ 46 then some (s.writeHome pa data)
  else if physForm pa data.length then s.outsideWrite vi none pa data []
  else none

/-- HOST_WRITE (R145). -/
def execHostWrite (dest : PortAddr) (data : List Byte) (s : State) : Host.Outcome State Fault Refusal :=
  .next ((s.hostWrite dest.vi dest.pa data).getD s)

/-- The poison of each sector of a range in one line. -/
def State.poisonOf (s : State) (cell n : Nat) : List Bool :=
  (List.range ((cell + n - 1) / 64 - cell / 64 + 1)).map fun i => s.sectorBad (cell / 64 * 64 + 64 * i)

/-- A read from outside is served at home and takes no lease (R145, R248, R250). None while an engine owns the line, or its pseudo-channel does not
serve (R209). -/
def State.outsideRead (s : State) (vi pa n : Nat) : Option State :=
  let cell := cellOf pa false
  if !physForm pa n || s.ownedBy cell n || !s.serves cell then none
  else if !s.granted vi pa then some (s.post (.readError pa))
  else some (s.post (.readReply (Memory.readN s.mem cell n) (s.poisonOf cell n)))

/-- HOST_READ (R145). -/
def execHostRead (dest : PortAddr) (n : Nat) (s : State) : Host.Outcome State Fault Refusal := .next ((s.outsideRead dest.vi dest.pa n).getD s)

/-! ### Supex -/

/-- A Supex port (R248). -/
def State.port (s : State) (p : Nat) : SupexPort := tget {} s.supex p
/-- A port that is up. -/
def State.portUp (s : State) (p : Nat) : Bool := p < 48 && !(s.port p).down
/-- A flit has passed its link check: its retries are over. -/
def State.delivered (s : State) (p : Nat) : State := { s with supex := tset s.supex p { s.port p with retries := 0 } }

/-- What a packet with data reads or writes (R248): the four sectors of one 256-byte line of device memory (log 79). -/
def packetForm (pa : Nat) : Bool := pa % 256 == 0 && pa + 256 ≤ 2 ^ 39

/-- The data of a packet: four 64-byte flits, each with its poison bit (R248). -/
def packetData (data : List Byte) (bad : List Bool) : Bool := data.length == 256 && bad.length == 4

/-- SUPEX_WRITE_IN (R248). -/
def State.supexWrite (s : State) (vi p pa : Nat) (data : List Byte) (bad : List Bool) : Option State :=
  if s.portUp p && packetForm pa && packetData data bad then (s.delivered p).outsideWrite vi (some p) pa data bad else none

/-- SUPEX_WRITE_IN (R248). -/
def execSupexWriteIn (port : Nat) (dest : PortAddr) (data : List Byte) (poison : List Bool) (s : State) : Host.Outcome State Fault Refusal :=
  .next ((s.supexWrite dest.vi port dest.pa data poison).getD s)

/-- The reply to the oldest read packet that the service has sent on a port (R248): its four sectors are written where the transfer wants them,
with their poison. A write of a code-locked frame is refused, which the service learns (R75), and during a checkpoint the write is held as any other
(R254). None while an engine owns the line, or its pseudo-channel does not serve (R209). -/
def State.peerReply (s : State) (p : Nat) (data : List Byte) (bad : List Bool) : Option State :=
  match s.peerReads.find? fun r => r.1 == p with
  | none => none
  | some r =>
    let s' := { s.delivered p with peerReads := s.peerReads.erase r }
    if !s.portUp p || !packetData data bad then none
    else if s.codeLocked r.2 then some (s'.post (.writeAck r.2 false))
    else if s.ckpt = .streaming ∨ s.held ≠ [] then some { s' with held := s'.held ++ [⟨none, some p, r.2, data, bad, true⟩] }
    else if s.ownedBy (cellOf r.2 false) 256 || !s.serves (cellOf r.2 false) then none
    else some (s'.physWrite r.2 data bad).1

/-- SUPEX_READ_IN (R248): an incoming read packet, which carries no data and asks for four sectors, or a read reply. -/
def execSupexReadIn (port : Nat) (dest : PortAddr) (reply : Option (List Byte × List Bool)) (s : State) : Host.Outcome State Fault Refusal :=
  .next (match reply with
    | none => if s.portUp port && packetForm dest.pa then ((s.delivered port).outsideRead dest.vi dest.pa 256).getD s else s
    | some d => (s.peerReply port d.1 d.2).getD s)

/-- A port goes down (R248): the packets in flight on it, write packets of the service that have not left it, incoming writes that wait for their
acknowledgement and reads that wait for their reply, end with an error to the resident service. -/
def State.portDown (s : State) (p : Nat) : State :=
  let mine := fun (q : Option Nat) => q == some p
  let n := s.acks.countP (fun a => mine a.port) + (s.held.countP fun h => mine h.port && !h.lost) +
    (s.peerReads.countP fun r => r.1 == p) + s.peerOut.countP fun r => r.1 == p
  let s : State := { s with
    peerOut := s.peerOut.filter fun r => r.1 != p
    supex := tset s.supex p { down := true }, peerReads := s.peerReads.filter fun r => r.1 != p
    acks := s.acks.filter (fun a => !mine a.port), held := s.held.map fun h => if mine h.port then { h with lost := true } else h }
  s.post (.portError p n)

/-- SUPEX_PORT_DOWN (R248). -/
def execSupexPortDown (port : Nat) (s : State) : Host.Outcome State Fault Refusal :=
  .next (if s.portUp port then s.portDown port else s)

/-- FLIT_RETRY (R248): the sixteenth retry of one flit that fails takes the port down. -/
def execFlitRetry (port : Nat) (s : State) : Host.Outcome State Fault Refusal :=
  .next (if s.portUp port then
      let n := (s.port port).retries + 1
      if n = 16 then s.portDown port else { s with supex := tset s.supex port { s.port port with retries := n } }
    else s)

/-- A write packet that the service sends on a port: the four sectors of a line with their poison. -/
def State.writePacket (s : State) (port pa : Nat) : Post :=
  .streamed port pa (Memory.readN s.mem (cellOf pa false) 256) (s.poisonOf (cellOf pa false) 256)

/-- A peer transfer of system software (R248): the service sends n bytes in write packets, which leave the port as time passes, or asks for n bytes
in read packets. -/
def State.peerPackets (s : State) (port pa n : Nat) (read : Bool) : Option State :=
  let lines := (List.range (n / 256)).map fun i => pa + 256 * i
  if !s.portUp port || n = 0 || n % 256 != 0 || pa % 256 != 0 || decide (2 ^ 39 < pa + n) then none
  else if read then some { s with peerReads := s.peerReads ++ lines.map fun a => (port, a) }
  else if lines.any fun a => s.ownedBy (cellOf a false) 256 || !s.serves (cellOf a false) then none
  else some { s with peerOut := s.peerOut ++ lines.map fun a => (port, s.writePacket port a) }

/-- PEER_TRANSFER (R248). -/
def execPeerTransfer (port pa : Nat) (what : PeerRange) (s : State) : Host.Outcome State Fault Refusal :=
  .next ((s.peerPackets port pa what.n what.read).getD s)

/-! ### Launch queues and Ultra Ethernet -/

/-- A doorbell write (R221, R245): a tail outside the ring is ignored. -/
def State.doorbell (s : State) (vi queue tail : Nat) : Option State :=
  let v := s.vi vi
  let q := tget {} v.queues queue
  if thas v.queues queue && tail < 2 ^ q.log2 then
    some (s.setVi vi { v with queues := tset v.queues queue { q with tail := tail } })
  else none

/-- DOORBELL_WRITE (R245): the doorbell of queue q is the register at offset 8q of BAR 0 of the interface's virtual function. -/
def execDoorbellWrite (vi offset : Nat) (tail : Word) (s : State) : Host.Outcome State Fault Refusal :=
  .next (if offset % 8 = 0 ∧ offset / 8 < 8 then (s.doorbell vi (offset / 8) tail.toNat).getD s else s)

/-- The service puts a remote client's launch record into its interface's queue and advances the tail (R221, R247); nothing when the
ring is full or cannot be written. None while an engine owns a line of the record (R142). -/
def State.queueRecord (s : State) (vi queue : Nat) (record : List Byte) : Option State :=
  let v := s.vi vi
  let q := tget {} v.queues queue
  if !thas v.queues queue || record.length != 128 || (q.tail + 1) % 2 ^ q.log2 == q.head then some s
  else
    let va := q.base + 128 * q.tail
    let r := s.translateRepair 0 q.asid .write va
    match r.2 with
    | .error _ => some r.1
    | .ok e =>
      if r.1.ownedBy (e.cell va) 128 || !r.1.serves (e.cell va) then none
      else
        let s := (r.1.applyHome (e.cell va) record).1
        some (s.setVi vi { s.vi vi with queues := tset v.queues queue { q with tail := (q.tail + 1) % 2 ^ q.log2 } })

/-- A remote client's request is served (R247): a put goes to its bag's count cell, a launch record to its queue, and the answer
leaves on the port that carried it. None while it has to wait for an engine (R142). -/
def State.serveUe (s : State) (u : UeInFlight) : Option State :=
  match u.req with
  | .put .. => some { s with reservations := s.reservations ++ [u] }
  | .launch vi queue record => (s.queueRecord vi queue record).map fun s => s.post (.ueAnswer u.port)
  | .other _ => some (s.post (.ueAnswer u.port))

/-- UE_FRAME_RECEIVE (R247): during a checkpoint requests are held unanswered (R254), and so they are behind one that waits. -/
def execUeFrameReceive (port : Nat) (req : UeRequest) (s : State) : Host.Outcome State Fault Refusal :=
  .next (if 2 ≤ port || s.ueDown.contains port then s
    else
      match if s.ckpt = .idle ∧ s.ueFlights = [] then s.serveUe ⟨port, req⟩ else none with
      | some s' => s'
      | none => { s with ueFlights := s.ueFlights ++ [⟨port, req⟩] })

/-- UE_LINK_DOWN (R247): only the requests in flight on the link go with it. -/
def execUeLinkDown (port : Nat) (s : State) : Host.Outcome State Fault Refusal :=
  .next (if port < 2 then
      { s with
        ueDown := if s.ueDown.contains port then s.ueDown else port :: s.ueDown
        ueFlights := s.ueFlights.filter (fun u => u.port != port)
        reservations := s.reservations.filter fun u => u.port != port }
    else s)

/-- The rates that the host port supports (R245): PCIe 7.0, 6.x and 5.0, by their major number. -/
def portRates : List Nat := [7, 6, 5]

/-- LINK_TRAIN (R245): the link trains at the highest rate that the port and the other end, which names its own rates, support, at width x4, x8
or x16. -/
def execLinkTrain (rates : List Nat) (width : Nat) (s : State) : Host.Outcome State Fault Refusal :=
  .next (match portRates.find? rates.contains with
    | none => s
    | some gen => if width = 4 ∨ width = 8 ∨ width = 16 then { s with linkGen := gen, linkWidth := width } else s)

/-! ### Boot -/

/-- The bytes of the image's XMSS signature (R249). -/
def signatureBytes : Nat := 2820

/-- The image verifies (R249): it holds a signature, its last 2820 bytes (log 16), that verifies the bytes before it against the fused root. -/
def imageVerifies (image : List Byte) : Bool :=
  let n := image.length - signatureBytes
  decide (signatureBytes ≤ image.length) && Config.xmssVerifies Config.fusedRoot (image.take n) (image.drop n)

/-- The image's signature decides whether the resident service starts or the module stays in recovery (R249, log 16). -/
def bootTo (image : List Byte) : BootPhase := if imageVerifies image then .running else .recovery

/-- RESET_BOOT (R249): the module is reset, its ROM reads one image and verifies it. Host memory and what lies outside the module stay
(log 5). -/
def execResetBoot (image : List Byte) (s : State) : Host.Outcome State Fault Refusal :=
  .next { State.reset with
    boot := bootTo image, mem := s.mem.filter fun e => isHost e.1, inbox := s.inbox, pace := s.pace, fresh := s.fresh }

/-- RECOVERY_LOAD (R249): a fresh load over the mailbox of physical function 0 or the endpoint of port 0. -/
def execRecoveryLoad (_port : Bool) (image : List Byte) (s : State) : Host.Outcome State Fault Refusal :=
  .next (if s.boot = .recovery then { s with boot := bootTo image } else s)

end Sys2Proof.Machine
end

