-- ==== Sys2Proof/Machine/Checkpoint.lean ====
section
/-! DEFINITION. Checkpoints (R14, R254). -/

namespace Sys2Proof.Machine

/-- Engine commands that have started and not completed, stores on their way, crews that have still to leave their cores, placements and
answers of the service: what a checkpoint waits for (R254). -/
def State.unsettled (s : State) : Bool :=
  (s.cmds.any fun c => c.phase != .queued && (match c.kind with
    | .launch _ => false
    | _ => true)) || !s.flights.isEmpty || (s.crews.any fun e => e.2.core.isSome) ||
  s.aspaces.any fun a => a.2.bags.any fun b => b.2.freeing.isSome || b.2.shares.any fun h => !h.2.queue.isEmpty

/-- Every crew is evicted (R226, R254). -/
def State.evictAll (s : State) : State :=
  ((s.crews.filter fun e => e.2.core.isSome).map (·.1)).foldl (fun s k => s.takeVictim k) s

/-- A checkpoint's request, and the end of its quiescing, at which streaming starts (R254). -/
def State.checkpoint (s : State) : State :=
  match s.ckpt with
  | .idle => { s.evictAll with ckpt := .quiescing }
  | .quiescing => if s.unsettled then s else { s with ckpt := .streaming }
  | .streaming => s

/-- CHECKPOINT (R254). -/
def execCheckpoint (s : State) : Host.Outcome State Fault Refusal := .next s.checkpoint

/-- A held write is applied at its home (R254), unless its frame has been code-locked or taken from its interface since (R75, R250); none while an
engine owns its line (R142), or its pseudo-channel does not serve (R209). -/
def State.releaseWrite (s : State) (h : HeldWrite) : Option State :=
  if s.codeLocked h.pa || h.vi.any (fun v => !s.granted v h.pa) then
    some (if h.lost && h.vi.isSome then s else s.post (.writeAck h.pa false))
  else if s.ownedBy (cellOf h.pa false) h.data.length || !s.serves (cellOf h.pa false) then none
  else
    let r := s.physWrite h.pa h.data h.bad
    some (if h.lost then r.1 else { r.1 with acks := r.1.acks ++ [⟨h.port, h.pa, r.2⟩] })

/-- Held writes are applied in their order of arrival, as far as no engine holds one back: the state, and what stays held. -/
def State.releaseWrites (s : State) : List HeldWrite → State × List HeldWrite
  | [] => (s, [])
  | h :: hs =>
    match s.releaseWrite h with
    | none => (s, h :: hs)
    | some s => s.releaseWrites hs

/-- Held requests are served in their order of arrival, as far as none has to wait. -/
def State.serveUes (s : State) : List UeInFlight → State × List UeInFlight
  | [] => (s, [])
  | u :: us =>
    match s.serveUe u with
    | none => (s, u :: us)
    | some s => s.serveUes us

/-- What a checkpoint has held goes on (R254). -/
def State.releaseHeld (s : State) : State :=
  let w := s.releaseWrites s.held
  let u := w.1.serveUes w.1.ueFlights
  { u.1 with held := w.2, ueFlights := u.2 }

/-- Something that a checkpoint has held, or that has waited for an engine, can go on. -/
def State.mayRelease (s : State) : Bool :=
  (match s.held with
    | [] => false
    | h :: _ => (s.releaseWrite h).isSome) ||
  match s.ueFlights with
  | [] => false
  | u :: _ => (s.serveUe u).isSome

/-- A checkpoint completes (R254): the tier holds a copy of device memory with its poison, the held writes are applied in their order of
arrival, and the held requests are served. What an engine holds back then follows when it can. -/
def State.checkpointDone (s : State) : Option State :=
  match s.ckpt with
  | .streaming => some ({ s.post (.checkpointDone true (s.mem.filter fun e => !isHost e.1) s.bad) with ckpt := .idle } : State).releaseHeld
  | .idle => if s.mayRelease then some s.releaseHeld else none
  | .quiescing => none

/-- CHECKPOINT_COMPLETE (R254). -/
def execCheckpointComplete (s : State) : Host.Outcome State Fault Refusal := .next ((s.checkpointDone).getD s)

end Sys2Proof.Machine
end

