-- ==== Sys2Proof/Machine/Control.lean ====
section
/-! DEFINITION. Branches, meetings, herd barriers, EXIT and YIELD, 0xa0 to 0xaa (R18 to R33, R273, R274, R283, R287, R302, R318,
R330, R331, R336, R348, R368), and the events that end a meeting's deadline and a YIELD's hold. -/

namespace Sys2Proof.Machine

/-! ### Branches -/

/-- BR (R283). -/
def execBr (o : BitVec 24) (s : State) : Host.Outcome State Fault Refusal :=
  .next (s.alu {} fun _ _ => { pc := .to (offTarget s.cur.pc o) })

/-- CALL (R287): the link is the instruction after the CALL (R67). -/
def execCall (o : BitVec 24) (s : State) : Host.Outcome State Fault Refusal :=
  .next (s.alu { dst := [62, 63] } fun _ _ =>
    { w := live2 (seqPc s.cur.pc s.cur.wide), pc := .to (offTarget s.cur.pc o) })

/-- The effect of a jump to the address that a pair holds (R318). -/
def State.jumpTo (s : State) (a : Reg) (l : Nat) : Eff :=
  let t := s.curCrew.rd2 a.toNat l
  match s.target s.curCore s.curLaunch.asid t with
  | .error (c, va) => trapped c va
  | .ok _ => { pc := .to t }

/-- JMP (R318). -/
def execJmp (a : Reg) (s : State) : Host.Outcome State Fault Refusal :=
  .next (s.issue { a := pairRegs a } fun s _ => .done s (perLane (s.jumpTo a)))
/-- RET (R318, R348). -/
def execRet (a : Reg) (s : State) : Host.Outcome State Fault Refusal :=
  .next (s.issue { a := pairRegs a } fun s _ => .done s (perLane (s.jumpTo a)))

/-! ### Meetings -/

/-- Replace the issuing crew. -/
def State.setCur (s : State) (c : Crew) : State := s.setCrew s.cur.crew c

/-- MPUSH (R22, R336): one instance for the lanes of G whose stack has room. -/
def execMpush (o : BitVec 24) (s : State) : Host.Outcome State Fault Refusal :=
  .next (s.issue {} fun s g =>
    let c := s.curCrew
    let full := fun l => 16 ≤ (c.thr l).stack.length
    let sib := maskOf fun l => g.getLsbD l && !full l
    let m : Meeting := { id := c.nextMeeting, addr := offTarget s.cur.pc o, sib := sib }
    let c := if sib = 0 then c
      else { c.onMask sib fun _ t => { t with stack := m.id :: t.stack } with
             meetings := c.meetings ++ [m], nextMeeting := c.nextMeeting + 1 }
    .done (s.setCur c) (perLane fun l => if full l then trapped causeMeetOverflow 0 else {}))

/-- MJOIN (R24, R25, R331): every arrival is recorded, then the crew's meetings are settled. -/
def execMjoin (i : BitVec 12) (s : State) : Host.Outcome State Fault Refusal :=
  .next (s.issue {} fun s g =>
    let c := s.curCrew
    let cycle := s.cycleOf s.cur.crew
    let ls := (lanesOf g).filter fun l => !(c.thr l).stack.isEmpty
    let c' := (ls.foldl (fun c l => c.arrive l (i.toNat * 64) cycle) c).settleMeetings cycle
    .done (s.setCur c') (perLane fun l =>
      if (c.thr l).stack.isEmpty then trapped causeMeetUnderflow 0 else { pc := .kept }))

/-- MDROP (R26, R330). -/
def execMdrop (i : BitVec 12) (s : State) : Host.Outcome State Fault Refusal :=
  .next (s.issue {} fun s g =>
    let c := s.curCrew
    let n := i.toNat
    let short := fun l => (c.thr l).stack.length < n
    let ls := (lanesOf g).filter fun l => !short l
    let c1 := ls.foldl (fun c l => ((c.thr l).stack.take n).foldl (fun c id => c.depart id (laneMask l)) c) c
    let c2 := ls.foldl (fun c l => c.setThr l { c.thr l with stack := (c.thr l).stack.drop n }) c1
    .done (s.setCur (c2.settleMeetings (s.cycleOf s.cur.crew))) (perLane fun l =>
      if short l then trapped causeMeetUnderflow 0 else {}))

/-- A meeting's deadline passes (R24, R25). -/
def State.meetTimeout (s : State) (crew meeting : Nat) : Option State :=
  let c := s.crew crew
  match c.meeting meeting with
  | none => none
  | some m =>
    if m.expired c.now && m.wait != 0 then some (s.setCrew crew (c.settleMeeting (s.cycleOf crew) meeting)) else none

/-- MEET_DEADLINE (R24). -/
def execMeetDeadline (crew meeting : Nat) (s : State) : Host.Outcome State Fault Refusal :=
  .next ((s.meetTimeout crew meeting).getD s)

/-! ### Barriers -/

/-- The lane's herd slot (R29, R32). -/
def Thread.herd (t : Thread) (slot : Nat) : Option Nat := t.herds.getD slot none

/-- Arrivals of one instruction, in ascending lane order (R31, R32): each is recorded, and a BAR, or a second arrival in one
phase, puts the thread into BARRIER. -/
def State.arriveLanes (s : State) (slot : Nat) (waits : Bool) : List Nat → State
  | [] => s
  | l :: ls =>
    let c := s.curCrew
    let t := c.thr l
    match t.herd slot with
    | none => s.arriveLanes slot waits ls
    | some h =>
      let b := (s.launch c.launch).barrier h
      let stays := waits || b.arrived.contains t.tid
      let s := s.onBarrier c.launch h fun b => b.arrive t.tid waits
      let t := if stays then { t with state := .barrier, barrier := some h, passBar := false } else t
      (s.setCrew s.cur.crew (c.setThr l t)).arriveLanes slot waits ls

/-- BAR and BARA (R31 to R33): the arrival waits as FENCE.dev does, and all arrivals are recorded before the phase is tested. -/
def State.barrierOp (s : State) (slot : Nat) (waits : Bool) : State :=
  s.issue { visible := true } fun s g =>
    let c := s.curCrew
    let ls := (lanesOf g).filter fun l => ((c.thr l).herd slot).isSome
    if ls.all fun l => s.fenced 1 s.cur.crew l then
      let s := s.arriveLanes slot waits ls
      let hs := (ls.filterMap fun l => (c.thr l).herd slot).dedup
      .done (hs.foldl (fun s h => s.settleBarrier c.launch h 2) s) (perLane fun l =>
        if ((c.thr l).herd slot).isNone then trapped causeNoHerd 0 else {})
    else .wait 5

/-- The lanes of the issue group that a debugger's step stops before a BAR that they have not been released through, whatever its guard
says of them (R257). -/
def State.stepStops (s : State) : Mask :=
  if s.cur.entry || s.curCrew.stepping.isNone then 0 else s.cur.mask &&& maskOf fun l => !(s.curCrew.thr l).passBar

/-- The lanes of the issue group that have no unretired entry: no squash can send them back, so that they stand where they are (R63, R257). -/
def State.settledLanes (s : State) : Mask := maskOf fun l => (s.curCrew.rob.all fun e => !e.issue.mask.getLsbD l)

/-- BAR (R273): a thread that a debugger's step stops before it is halted there, once it has no unretired instruction, and the BAR does not
issue (R257). -/
def execBar (i : BitVec 12) (s : State) : Host.Outcome State Fault Refusal :=
  .next (if s.stepStops = 0 then s.barrierOp i.toNat true
    else s.setCur (s.curCrew.onMask (s.stepStops &&& s.settledLanes) fun _ t => { t with halted := true }))
/-- BARA (R274). -/
def execBara (i : BitVec 12) (s : State) : Host.Outcome State Fault Refusal := .next (s.barrierOp i.toNat false)

/-! ### EXIT and YIELD -/

/-- EXIT (R20, R302). -/
def execExit (s : State) : Host.Outcome State Fault Refusal :=
  .next (s.issue {} fun s g => .done (s.endThreads s.cur.crew g) [])

/-- YIELD (R21, R368): the threads are held for the 64 cycles that follow its own. -/
def execYield (s : State) : Host.Outcome State Fault Refusal :=
  .next (s.issue {} fun s g =>
    .done (s.setCur (s.curCrew.onMask g fun _ t => { t with hold := some (s.cycleOf s.cur.crew + 65) })) [])

/-- The clock that counts the holds of a crew's YIELDs (R21): its core's, or its cluster's while it has no core. -/
def State.holdClock (s : State) (crew : Nat) : Nat :=
  match (s.crew crew).core with
  | some n => (s.core n).cycle
  | none => (s.cluster (s.crew crew).cluster).cycle

/-- The hold of a YIELD ends (R21). -/
def State.endHold (s : State) (crew l : Nat) : Option State :=
  let t := (s.crew crew).thr l
  match t.hold with
  | none => none
  | some k =>
    if k ≤ s.holdClock crew then
      some (s.onThr crew l fun t => { t with hold := none, readySince := s.cycleOf crew })
    else none

/-- YIELD_EXPIRY (R21). -/
def execYieldExpiry (crew lane : Nat) (s : State) : Host.Outcome State Fault Refusal := .next ((s.endHold crew lane).getD s)

end Sys2Proof.Machine
end

