-- ==== Sys2Proof/Machine/Matrix.lean ====
section
/-! DEFINITION. The matrix engine: MMA, MDRAIN, MZERO and COPYS, 0xc0 to 0xc2 and 0xb7, their queues and their events (R103, R104,
R159 to R174, R241, R242, R295, R329, R333, R338). -/

namespace Sys2Proof.Machine

/-! ### Shape records -/

/-- An element of a tile as the window holds it, with its poison. -/
def Window.elem (w : Window) (h : Shape) (r c : Nat) : Nat × Bool :=
  let off := (h.off r c).toNat
  (leNat (w.read off (fmtBytes h.format)), w.bad off)

/-- What R160 asks of every record that the matrix engine reads. -/
def Shape.regular (h : Shape) : Bool :=
  let n := fmtBytes h.format
  h.clean && h.elemStride != 0 && h.elemStride % n == 0 && h.elems.all fun e => h.off e.1 e.2 % n == 0

/-- The first element outside the scratch window, as the low 32 bits of its offset. -/
def Window.outside (w : Window) (h : Shape) : Option Dword :=
  (h.elems.find? fun e => h.off e.1 e.2 < 0 || (w.bytes : Int) < h.off e.1 e.2 + fmtBytes h.format).map fun e =>
    BitVec.ofNat 64 ((h.off e.1 e.2 % 2 ^ 32).toNat)

/-- Cells of the accumulator window (R109). -/
def Window.cells (w : Window) : Nat := w.accUnits * 4096
/-- Drain scales of the window (R109). -/
def Window.scales (w : Window) : Nat := w.dsUnits * 256
/-- Block-scale bytes of the window (R109). -/
def Window.blocks (w : Window) : Nat := w.bsUnits * 1024

/-- The K-group of a format (R103, R163). -/
def kGroup (format : Nat) : Nat := if fmtBytes format = 1 then 32 else 8

/-- The formats and scale offsets that MMA accepts together (R163). -/
def mmaFormats (a b : Shape) : Bool :=
  let eight := fun (f : Nat) => 3 ≤ f && f ≤ 5
  let sixteen := fun (f : Nat) => f == 1 || f == 2
  (eight a.format && eight b.format && (a.format == 5) == (b.format == 5)) ||
  (sixteen a.format && sixteen b.format && a.scaleOff == 0xffff && b.scaleOff == 0xffff)

/-- Both records are valid for MMA (R160, R163; log 20 for dimensions of 0). -/
def mmaValid (a b : Shape) : Bool :=
  let dim := fun (n : Nat) => n % 8 == 0 && 8 ≤ n && n ≤ 256
  mmaFormats a b && b.rows == a.cols && dim a.rows && dim b.cols && a.cols % kGroup a.format == 0 && a.cols != 0 &&
  a.cols ≤ 4096 && a.regular && b.regular

/-- The record is valid for MDRAIN (R169, R329). -/
def drainValid (d : Shape) : Bool :=
  (d.format ≤ 5 || d.format == 7) && 1 ≤ d.rows && d.rows ≤ 256 && 1 ≤ d.cols && d.cols ≤ 256 && d.scaleOff == 0xffff &&
  d.regular

/-! ### What commands touch (R168) -/

/-- The accumulator cells that a matrix command reads or writes: first and number. -/
def CmdKind.cellRange : CmdKind → Nat × Nat
  | .mma a b _ _ _ _ _ acc _ _ => (acc, a.rows * b.cols)
  | .mdrain d _ _ _ _ _ _ _ acc => (acc, d.rows * d.cols)
  | .mzero base n => (base, n)
  | _ => (0, 0)

/-- The block-scale bytes that a matrix command reads or writes: first and number, of each side. -/
def CmdKind.blockRanges : CmdKind → List (Nat × Nat)
  | .mma a b _ _ _ _ _ _ _ _ =>
    (if a.scaleOff = 0xffff then [] else [(a.scaleOff, a.rows * (a.cols / 32))]) ++
    (if b.scaleOff = 0xffff then [] else [(b.scaleOff, b.cols * (a.cols / 32))])
  | .copys true _ first count => [(first, count)]
  | _ => []

/-- Two ranges share an entry. -/
def meets (x y : Nat × Nat) : Bool := x.2 != 0 && y.2 != 0 && x.1 < y.1 + y.2 && y.1 < x.1 + x.2

/-- Two commands of one launch on one core overlap in cells or block scales (R168). -/
def Cmd.overlaps (c d : Cmd) : Bool :=
  c.launch == d.launch &&
  (meets c.kind.cellRange d.kind.cellRange || c.kind.blockRanges.any fun x => d.kind.blockRanges.any (meets x))

/-- MMA, with its queue. -/
def CmdKind.isMma : CmdKind → Bool
  | .mma .. => true
  | _ => false

/-- A command of the drain stage. -/
def CmdKind.isDrain : CmdKind → Bool
  | .mdrain .. | .mzero .. | .copys .. => true
  | _ => false

/-- The queue that an MMA enters. -/
def CmdKind.inQ (k : CmdKind) (q : Bool) : Bool :=
  match k with
  | .mma _ _ _ _ _ x _ _ _ _ => x == q
  | _ => false

/-- A command that waits or runs. -/
def Cmd.alive (c : Cmd) : Bool := c.phase == .queued || c.phase == .started

/-- The commands of a core. -/
def State.cmdsOf (s : State) (core : Nat) : List Cmd := s.cmds.filter fun c => c.core == core

/-- The queue of an MMA holds 16 commands, the drain stage 8 (R166, R168). -/
def State.matrixFull (s : State) (core : Nat) (k : CmdKind) : Bool :=
  let cs := s.cmdsOf core
  match k with
  | .mma _ _ _ _ _ q _ _ _ _ => 16 ≤ cs.countP fun c => c.kind.inQ q && c.phase == .queued
  | _ => 8 ≤ cs.countP fun c => c.kind.isDrain && c.alive

/-! ### Arithmetic -/

/-- An exact value times 2^k. -/
def Exact.shift (x : Exact) (k : Int) : Exact :=
  match x with
  | .num n m e => .num n m (e + k)
  | x => x

/-- An exact value times an operand. -/
def Exact.times (x : Exact) (y : FVal) : Exact :=
  match x with
  | .invalid => .invalid
  | .inf n => mulExact (.inf n) y
  | .num n m e => mulExact (.fin n m e) y

/-- One term na * a * nb * b of a group sum (R103). No rule gives the sign of a zero product of integers: DESIGN CHOICE, it is +0 here, whatever the
signs of the factors and NA and NB (log 18). -/
def mmaTerm (c : FCtx) (fa fb : Nat) (neg : Bool) (x y : Nat) : Exact :=
  if isIntFmt fa then
    let v := signedNat x 8 * signedNat y 8
    let v := if neg then -v else v
    .num (v < 0) v.natAbs 0
  else
    let a := elemValue c fa x
    let b := elemValue c fb y
    if a.isNan || b.isNan then .invalid else mulExact (if neg then a.negate else a) b

/-- The settings of MMA (R104): nearest even, canonical NaNs, FTZ and FTZN of the leader lane. -/
def mmaCtx (ftz ftzn : Bool) : FCtx := { ftz := ftz, ftzn := ftzn, dn := true }

/-- The term t of a K-group (R103): the exact sum, scaled and rounded once. -/
def mmaGroup (c : FCtx) (terms : List Exact) (ea eb : Option Int) : Nat :=
  match ea, eb with
  | some x, some y => (fp32.deliver c [] ((sumExact 0 terms).shift (x + y))).1
  | _, _ => fp32.canonical

/-- The running sum of a cell over the groups' terms (R103). -/
def mmaSum (c : FCtx) (za : Bool) (cell : Nat) : List Nat → Nat
  | [] => cell
  | t :: ts => ts.foldl (fun acc t => (fAdd fp32 c acc t).1) (if za then t else (fAdd fp32 c cell t).1)

/-- A block scale with its poison (R165): 127 when the tile has none. -/
def Window.blockScale (w : Window) (h : Shape) (row g : Nat) (groups : Nat) : Option Int × Bool :=
  if h.scaleOff = 0xffff then (some 0, false)
  else
    let k := h.scaleOff + row * groups + g
    (e8m0Exp (tget 0 w.bs k).toNat, w.bsBad.contains (k / 64))

/-- mma_cell of R103. -/
def Window.mmaCell (w : Window) (a b : Shape) (na nb za ftz ftzn : Bool) (acc i j : Nat) : Nat :=
  let c := mmaCtx ftz ftzn
  let n := kGroup a.format
  let groups := a.cols / n
  let ts := (List.range groups).map fun g =>
    mmaGroup c ((List.range n).map fun k =>
        mmaTerm c a.format b.format (na != nb) (w.elem a i (g * n + k)).1 (w.elem b (g * n + k) j).1)
      (w.blockScale a i g groups).1 (w.blockScale b j g groups).1
  mmaSum c za (tget 0 w.acc (acc + i * b.cols + j)).toNat ts

/-- Row i of A reads a poisoned element or scale (R164). -/
def Window.rowBad (w : Window) (a : Shape) (i : Nat) : Bool :=
  ((List.range a.cols).any fun k => (w.elem a i k).2) ||
  (List.range (a.cols / kGroup a.format)).any fun g => (w.blockScale a i g (a.cols / kGroup a.format)).2

/-- Column j of B reads a poisoned element or scale (R164). -/
def Window.colBad (w : Window) (b : Shape) (j : Nat) : Bool :=
  ((List.range b.rows).any fun k => (w.elem b k j).2) ||
  (List.range (b.rows / kGroup b.format)).any fun g => (w.blockScale b j g (b.rows / kGroup b.format)).2

/-- A cell's sector is poisoned. -/
def Window.cellBad (w : Window) (k : Nat) : Bool := w.accBad.contains (k / 16)

/-- The settings of MDRAIN (R104, R169). -/
def drainCtx (mode : Nat) (ftz sat : Bool) : FCtx := { mode := mode, ftz := ftz, dn := true, sat := sat }

/-- convert_drain(cell * r * c) of R169. -/
def drainValue (c : FCtx) (format : Nat) (cell : Nat) (r col : Option Nat) : Nat :=
  let x := c.operand fp32 cell
  let y := (r.map fun v => c.operand fp32 v).getD (.fin false 1 0)
  let z := (col.map fun v => c.operand fp32 v).getD (.fin false 1 0)
  if x.isNan || y.isNan || z.isNan then (if isIntFmt format then 0 else (fmtOf format).canonical)
  else (deliverCode format c [] ((mulExact x y).times z)).1

/-! ### Instructions -/

/-- The first trap of a list of checks, or a command. -/
def firstTrap (cs : List (Bool × Word × Dword)) (k : LaneCmd) : LaneCmd :=
  match cs.find? fun c => c.1 with
  | some c => .trap c.2.1 c.2.2
  | none => k

/-- The issuing crew's window. -/
def State.curWindow (s : State) : Window := (s.core s.curCore).window s.curCrew.launch

/-- A command that completes REFUSED at once (R161). -/
def refusedCmd (k : CmdKind) : LaneCmd := .cmd k (.written 0 (stRefused 0)) [] []

/-- MMA's checks in the order of R161. -/
def State.mmaLane (s : State) (ra rb : Reg) (na nb za q t : Bool) (acc : BitVec 17) (n : BitVec 4) (thr : BitVec 11) (l : Nat) :
    LaneCmd :=
  let c := s.curCrew
  let w := s.curWindow
  let xa := (c.rd ra.toNat l).toNat
  let xb := (c.rd rb.toNat l).toNat
  let dw := BitVec.ofNat 64
  firstTrap [(xa % 32 != 0, causeMisalign, dw xa), (xb % 32 != 0, causeMisalign, dw xb),
    (w.bytes < xa + 32, causeScratch, dw xa), (w.bytes < xb + 32, causeScratch, dw xb)] <|
    let a := shapeOf (w.read xa 32)
    let b := shapeOf (w.read xb 32)
    let fcw := (c.thr l).fcw
    let kind : CmdKind := .mma a b na nb za q (if t then some (n.toNat, thr.toNat) else none) acc.toNat (fcw.getLsbD 2)
      (fcw.getLsbD 3)
    if !mmaValid a b then refusedCmd kind
    else
      firstTrap [((w.outside a).isSome, causeScratch, (w.outside a).getD 0),
        ((w.outside b).isSome, causeScratch, (w.outside b).getD 0),
        (w.cells < acc.toNat + a.rows * b.cols, causeAcc, 0),
        (kind.blockRanges.any fun r => w.blocks < r.1 + r.2, causeAcc, 0)]
        (.cmd kind .queued (if w.bad xa || w.bad xb then [1] else []) [])

/-- The operands of MMA and MDRAIN, MZERO and COPYS. -/
def opsMatrix (d a b : Reg) : Operands := opsFuture d [a.toNat] [b.toNat]

/-- A matrix command of the issue group (R161, R166, R168), with its operands in the leader lane. -/
def State.matrixOp (s : State) (d a b : Reg) (mk : State → Nat → LaneCmd) : State :=
  s.groupEngine { opsMatrix d a b with only := some (leaderOf (s.curCrew.guarded s.cur)) } mk fun s k => s.matrixFull s.curCore k

/-- MMA (R162, R333). -/
def execMma (d a b : Reg) (na nb za q t : Bool) (acc : BitVec 17) (n : BitVec 4) (thr : BitVec 11) (s : State) :
    Host.Outcome State Fault Refusal :=
  .next (s.matrixOp d a b fun s l => s.mmaLane a b na nb za q t acc n thr l)

/-- MDRAIN's checks in the order of R161 and R329. -/
def State.mdrainLane (s : State) (ra rb : Reg) (rs cs sat : Bool) (r : BitVec 3) (acc : BitVec 17) (l : Nat) : LaneCmd :=
  let c := s.curCrew
  let w := s.curWindow
  let x := (c.rd ra.toNat l).toNat
  let v := (c.rd rb.toNat l).toNat
  let row := v % 4096
  let col := v / 65536 % 4096
  firstTrap [(x % 32 != 0, causeMisalign, BitVec.ofNat 64 x), (w.bytes < x + 32, causeScratch, BitVec.ofNat 64 x)] <|
    let d := shapeOf (w.read x 32)
    let ctx := fctx (c.thr l).fcw r.toNat sat
    let kind : CmdKind := .mdrain d rs cs sat ctx.mode ctx.ftz row col acc.toNat
    if !drainValid d then refusedCmd kind
    else
      firstTrap [((w.outside d).isSome, causeScratch, (w.outside d).getD 0),
        (w.cells < acc.toNat + d.rows * d.cols, causeAcc, 0),
        (rs && decide (w.scales < row + d.rows), causeAcc, 0), (cs && decide (w.scales < col + d.cols), causeAcc, 0)]
        (.cmd kind .queued (if w.bad x then [1] else []) [])

/-- MDRAIN (R169, R329). -/
def execMdrain (d a b : Reg) (rs cs sat : Bool) (r : BitVec 3) (acc : BitVec 17) (s : State) :
    Host.Outcome State Fault Refusal :=
  .next (s.matrixOp d a b fun s l => s.mdrainLane a b rs cs sat r acc l)

/-- MZERO's check (R338). -/
def State.mzeroLane (s : State) (ra rb : Reg) (l : Nat) : LaneCmd :=
  let base := (s.curCrew.rd ra.toNat l).toNat
  let n := (s.curCrew.rd rb.toNat l).toNat
  firstTrap [(n != 0 && decide (s.curWindow.cells < base + n), causeAcc, 0)] (.cmd (.mzero base n) .queued [] [])

/-- MZERO (R170, R338). -/
def execMzero (d a b : Reg) (s : State) : Host.Outcome State Fault Refusal :=
  .next (s.matrixOp d a b fun s l => s.mzeroLane a b l)

/-- COPYS's checks in the order of R295. -/
def State.copysLane (s : State) (ra rb : Reg) (k : Bool) (l : Nat) : LaneCmd :=
  let w := s.curWindow
  let x := (s.curCrew.rd ra.toNat l).toNat
  let v := (s.curCrew.rd rb.toNat l).toNat
  let first := v % 65536
  let count := v / 65536
  let size := if k then 1 else 4
  firstTrap [(!k && x % 4 != 0, causeMisalign, BitVec.ofNat 64 x),
    (count != 0 && decide (w.bytes < x + count * size), causeScratch, BitVec.ofNat 64 x),
    (count != 0 && decide ((if k then w.blocks else w.scales) < first + count), causeAcc, 0)]
    (if count = 0 then refusedCmd (.copys k x first count) else .cmd (.copys k x first count) .queued [] [])

/-- COPYS (R171, R295). -/
def execCopys (d a b : Reg) (k : Bool) (s : State) : Host.Outcome State Fault Refusal :=
  .next (s.matrixOp d a b fun s l => s.copysLane a b k l)

/-! ### The array -/

/-- The command is held behind no drain-stage command accepted before it that still waits or runs (R166, R168). -/
def State.unheld (s : State) (c : Cmd) : Bool :=
  (s.cmdsOf c.core).all fun d => !(d.kind.isDrain && d.alive && decide (d.id < c.id) && c.overlaps d)

/-- The head's trigger counter has reached its threshold (R166). -/
def State.triggered (s : State) (c : Cmd) : Bool :=
  match c.kind with
  | .mma _ _ _ _ _ _ (some (n, thr)) _ _ _ => thr ≤ ((s.core c.core).trig.getD n 0).toNat
  | _ => true

/-- The head of a queue, when it is startable (R166). -/
def State.startable (s : State) (core : Nat) (q : Bool) : Option Cmd :=
  match (s.cmdsOf core).find? fun c => c.kind.inQ q && c.phase == .queued with
  | none => none
  | some c => if s.triggered c && s.unheld c then some c else none

/-- The cells that an MMA writes with their values and poison, read at its start (R164, R242, log 11). -/
def Window.mmaOut (w : Window) (c : Cmd) : List (Nat × Word × Bool) :=
  match c.kind with
  | .mma a b na nb za _ _ acc ftz ftzn =>
    let rows := (List.range a.rows).filter fun i => w.rowBad a i
    let cols := (List.range b.cols).filter fun j => w.colBad b j
    (List.range a.rows).flatMap fun i => (List.range b.cols).map fun j =>
      let k := acc + i * b.cols + j
      (k, BitVec.ofNat 32 (w.mmaCell a b na nb za ftz ftzn acc i j),
        c.bad != [] || rows.contains i || cols.contains j || (!za && w.cellBad k))
  | _ => []

/-- The array starts an MMA when it is free: the head of Q0 first (R166). -/
def State.mmaStart (s : State) (core : Nat) : Option State :=
  if (s.cmdsOf core).any fun c => c.kind.isMma && c.phase == .started then none
  else
    match (s.startable core false).orElse fun _ => s.startable core true with
    | none => none
    | some c =>
      let out := ((s.core core).window c.launch).mmaOut c
      some (s.setCmd { c with phase := .started, out := out.map fun e => (e.1, e.2.1)
                              bad := (out.filter fun e => e.2.2).map (·.1) })

/-- MMA_START (R166). -/
def execMmaStart (core : Nat) (s : State) : Host.Outcome State Fault Refusal := .next ((s.mmaStart core).getD s)

/-- Write accumulator cells with their poison (R123, R164, R170). -/
def Window.setCells (w : Window) (out : List (Nat × Word)) (bad : List Nat) : Window :=
  { w with acc := out.foldl (fun t e => tset t e.1 e.2) w.acc
           accBad := remark 16 w.accBad (out.map fun e => ⟨e.1, 0, bad.contains e.1⟩) }

/-- The command of a kind on a core that completes next: one that was refused, which does not wait for the one that runs (R161), or else that. -/
def State.completing (s : State) (core : Nat) (kind : CmdKind → Bool) : Option Cmd :=
  ((s.cmdsOf core).find? fun c => kind c.kind && c.phase != .queued && c.phase != .started).orElse fun _ =>
    (s.cmdsOf core).find? fun c => kind c.kind && c.phase == .started

/-- A matrix command completes: the running one has its effect, and a refused one delivers its status (R142, R161). -/
def State.matrixDone (s : State) (core : Nat) (kind : CmdKind → Bool) (run : State → Cmd → State) : Option State :=
  match s.completing core kind with
  | none => none
  | some c => if c.phase = .started then some (run s c) else s.concluded c

/-- An MMA's cells are written and its future completes (R164). -/
def State.mmaFinish (s : State) (c : Cmd) : State :=
  (s.setWindow c.core (((s.core c.core).window c.launch).setCells c.out c.bad)).conclude c
    (if c.bad = [] then stDone 0 else stPoisoned 0)

/-- The array completes an MMA (R164). -/
def State.mmaDone (s : State) (core : Nat) : Option State := s.matrixDone core CmdKind.isMma State.mmaFinish

/-- MMA_COMPLETE (R164). -/
def execMmaComplete (core : Nat) (s : State) : Host.Outcome State Fault Refusal := .next ((s.mmaDone core).getD s)

/-! ### The drain stage -/

/-- The next command of the drain stage starts when none runs and no MMA accepted before it, whose cells or block scales it
shares, is still to complete (R168). -/
def State.drainStart (s : State) (core : Nat) : Option State :=
  let cs := s.cmdsOf core
  if cs.any fun c => c.kind.isDrain && c.phase == .started then none
  else
    match cs.find? fun c => c.kind.isDrain && c.phase == .queued with
    | none => none
    | some c =>
      if cs.any fun d => d.kind.isMma && d.alive && decide (d.id < c.id) && c.overlaps d then none
      else some (s.setCmd { c with phase := .started })

/-- DRAIN_STAGE_START (R168). -/
def execDrainStageStart (core : Nat) (s : State) : Host.Outcome State Fault Refusal := .next ((s.drainStart core).getD s)

/-- The bytes that an MDRAIN writes (R169, R241), in ascending order of (row, column). -/
def Window.drainOut (w : Window) (c : Cmd) : List EByte :=
  match c.kind with
  | .mdrain d rs cs sat mode ftz row col acc =>
    let ctx := drainCtx mode ftz sat
    let scale := fun (on : Bool) (k : Nat) => if on then some (tget 0 w.ds k).toNat else none
    let sbad := fun (on : Bool) (k : Nat) => on && w.dsBad.contains (k / 16)
    d.elems.flatMap fun e =>
      let k := acc + e.1 * d.cols + e.2
      let v := drainValue ctx d.format (tget 0 w.acc k).toNat (scale rs (row + e.1)) (scale cs (col + e.2))
      let bad := c.bad != [] || w.cellBad k || sbad rs (row + e.1) || sbad cs (col + e.2)
      (leBytes (fmtBytes d.format) v).zipIdx.map fun b => ⟨(d.off e.1 e.2).toNat + b.2, b.1, bad⟩
  | _ => []

/-- A drain's elements are in scratch and its future completes (R169). -/
def State.mdrainFinish (s : State) (c : Cmd) : State :=
  let w := (s.core c.core).window c.launch
  let ws := w.drainOut c
  let rows := match c.kind with
    | .mdrain d .. => d.rows
    | _ => 0
  (s.setWindow c.core (w.engineScratch ws)).conclude c (if ws.any (·.bad) then stPoisoned rows else stDone rows)

/-- The drain stage completes an MDRAIN (R169). -/
def State.mdrainDone (s : State) (core : Nat) : Option State :=
  s.matrixDone core (fun k => match k with
    | .mdrain .. => true
    | _ => false) State.mdrainFinish

/-- MDRAIN_COMPLETE (R169). -/
def execMdrainComplete (core : Nat) (s : State) : Host.Outcome State Fault Refusal := .next ((s.mdrainDone core).getD s)

/-- The cells are cleared (R170). -/
def State.mzeroFinish (s : State) (c : Cmd) : State :=
  let r := c.kind.cellRange
  (s.setWindow c.core (((s.core c.core).window c.launch).setCells ((List.range r.2).map fun i => (r.1 + i, 0)) [])).conclude c
    (stDone r.2)

/-- The drain stage completes an MZERO (R170). -/
def State.mzeroDone (s : State) (core : Nat) : Option State :=
  s.matrixDone core (fun k => match k with
    | .mzero .. => true
    | _ => false) State.mzeroFinish

/-- MZERO_COMPLETE (R170). -/
def execMzeroComplete (core : Nat) (s : State) : Host.Outcome State Fault Refusal := .next ((s.mzeroDone core).getD s)

/-- A scale load (R171): the entries, and their poison. -/
def Window.scaleLoad (w : Window) (c : Cmd) : Window × Nat × Bool :=
  match c.kind with
  | .copys true addr first count =>
    let es := w.engineRead addr count
    ({ w with bs := es.zipIdx.foldl (fun t e => tset t (first + e.2) e.1.val) w.bs
              bsBad := remark 64 w.bsBad (es.zipIdx.map fun e => { e.1 with addr := first + e.2 }) }, count, es.any (·.bad))
  | .copys false addr first count =>
    let vs := (List.range count).map fun i => (first + i, wordOf (w.read (addr + 4 * i) 4), w.bad (addr + 4 * i))
    ({ w with ds := vs.foldl (fun t e => tset t e.1 e.2.1) w.ds
              dsBad := remark 16 w.dsBad (vs.map fun e => ⟨e.1, 0, e.2.2⟩) }, count, vs.any (·.2.2))
  | _ => (w, 0, false)

/-- The scale entries are loaded (R171). -/
def State.copysFinish (s : State) (c : Cmd) : State :=
  let r := ((s.core c.core).window c.launch).scaleLoad c
  (s.setWindow c.core r.1).conclude c (if r.2.2 then stPoisoned r.2.1 else stDone r.2.1)

/-- The drain stage completes a COPYS (R171). -/
def State.copysDone (s : State) (core : Nat) : Option State :=
  s.matrixDone core (fun k => match k with
    | .copys .. => true
    | _ => false) State.copysFinish

/-- COPYS_COMPLETE (R171). -/
def execCopysComplete (core : Nat) (s : State) : Host.Outcome State Fault Refusal := .next ((s.copysDone core).getD s)

end Sys2Proof.Machine
end

