-- ==== Sys2Proof/Machine/NearMem.lean ====
section
/-! DEFINITION. Near-memory commands: parameter blocks, NMLOAD, NMARM, NMRUN and NMDISARM, 0xd0 to 0xd3, with their events (R143,
R197 to R200, R204 to R208, R211, R213, R339, R340). -/

namespace Sys2Proof.Machine

/-! ### Parameter blocks -/

/-- A stream descriptor from its 32 bytes (R199). -/
def streamOf (f : List Byte) : Stream :=
  { base := field f 0 8, rows := field f 8 4, rowStride := field f 12 2, cols := field f 14 1, format := field f 15 1
    scale := field f 16 1, clean := (f.drop 17).all (· == 0) }

/-- A parameter block from its 256 bytes (R198). -/
def nmBlockOf (f : List Byte) : NmBlock :=
  { mode := field f 0 1, stack := field f 1 1, activation := field f 2 1, mailbox := field f 3 1, entry := field f 4 1
    divider := field f 5 1, mask := BitVec.ofNat 64 (field f 8 8), chanStride := field f 16 8, vecSrc := field f 24 8
    vecLen := field f 32 4, alpha := BitVec.ofNat 32 (field f 36 4), beta := BitVec.ofNat 32 (field f 40 4)
    scaleF := BitVec.ofNat 32 (field f 44 4), lo := BitVec.ofNat 32 (field f 48 4), hi := BitVec.ofNat 32 (field f 52 4)
    streams := [64, 96, 128, 160].map fun o => streamOf ((f.drop o).take 32)
    clean := field f 6 2 == 0 && field f 56 8 == 0 && (f.drop 192).all (· == 0) }

/-- Stream i of a block. -/
def NmBlock.stream (b : NmBlock) (i : Nat) : Stream := b.streams.getD i {}
/-- A column count of 0 marks the stream unused (R199, R213). -/
def Stream.used (t : Stream) : Bool := t.cols != 0

/-- The limits of R199 on stream i. -/
def NmBlock.streamOk (b : NmBlock) (i : Nat) : Bool :=
  let t := b.stream i
  !t.used ||
  (t.base % 64 == 0 && t.base / 4096 % 16 == 0 && 1 ≤ t.rows && t.rows ≤ 2 ^ 20 && 1 ≤ t.rowStride && t.rowStride ≤ 4096 &&
    t.cols ≤ 16 - t.base / 64 % 16 && t.format ≤ 7 && t.clean &&
    (if t.format = 6 then t.scale < 4 && t.scale != i && (b.stream t.scale).used && (b.stream t.scale).format == 5
      else t.scale == 0))

/-- The block meets R198, R199 and R213. -/
def NmBlock.ok (b : NmBlock) : Bool :=
  b.mode ≤ 1 && b.stack ≤ 7 && b.activation ≤ 2 && b.mailbox ≤ 3 && b.entry ≤ 63 && b.divider ≤ 8 && b.mask != 0 &&
  b.chanStride % 65536 == 0 && b.vecSrc % 64 == 0 && b.vecLen ≤ 4096 && (b.vecLen != 0 || b.vecSrc == 0) && b.clean &&
  (List.range 4).all b.streamOk

/-- The pseudo-channels that a block names, in ascending order; the position of one is its k of R199. -/
def NmBlock.pchs (b : NmBlock) : List Nat := ((List.range 64).filter fun i => b.mask.getLsbD i).map fun i => 64 * b.stack + i

/-- The address b of R199: the stream's base on the k-th pseudo-channel. -/
def NmBlock.baseOf (b : NmBlock) (i k : Nat) : Nat := ((b.stream i).base + k * b.chanStride) % 2 ^ 64

/-- The address of row j in bank u, from b (R199). -/
def rowAddr (b j u : Nat) : Nat := b + j / 4 * 65536 + u * 4096 + j % 4 * 1024

/-- The pages of every used stream on every named pseudo-channel, each with that pseudo-channel, once (R206). -/
def NmBlock.pages (b : NmBlock) : List (Nat × Nat) :=
  (b.pchs.zipIdx.flatMap fun p =>
    (List.range 4).flatMap fun i =>
      if (b.stream i).used then
        (List.range (b.stream i).rows).flatMap fun j =>
          [0, 15].map fun u => (rowAddr (b.baseOf i p.2) j u / 65536 * 65536, p.1)
      else []).dedup

/-- The virtual addresses of every row of every used stream in every bank. -/
def NmBlock.rowVas (b : NmBlock) : List Nat :=
  b.pchs.zipIdx.flatMap fun p =>
    (List.range 4).flatMap fun i =>
      if (b.stream i).used then
        (List.range (b.stream i).rows).flatMap fun j => (List.range 16).map fun u => rowAddr (b.baseOf i p.2) j u
      else []

/-! ### Programs in the store -/

/-- A store word (R197). -/
def Pch.word (p : Pch) (i : Nat) : Dword := tget 0 p.store i

/-- The operation of a store word; NMLOAD keeps words that are no operation out (R205). -/
def Pch.op (p : Pch) (i : Nat) : Instr := if 64 ≤ i then .mEnd else (decodeMicro (p.word i)).getD .mEnd

/-- A word at index i meets R200. -/
def microOk (i : Nat) (w : Dword) : Bool :=
  match decodeMicro w with
  | some (.mLoop _ t) => t.toNat ≤ i
  | some _ => true
  | none => false

/-- The words that a run executes from a word on, added to those already seen, and whether it ends there (R201, R207). A run that
comes to a word already seen goes on from there as it has before. -/
def Pch.visit (p : Pch) : Nat → Nat → List Nat → List Nat × Bool
  | 0, _, seen => (seen, true)
  | fuel + 1, i, seen =>
    if seen.contains i then (seen, false)
    else if 64 ≤ i then (seen, true)
    else
      match p.op i with
      | .mEnd => (seen ++ [i], true)
      | .mLoop n t =>
        let r := if n.toNat ≤ 1 then (seen ++ [i], false) else p.visit fuel t.toNat (seen ++ [i])
        if r.2 then r else p.visit fuel (i + 1) r.1
      | _ => p.visit fuel (i + 1) (seen ++ [i])

/-- The operations reachable from an entry (R207). -/
def Pch.reachable (p : Pch) (entry : Nat) : List Instr := (p.visit 66 entry []).1.map p.op

/-- What R207 asks of the operations of a run. -/
def NmBlock.allows (b : NmBlock) : Instr → Bool
  | .mRows s => (b.stream s.toNat).used
  | .mCols s _ => (b.stream s.toNat).used
  | .mWcol s => (b.stream s.toNat).used && b.mode == 1 && (b.stream s.toNat).format ≤ 2
  | _ => true

/-! ### Reading a block -/

/-- A block as an engine reads it: whether a sector of it is poisoned, and what it says. -/
def State.readBlock (s : State) (core asid va : Nat) : State × Except Word (Bool × NmBlock) :=
  let r := s.engineRecord core asid va 32
  (r.1, r.2.map fun bs => (bs.any (·.bad), nmBlockOf (bs.map (·.val))))

/-- The block that a queued command names at this moment, when it can be read and is one. -/
def State.peekBlock (s : State) (c : Cmd) (va : Dword) : Option NmBlock :=
  match (s.readBlock c.core c.asid va.toNat).2 with
  | .ok (_, b) => if va.toNat % 256 == 0 && b.ok then some b else none
  | .error _ => none

/-- The pseudo-channels at which a command stands (R204). -/
def State.nmNames (s : State) (c : Cmd) : List Nat :=
  match c.phase, c.kind with
  | .queued, .nmload _ p _ => if p < 512 then [p] else []
  | .queued, .nmrun va _ | .queued, .nmdisarm va => ((s.peekBlock c va).map NmBlock.pchs).getD []
  | .started, .nmrun _ b => b.pchs
  | _, _ => []

/-- No command accepted before it still stands at one of its pseudo-channels (R204, R340). -/
def State.nmFirst (s : State) (c : Cmd) : Bool :=
  let mine := s.nmNames c
  s.cmds.all fun d => c.id ≤ d.id || (s.nmNames d).all fun p => !mine.contains p

/-! ### NMLOAD -/

/-- One lane of NMLOAD (R339). -/
def State.nmloadLane (s : State) (a p n : Reg) (l : Nat) : LaneCmd :=
  let va := s.curCrew.rd2 a.toNat l
  if va.toNat % 8 != 0 then .trap causeMisalign va
  else .cmd (.nmload va (s.curCrew.rd p.toNat l).toNat (n.toNat + 1)) .queued [] []

/-- NMLOAD (R204, R205, R339). -/
def execNmload (d a b n : Reg) (s : State) : Host.Outcome State Fault Refusal :=
  .next (s.perLaneEngine (opsFuture d (pairRegs a) [b.toNat]) fun s l => s.nmloadLane a b n l)

/-- The load of R205: the first failure that applies decides, and in every case but DONE the store is unchanged. -/
def State.nmloadRun (s : State) (c : Cmd) (va : Dword) (p n : Nat) : State :=
  if 511 < p || !(s.vi (s.aspace c.asid).vi).pcs.contains p then s.conclude c (stRefused 64)
  else
    let r := s.engineRecord c.core c.asid va.toNat n
    match r.2 with
    | .error _ => r.1.conclude c (stFaulted 0)
    | .ok bs =>
      let ws := (List.range n).map fun i => BitVec.ofNat 64 (field (bs.map (·.val)) (8 * i) 8)
      if bs.any (·.bad) then r.1.conclude c (stPoisoned 0)
      else
        match ws.zipIdx.find? fun e => !microOk e.2 e.1 with
        | some e => r.1.conclude c (stRefused e.2)
        | none =>
          let q := r.1.pch p
          (r.1.setPch p { q with store := ws.zipIdx.foldl (fun t e => tset t e.2 e.1) q.store, tag := some c.asid }).conclude c
            (stDone n)

/-- A microprogram load completes once the earlier commands at its pseudo-channel have (R204, R205). -/
def State.nmloadComplete (s : State) (id : Nat) : Option State :=
  match s.cmd id with
  | none => none
  | some c =>
    match c.kind with
    | .nmload va p n => if s.nmFirst c && s.servesCmd c then some (s.nmloadRun c va p n) else none
    | _ => none

/-- NMLOAD_COMPLETE (R205). -/
def execNmloadComplete (id : Nat) (s : State) : Host.Outcome State Fault Refusal := .next ((s.nmloadComplete id).getD s)

/-! ### NMARM -/

/-- The seal of a page in an address space. -/
def State.sealOf (s : State) (asid va : Nat) : Option Seal := s.sealed.find? fun e => e.asid == asid && e.va == va

/-- The leaf that the issuing core finds for a page. -/
def State.armLeaf (s : State) (core asid va : Nat) : Except Word TlbEntry :=
  match s.lookup core asid va with
  | .error c => .error c
  | .ok e => if s.firewall asid (e.pa va) then .ok e else .error causeProt

/-- A page fails the checks that both modes make (R206). -/
def armBad (e : TlbEntry) (va p : Nat) : Bool :=
  !pteR e.leaf || !pteBL e.leaf || (place (e.pa va) true).pc != p || pteSeal e.leaf

/-- The trap of NMARM over the pages of a block (R206, R339): not present, permission, permission of UPDATE, repaired rows. -/
def State.armTrap (s : State) (core asid : Nat) (b : NmBlock) : Option (Word × Nat) :=
  let look := fun (va : Nat) => s.armLeaf core asid va
  let fails := fun (f : Nat × Nat → Option Word) => b.pages.findSome? fun p => (f p).map fun c => (c, p.1)
  let absent := fails fun p => match look p.1 with
    | .error c => if c = causeNotPresent then some c else none
    | .ok _ => none
  let prot := fails fun p => match look p.1 with
    | .error c => some c
    | .ok e => if armBad e p.1 p.2 then some causeProt else none
  let update := fails fun p => match look p.1 with
    | .error c => some c
    | .ok e => if b.mode == 1 && !(pteW e.leaf && pteNMW e.leaf) then some causeProt else none
  let moved := b.rowVas.findSome? fun va => match look va with
    | .error _ => none
    | .ok e =>
      let d := place (e.pa va) true
      if s.movedRows.contains (d.pc, d.bank, d.row) then some (causeNmArm, va / 65536 * 65536) else none
  absent.orElse fun _ => prot.orElse fun _ => update.orElse fun _ => moved

/-- One lane of NMARM (R206, R339). -/
def State.nmarmLane (s : State) (a : Reg) (l : Nat) : LaneCmd :=
  let core := s.curCore
  let asid := s.curLaunch.asid
  let va := s.curCrew.rd2 a.toNat l
  match s.translate core asid .read va.toNat with
  | .error c => .trap c va
  | .ok _ =>
    if va.toNat % 256 != 0 then .cmd (.nmarm {} []) (.written 0 (stRefused 0)) [] []
    else match (s.readBlock core asid va.toNat).2 with
    | .error c => .trap c va
    | .ok (bad, b) =>
      if !bad && !b.ok then .cmd (.nmarm {} []) (.written 0 (stRefused 0)) [] []
      else if bad then .cmd (.nmarm {} []) (.written 0 (stPoisoned 0)) [] []
      else
        match s.armTrap core asid b with
        | some (c, p) => .trap c (BitVec.ofNat 64 p)
        | none => .cmd (.nmarm b ((b.pages.map (·.1)).dedup)) .queued [] []

/-- NMARM (R204, R206, R339). -/
def execNmarm (d a : Reg) (s : State) : Host.Outcome State Fault Refusal :=
  .next (s.perLaneWhen (opsFuture d (pairRegs a) [])
    (fun s l => s.servesVas s.curCore s.curLaunch.asid (blockVas (s.curCrew.rd2 a.toNat l).toNat)) fun s l => s.nmarmLane a l)

/-- Set or clear SEAL in the leaf entry of a page, and drop every TLB copy of it (R120, R206, R208). -/
def State.writeSeal (s : State) (asid : Nat) (on : Bool) (va : Nat) : State :=
  match s.leafAddr asid va with
  | none => s
  | some (pa, _) =>
    let e := s.readPhys pa
    let bit : Dword := 0x20
    (s.writePte pa (if on then e ||| bit else e &&& ~~~bit)).dropTlb asid va

/-- The pseudo-channel that serves a page. -/
def State.pageHome (s : State) (asid va : Nat) : Nat :=
  match s.walk (s.aspace asid).root va with
  | .ok e => (place (e.pa va) true).pc
  | .error _ => 0

/-- Seal the pages of a block (R206). -/
def State.sealPages (s : State) (asid mode : Nat) (pages : List Nat) : State :=
  let marks := pages.map fun va => ({ asid := asid, va := va, pch := s.pageHome asid va, mode := mode } : Seal)
  let s : State := { s with sealed := s.sealed ++ marks }
  pages.foldl (fun s va => s.writeSeal asid true va) s

/-- The seals of an NMARM are applied, all or nothing, as a shootdown does once every access under the old entries has reported its completion
time (R120, R206, R339). -/
def State.nmarmSeal (s : State) (id : Nat) : Option State :=
  match s.cmd id with
  | none => none
  | some c =>
    match c.kind, c.phase with
    | .nmarm b pages, .queued =>
      if pages.any fun va => (s.sealOf c.asid va).isSome then some (s.conclude c (stRefused 0))
      else if !pages.all fun va => s.pageQuiet c.asid va then none
      else some ((s.sealPages c.asid b.mode pages).conclude c (stDone pages.length))
    | .nmarm .., _ => s.concluded c
    | _, _ => none

/-- NMARM_SEAL (R206). -/
def execNmarmSeal (id : Nat) (s : State) : Host.Outcome State Fault Refusal := .next ((s.nmarmSeal id).getD s)

/-! ### NMRUN -/

/-- NMRUN (R204, R207, R339). -/
def execNmrun (d a : Reg) (s : State) : Host.Outcome State Fault Refusal :=
  .next (s.perLaneEngine (opsFuture d (pairRegs a) []) fun s l =>
    .cmd (.nmrun (s.curCrew.rd2 a.toNat l) {}) .queued [] [])

/-- Every page of the block is sealed in its mode for the address space (R207, R208). -/
def State.allSealed (s : State) (asid : Nat) (b : NmBlock) : Bool :=
  b.pages.all fun p => match s.sealOf asid p.1 with
    | some e => e.mode == b.mode
    | none => false

/-- The checks of R207 on a block. -/
def State.runOk (s : State) (asid : Nat) (b : NmBlock) : Bool :=
  b.ok && s.allSealed asid b &&
  b.pchs.all (fun p => (s.pch p).tag == some asid && ((s.pch p).reachable b.entry).all b.allows) &&
  (b.vecLen == 0) == (b.vecSrc == 0) && b.vecSrc + 4 * b.vecLen ≤ 2 ^ 49

/-- The pseudo-channels of a stack that compute. -/
def State.computingOn (s : State) (stack : Nat) : Nat :=
  (List.range 64).countP fun i => (s.pch (64 * stack + i)).computing

/-- The divider that a run needs when it computes alone (R211). -/
def NmBlock.needs (b : NmBlock) : Nat := max b.divider ((b.pchs.length + 31) / 32)

/-- A stack's divider (R211): under throttle 8 (R212), otherwise the largest of the governor's floor and the given needs. -/
def State.setDivider (s : State) (stack needs : Nat) : State :=
  let x := s.stackAt stack
  s.setStack stack { x with divider := if x.tier = 3 then 8 else max 1 (max s.floor needs) }

/-- The divider at which a run would start, when the stack admits it now (R211). -/
def State.admitsRun (s : State) (b : NmBlock) : Option Nat :=
  let k := (s.stackAt b.stack).divider
  let c := s.computingOn b.stack
  if !b.pchs.all fun p => (s.pch p).run.isNone then none
  else if c = 0 then some b.needs
  else if b.divider ≤ k && c + b.pchs.length ≤ 32 * k then some k
  else none

/-- The run state at a run's start (R197). -/
def Pch.start (p : Pch) (b : NmBlock) (id k next : Nat) (vec : List PVal) : Pch :=
  { store := p.store, tag := p.tag, mailbox := p.mailbox, nextRefresh := next, vbuf := vec ++ p.vbuf.drop vec.length
    run := some id, index := k, base := (List.range 4).map fun i => b.baseOf i k, mpc := b.entry }

/-- Where the units of a run find a byte of a sealed page (R121): through the last-level TLB of the issuing core's die. -/
def State.unitCell (s : State) (core asid va : Nat) : Option Nat :=
  match s.lookupDie (dieOf core) asid va with
  | .ok e => some (e.cell va)
  | .error _ => none

/-- The streams that a reachable WCOL names (R143, R207). -/
def Pch.writtenStreams (p : Pch) (entry : Nat) : List Nat :=
  (p.reachable entry).filterMap fun i => match i with
    | .mWcol s => some s.toNat
    | _ => none

/-- The sectors that a run in UPDATE mode owns from its start (R143, R207). -/
def State.runOwns (s : State) (c : Cmd) (b : NmBlock) : List Owned :=
  b.pchs.zipIdx.flatMap fun p =>
    ((s.pch p.1).writtenStreams b.entry).dedup.flatMap fun i =>
      (List.range (b.stream i).rows).flatMap fun j =>
        (List.range 16).flatMap fun u =>
          (List.range (b.stream i).cols).filterMap fun n =>
            (s.unitCell c.core c.asid (rowAddr (b.baseOf i p.2) j u + n * 64)).map fun a => ⟨a, 64, c.id⟩

/-- A run starts on its pseudo-channels (R207, R211). The divider changes only on a stack on which nothing computes. -/
def State.startRun (s : State) (c : Cmd) (va : Dword) (b : NmBlock) (k : Nat) (vec : List PVal) : State :=
  let owned := s.runOwns c b
  let s := s.setCmd { c with phase := .started, kind := .nmrun va b }
  let s := if s.computingOn b.stack = 0 then s.setDivider b.stack k else s
  let s : State := { s with owned := s.owned ++ owned }
  b.pchs.zipIdx.foldl (fun s p => s.setPch p.1 ((s.pch p.1).start b c.id p.2 (s.nextRefresh p.1) vec)) s

/-- A run is served at its stack (R207, R211): its block is read and checked, its vector read, and it starts; none while it has to
wait. -/
def State.serveRun (s : State) (c : Cmd) (va : Dword) : Option State :=
  let r := s.readBlock c.core c.asid va.toNat
  if va.toNat % 256 != 0 then some (s.conclude c (stRefused 0))
  else if !s.servesVas c.core c.asid (blockVas va.toNat) then none
  else
    match r.2 with
    | .error _ => some (r.1.conclude c (stFaulted 0))
    | .ok (bad, b) =>
      if bad then some (r.1.conclude c (stPoisoned 0))
      else if !r.1.runOk c.asid b then some (r.1.conclude c (stRefused 0))
      else
        match r.1.admitsRun b with
        | none => none
        | some k =>
          if !r.1.servesVas c.core c.asid b.vecVas then none else
          let v := r.1.mapM (fun s va => s.engineLoad c.core c.asid va 4) b.vecVas
          if v.2.any fun x => x.toOption.isNone then some (v.1.conclude c (stFaulted 0))
          else
            let vec := v.2.map fun x =>
              let bs := x.toOption.getD []
              ({ w := wordOf (bs.map (·.val)), bad := bs.any (·.bad) } : PVal)
            some (v.1.startRun c va b k vec)

/-- The block address of a run that waits. -/
def Cmd.waitingRun (c : Cmd) : Option Dword :=
  match c.kind, c.phase with
  | .nmrun va _, .queued => some va
  | _, _ => none

/-- The first run that waits at a stack (R211); one whose block cannot be read or is none counts at stack 0. -/
def State.firstRun (s : State) (stack : Nat) : Option (Cmd × Dword) :=
  s.cmds.findSome? fun c => c.waitingRun.bind fun va =>
    if ((s.peekBlock c va).map (·.stack)).getD 0 = stack then some (c, va) else none

/-- A stack on which nothing computes takes the divider of the governor's floor and of the first run that waits there (R211). -/
def State.idleDivider (s : State) (stack : Nat) : State :=
  if s.computingOn stack = 0 then
    s.setDivider stack (((s.firstRun stack).bind fun r => (s.peekBlock r.1 r.2).map NmBlock.needs).getD 0)
  else s

/-- NMRUN_START (R211). -/
def State.nmrunStart (s : State) (stack : Nat) : Option State :=
  match s.firstRun stack with
  | none => none
  | some (c, va) => if s.nmFirst c then s.serveRun c va else none

/-- NMRUN_START (R211). -/
def execNmrunStart (stack : Nat) (s : State) : Host.Outcome State Fault Refusal := .next ((s.nmrunStart stack).getD s)

/-- The status of a run that has reached END everywhere (R207), or has ended there with a fault (R75, R121). -/
def State.runStatus (s : State) (b : NmBlock) : Word :=
  let ps := b.pchs.map s.pch
  if ps.any (·.fault) then stFaulted 0
  else match ps.find? fun p => !p.badElems.isEmpty with
  | some p =>
    let n := min ((ps.map fun p => p.badElems.length).sum) 4095
    stPoisoned (n * 65536 + min (((p.badElems.map (·.2)).min?).getD 0) 65535)
  | none => if ps.any fun p => (p.vbuf.take b.vecLen).any (·.bad) then stPoisoned 0 else stDone 0

/-- The pseudo-channels of a run are free again, and the divider changes when none of the stack computes (R211). -/
def State.freeRun (s : State) (b : NmBlock) : State :=
  let s := b.pchs.foldl (fun s p => s.setPch p { s.pch p with run := none }) s
  s.idleDivider b.stack

/-- The steps of what a pseudo-channel has done so far are over (R203). -/
def Pch.ready (p : Pch) (dtime : Nat) : Bool := p.due ≤ 2 * dtime

/-- The two steps of a run's completion (R142, R207). -/
def State.nmrunComplete (s : State) (id : Nat) : Option State :=
  match s.cmd id with
  | none => none
  | some c =>
    match c.kind, c.phase with
    | .nmrun _ b, .started =>
      if b.pchs.all fun p => (s.pch p).run == some id && (s.pch p).ended && (s.pch p).ready s.dtime then
        some ((s.freeRun b).written c (((b.pchs.map fun p => (s.pch p).maxCt).max?).getD 0) (s.runStatus b))
      else none
    | .nmrun .., .written .. => s.concluded c
    | _, _ => none

/-- NMRUN_COMPLETE (R207). -/
def execNmrunComplete (id : Nat) (s : State) : Host.Outcome State Fault Refusal := .next ((s.nmrunComplete id).getD s)

/-! ### NMDISARM -/

/-- NMDISARM (R204, R208, R339). -/
def execNmdisarm (d a : Reg) (s : State) : Host.Outcome State Fault Refusal :=
  .next (s.perLaneEngine (opsFuture d (pairRegs a) []) fun s l => .cmd (.nmdisarm (s.curCrew.rd2 a.toNat l)) .queued [] [])

/-- Clear the seals of pages of an address space (R208). -/
def State.unseal (s : State) (asid : Nat) (pages : List Nat) : State :=
  let s := pages.foldl (fun s va => s.writeSeal asid false va) s
  { s with sealed := s.sealed.filter fun e => !(e.asid == asid && pages.contains e.va) }

/-- NMDISARM is served once the earlier commands at its pseudo-channels have completed (R204, R208). -/
def State.nmdisarmComplete (s : State) (id : Nat) : Option State :=
  match s.cmd id with
  | none => none
  | some c =>
    match c.kind with
    | .nmdisarm va =>
      if !s.nmFirst c || !s.servesCmd c then none
      else
        let r := s.readBlock c.core c.asid va.toNat
        if va.toNat % 256 != 0 then some (s.conclude c (stRefused 0))
        else
          match r.2 with
          | .error _ => some (r.1.conclude c (stFaulted 0))
          | .ok (bad, b) =>
            if bad then some (r.1.conclude c (stPoisoned 0))
            else if !(b.ok && r.1.allSealed c.asid b) then some (r.1.conclude c (stRefused 0))
            else
              let pages := (b.pages.map (·.1)).dedup
              some ((r.1.unseal c.asid pages).conclude c (stDone pages.length))
    | _ => none

/-- NMDISARM_COMPLETE (R208). -/
def execNmdisarmComplete (id : Nat) (s : State) : Host.Outcome State Fault Refusal := .next ((s.nmdisarmComplete id).getD s)

end Sys2Proof.Machine
end

