-- ==== Sys2Proof/Machine/Micro.lean ====
section
/-! DEFINITION. The operations of the near-memory microprogram (R197, R201 to R203), refresh and its pause (R212). The operation
acts on the pseudo-channel of State.nmCur. -/

namespace Sys2Proof.Machine

/-! ### Arithmetic of the units (R202) -/

/-- The units never flush, round to nearest even and make canonical NaNs (R202). -/
def unitCtx : FCtx := { dn := true }

/-- A product of two FP32 values, exact; a NaN operand makes the sum a NaN. -/
def unitMul (x y : Nat) : Exact :=
  let a := fp32.value x
  let b := fp32.value y
  if a.isNan || b.isNan then .invalid else mulExact a b

/-- The exact sum of terms, rounded once (R202). -/
def unitSum (ts : List Exact) : Nat := (fp32.deliver unitCtx [] (sumExact 0 ts)).1

/-- An FP32 value as a term. -/
def unitTerm (x : Nat) : Exact := (fp32.value x).exact

/-- An element as FP32 (R202): FP32 bit for bit, Q4N as level × s × F. -/
def unitDequant (format x s sf : Nat) : Nat :=
  if format = 0 then x else if format = 6 then (dequant unitCtx x s sf).1 else (convert unitCtx format 0 x).1

/-- The activation on one value (R202). -/
def NmBlock.activate (b : NmBlock) (x : Nat) : Nat :=
  if b.activation = 0 || (fp32.value x).isNan then x
  else if b.activation = 1 then (if (fp32.value x).neg then 0 else x)
  else (fMinMax fp32 {} false (fMinMax fp32 {} true x b.lo.toNat).1 b.hi.toNat).1

/-- A value that a unit computes from others, with the poison of all of them. -/
def pval (v : Nat) (from_ : List PVal) : PVal := { w := BitVec.ofNat 32 v, bad := from_.any (·.bad) }

/-! ### Streams -/

/-- Bits of an element in memory; the scale stream's bytes are 8 (R84, R199). -/
def unitBits (format : Nat) : Nat := if format = 6 then 4 else 8 * fmtBytes format

/-- E_s: the elements of a row's columns (R201). -/
def Stream.elems (t : Stream) : Nat := t.cols * 512 / unitBits t.format

/-- The address of the current row of stream i in bank u. -/
def Pch.rowVa (p : Pch) (i u : Nat) : Nat := rowAddr (p.base.getD i 0) ((p.rix.getD i none).getD 0) u

/-- The run's address space and block. -/
def State.runOf (s : State) (p : Pch) : Nat × NmBlock :=
  match p.run.bind s.cmd with
  | some c =>
    match c.kind with
    | .nmrun _ b => (c.asid, b)
    | _ => (c.asid, {})
  | none => (0, {})

/-- The core that issued the run of a pseudo-channel. -/
def State.runCore (s : State) (p : Pch) : Nat := ((p.run.bind s.cmd).map (·.core)).getD 0

/-- A unit's access to a page (R75, R114, R121): its cell, after repair, or none when the access fails, as a write does without W and NMW, or to a
code-locked frame. -/
def State.unitPlace (s : State) (core asid va : Nat) (write : Bool) : State × Option Nat :=
  match s.translateRepair core asid .read va with
  | (s, .error _) => (s, none)
  | (s, .ok e) =>
    (s, if write && (!(pteW e.leaf && pteNMW e.leaf) || s.codeLocked (e.pa va)) then none else some (e.cell va))

/-- A unit's access has failed: nothing more is written, and the run ends on the pseudo-channel (R121). -/
def Pch.failed (p : Pch) : Pch := { p with fault := true, pend := [], mpc := 64 }

/-- An access of a run's unit at pseudo-channel n has failed: the command writes nothing more on any of its pseudo-channels (R121). -/
def State.failRun (s : State) (n : Nat) : State :=
  let t := (List.range 512).foldl (fun s k =>
    if k ≠ n ∧ ((s.pch n).run.isSome && (s.pch k).run == (s.pch n).run && !(s.pch k).ended) = true then s.setPch k (s.pch k).failed
    else s) s
  t.setPch n (t.pch n).failed

/-- Add to the count of steps (R203); late says that they touch a repaired row. -/
def Pch.charge (p : Pch) (n : Nat) (late : Bool) : Pch :=
  { p with steps := p.steps + n, slow := if late then p.slow + n else p.slow }

/-- A row of a stream lies, in some bank, on a spare row in another subarray of its bank (R203). -/
def State.spare (s : State) (asid : Nat) (p : Pch) (i : Nat) : Bool :=
  (List.range 16).any fun u =>
    match s.unitCell (s.runCore p) asid (p.rowVa i u) with
    | none => false
    | some cell => s.spareRows.contains (pchOf cell, cell / 2 ^ 26 % 16, cell / 1024 % 65536)

/-- The time that the steps since a given state of the pseudo-channel take (R203): a step lasts 2.5 ns at divider 1, and 12 ns more on
a repaired row. -/
def State.spend (s : State) (n : Nat) (was : Pch) : State :=
  let p := s.pch n
  let k := (s.stackAt (n / 64)).divider
  s.setPch n { p with due := max p.due (2 * s.dtime) + 5 * k * (p.steps - was.steps) + 24 * (p.slow - was.slow) }

/-- The completion time under which the home remembers a write of a unit until its sector is released (R141, R143, R207): later than any DTIME. -/
def unreleased : Nat := 2 ^ 64

/-- The last writes of the sectors of some cells have not been released. -/
def State.holdNotes (s : State) (cells : List Nat) : State :=
  { s with lastWrite := s.lastWrite.map fun e =>
      (e.1, if cells.any fun c => sectorOf c == e.1 then { e.2 with ct := unreleased } else e.2) }

/-- A sector is released (R207): the last write to it has its completion time, and its line is marked (R129). -/
def State.releaseSector (s : State) (o : Owned) : State :=
  let ct := max s.dtime (s.horizonOf (lineOf o.addr))
  let s := s.markLine (lineOf o.addr)
  { s with lastWrite := s.lastWrite.map fun e =>
      (e.1, if e.1 = sectorOf o.addr ∧ e.2.ct = unreleased then { e.2 with ct := ct } else e.2) }

/-- The pending column writes of stream i reach DRAM, each column in one step (R201, R203). A page that cannot be written ends the run with
a fault (R75, R121). -/
def State.flushStream (s : State) (n i : Nat) : State :=
  let p := s.pch n
  let ws := p.pend.filter fun w => w.stream == i
  if ws.isEmpty then s
  else
    let c := s.mapM (fun s w => s.unitPlace (s.runCore p) (s.runOf p).1 w.addr true) ws
    if c.2.any (·.isNone) then c.1.failRun n
    else
      let bs := (ws.zip c.2).flatMap fun w => w.1.data.zipIdx.map fun e => (⟨w.2.getD 0 + e.2, e.1, w.1.bad⟩ : EByte)
      ((c.1.engineMem bs).1.holdNotes (bs.map (·.addr))).setPch n ({ p with pend := p.pend.filter fun w => w.stream != i }.charge 1 (s.spare (s.runOf p).1 p i))

/-- The pending column writes of every stream. -/
def State.flushAll (s : State) (n : Nat) : State := (List.range 4).foldl (fun s i => s.flushStream n i) s

/-- A row is reopened for 16 steps unless the banks hold it open; streams whose rows coincide share one activation (R199, R203). -/
def Pch.openFor (p : Pch) (i : Nat) (late : Bool) : Pch :=
  let row := p.rowVa i 0 / 1024
  if p.openRow = some row then p else { p with openRow := some row }.charge 16 late

/-- Column c of stream i, in every bank, is read unless it was the last read since ROWS (R201). A page that cannot be read ends the run with
a fault (R121). -/
def State.loadColumn (s : State) (n asid i c : Nat) : State :=
  if (s.pch n).col.getD i none = some c then s
  else
    let s := s.flushStream n i
    let p := s.pch n
    let r := s.mapM (fun s u => s.unitPlace (s.runCore p) asid (p.rowVa i u + c * 64) false) (List.range 16)
    if r.2.any (·.isNone) then r.1.failRun n
    else
      let read := fun (u : Nat) =>
        let cell := (r.2.getD u none).getD 0
        ({ data := Memory.readN r.1.mem cell 64, poison := r.1.sectorBad cell } : Sector)
      r.1.setPch n { p with
        col := setAt 4 none p.col i (some c)
        cbuf := (List.range 16).foldl (fun t u => tset t (16 * i + u) (read u)) p.cbuf }

/-- Element e of stream i in bank u, out of the column that has been read, with its poison. -/
def Pch.elem (p : Pch) (t : Stream) (i u e : Nat) : Nat × Bool :=
  let w := unitBits t.format
  let x := tget {} p.cbuf (16 * i + u)
  (leNat x.data / 2 ^ (e % (512 / w) * w) % 2 ^ w, x.poison)

/-- The dequantise stage takes the next byte of a Q4N stream's scale stream (R199). Where that stream has no open row, or no further
element, the specification states no byte: it is free (log 21). -/
def State.takeScale (s : State) (n asid : Nat) (b : NmBlock) (i : Nat) : State :=
  let k := (b.stream i).scale
  let t := b.stream k
  let e := (s.pch n).ep.getD k 0
  let here := ((s.pch n).rix.getD k none).isSome && e < t.elems
  let s := if here then s.loadColumn n asid k (e / 64) else s
  let p := s.pch n
  let byte := fun (u : Nat) => if here then
      let x := p.elem t k u e
      ({ w := BitVec.ofNat 32 x.1, bad := x.2 } : PVal)
    else { w := (Config.freeByte (s.fresh + u)).setWidth 32 }
  let s : State := { s with fresh := s.fresh + 16 }
  s.setPch n { p with
    ep := setAt 4 0 p.ep k (e + 1)
    scale := (List.range 16).foldl (fun t u => tset t (16 * i + u) (byte u)) p.scale }

/-- The offset in elements of element e of a stream's current row, counted from b (R207). -/
def Pch.elemOff (p : Pch) (t : Stream) (i u e : Nat) : Nat :=
  (p.rowVa i u - p.base.getD i 0) * 8 / unitBits t.format + e

/-! ### Operations -/

/-- A command accesses DRAM at a pseudo-channel in a step that has still to come. -/
def State.reaches (s : State) (n : Nat) (c : Cmd) : Bool :=
  (match c.phase with
    | .written .. => false
    | _ => true) &&
  match c.kind with
  | .bdrain idx sh .. => (s.bag c.asid idx).pch sh == n
  | .nmrun va _ => c.phase == .queued &&
    ((blockVas va.toNat ++ ((s.peekBlock c va).map NmBlock.vecVas).getD []).any fun a => s.pchAt c.core c.asid a == some n)
  | k => (k.vas ++ k.serviceVas).any fun a => s.pchAt c.core c.asid a == some n

/-- A command has only accesses to wait for (R204, R294, R308). -/
def State.accesses (s : State) (c : Cmd) : Bool :=
  match c.kind, c.phase with
  | .copy .., .queued => s.mayWrite c.id
  | .fetch q .., .queued => !s.fetchBehind c q
  | .nmload .., .queued | .nmrun .., .queued | .nmdisarm _, .queued => s.nmFirst c
  | _, _ => false

/-- What a launch reads and writes: its record and herds, the words of its dependences, its thread count, and the word of its completion. -/
def State.launchVas (s : State) (x : Launch) : List Nat :=
  (match x.phase with
    | .sending => s.recordVas x x.record.toNat
    | .accepted => if x.cp then [x.countPtr] else []
    | _ => []) ++
  x.event :: x.deps.filterMap fun d => match d with
    | .event a => some a
    | _ => none

/-- A normal access may wait for the pseudo-channel (R209): a store has not been applied at its home there, the oldest entry of some
crew waits for memory or for a bag, or a command, a placement or a launch has to access it. -/
def State.queuedAt (s : State) (n : Nat) : Bool :=
  (s.flights.any fun f => !f.applied && pchOf f.addr == n) ||
  (s.crews.any fun e => match e.2.rob with
    | [] => false
    | h :: _ => h.why == some 4 || h.why == some 13) ||
  s.cmds.any (s.reaches n) ||
  (s.aspaces.any fun a => a.2.bags.any fun b => b.2.shares.any fun h => !h.2.queue.isEmpty && b.2.pch h.1 == n) ||
  (s.launches.any fun e => (match e.2.phase with
    | .done _ => false
    | _ => true) && (s.launchVas e.2).any fun a => s.pchAt (s.launchCore e.2) e.2.asid a == some n) ||
  s.vis.any fun v => v.2.queues.any fun q => q.2.head != q.2.tail &&
    (s.recordVas { asid := q.2.asid } (q.2.base + 128 * q.2.head)).any fun a => s.pchAt 0 q.2.asid a == some n

/-- After every 64 steps the pseudo-channel serves what waits for it, and its rows are then closed (R203, R209). The run goes on when
DTIME has moved on: DESIGN CHOICE, the rule gives the pause no length (log 78). -/
def State.pauseFor (s : State) (n : Nat) : State :=
  let p := s.pch n
  if p.ended || p.steps < p.served + 64 then s
  else if s.queuedAt n then
    s.setPch n { p with served := p.steps, openRow := none, resumeAt := some (max s.dtime ((p.due + 1) / 2) + 1) }
  else s.setPch n { p with served := p.steps }

/-- The effect of an operation on the pseudo-channel that runs, which goes on at the next word. -/
def State.micro (s : State) (f : State → Nat → Nat → NmBlock → State) : State :=
  let n := s.nmCur
  let p := s.pch n
  if p.computing && p.resumeAt.isNone && p.ready s.dtime then
    let r := s.runOf p
    let s := f s n r.1 r.2
    let q := s.pch n
    ((s.setPch n { q with mpc := if q.fault then q.mpc else p.mpc + 1 }).spend n p).pauseFor n
  else s

/-- An operation on the pseudo-channel's own state that takes one step. -/
def State.unitOp (s : State) (f : NmBlock → Pch → Pch) : State :=
  s.micro fun s n _ b => s.setPch n ((f b (s.pch n)).charge 1 false)

/-- The 16 bank units. -/
def banks : List Nat := List.range 16
/-- The 16 lanes of a bank unit. -/
def unitLanes : List Nat := List.range 16

/-- A bank unit's lane. -/
def at2 (x : List (List PVal)) (u l : Nat) : PVal := (x.getD u []).getD l {}

/-- Every lane of every bank unit. -/
def eachUnit (f : Nat → Nat → PVal) : List (List PVal) := banks.map fun u => unitLanes.map (f u)

/-- END (R201, R143, R207): the pending columns are written, every owned sector is released, and the run ends here. -/
def State.endHere (s : State) (n id : Nat) : State :=
  let s := s.flushAll n
  let mine := s.owned.filter fun o => o.cmd == id && pchOf o.addr == n
  let ct := mine.foldl (fun ct o => max ct (max s.dtime (s.horizonOf (lineOf o.addr)))) 0
  let s := mine.foldl State.releaseSector s
  let s : State := { s with owned := s.owned.filter fun o => !(o.cmd == id && pchOf o.addr == n) }
  s.setPch n { s.pch n with ended := true, maxCt := ct }

/-- END (R201). -/
def execMEnd (s : State) : Host.Outcome State Fault Refusal :=
  .next (s.micro fun s n _ _ => s.endHere n (((s.pch n).run).getD 0))

/-- ROWS (R201, R203). -/
def execMRows (sg : BitVec 2) (s : State) : Host.Outcome State Fault Refusal :=
  .next (s.micro fun s n asid b =>
    let i := sg.toNat
    let s := s.flushStream n i
    let p := s.pch n
    let t := b.stream i
    let j := match p.rix.getD i none with
      | none => 0
      | some j => (j + t.rowStride) % t.rows
    let p := { p with rix := setAt 4 none p.rix i (some j), ep := setAt 4 0 p.ep i 0, col := setAt 4 none p.col i none }
    s.setPch n ({ p with openRow := some (p.rowVa i 0 / 1024) }.charge 16 (s.spare asid p i)))

/-- The column of an element of a stream. -/
def Stream.column (t : Stream) (e : Nat) : Nat := e * unitBits t.format / 512

/-- A lane that COLS loads with element e in bank u, out of the column that has been read (R201, R202). -/
def Pch.colsLane (p : Pch) (b : NmBlock) (i u e : Nat) : PVal :=
  let t := b.stream i
  if e < t.elems then
    let x := p.elem t i u e
    let k := tget {} p.scale (16 * i + u)
    { w := BitVec.ofNat 32 (unitDequant t.format x.1 k.w.toNat b.scaleF.toNat), bad := x.2 || (t.format == 6 && k.bad) }
  else {}

/-- COLS reads the column of its first element and, when its last one lies in the next, that one (R201): the state, and the lanes. -/
def State.readCols (s : State) (n asid : Nat) (b : NmBlock) (i e : Nat) : State × List (List PVal) :=
  let t := b.stream i
  let s := s.loadColumn n asid i (t.column e)
  let s := if t.format = 6 ∧ e % 64 = 0 then s.takeScale n asid b i else s
  let first := s.pch n
  let last := t.column (min (e + 15) (t.elems - 1))
  let s := if last = t.column e then s else s.loadColumn n asid i last
  let next := s.pch n
  (s, eachUnit fun u l => if t.column (e + l) = t.column e then first.colsLane b i u (e + l) else next.colsLane b i u (e + l))

/-- The poisoned elements that COLS takes, by stream and offset, each once in the run (R207). -/
def Pch.noteBad (p : Pch) (t : Stream) (i e : Nat) (xs : List (List PVal)) : Pch :=
  let new := banks.flatMap fun u => unitLanes.filterMap fun l =>
    if (at2 xs u l).bad then some (i, p.elemOff t i u (e + l)) else none
  { p with badElems := p.badElems ++ new.filter fun x => !p.badElems.contains x }

/-- COLS (R201, R203). -/
def execMCols (sg : BitVec 2) (d : Bool) (s : State) : Host.Outcome State Fault Refusal :=
  .next (s.micro fun s n asid b =>
    let i := sg.toNat
    let t := b.stream i
    let p := s.pch n
    let e := p.ep.getD i 0
    let rowOpen := (p.rix.getD i none).isSome
    let late := rowOpen && s.spare asid p i
    let s := if rowOpen then s.setPch n (p.openFor i late) else s
    let r := if rowOpen && e < t.elems then s.readCols n asid b i e else (s, eachUnit fun _ _ => {})
    let s := r.1
    let xs := r.2
    let p := ((s.pch n).noteBad t i e xs).charge 1 late
    let p := { p with ep := setAt 4 0 p.ep i (e + 16) }
    s.setPch n (if d then { p with in1 := xs } else { p with in0 := xs }))

/-- BVEC (R201). -/
def execMBvec (s : State) : Host.Outcome State Fault Refusal :=
  .next (s.unitOp fun b p =>
    { p with v := unitLanes.map fun l => if p.vp + l < b.vecLen then p.vbuf.getD (p.vp + l) {} else {}
             vp := min (p.vp + 16) 4096 })

/-- MACB (R201). -/
def execMMacb (s : State) : Host.Outcome State Fault Refusal :=
  .next (s.unitOp fun _ p =>
    let acc := fun (u l : Nat) =>
      let x := at2 p.in0 u l
      let y := p.v.getD l {}
      let z := at2 p.lane u l
      pval (unitSum [unitMul x.w.toNat y.w.toNat, unitTerm z.w.toNat]) [x, y, z]
    { p with lane := eachUnit acc })

/-- AXPY (R201). -/
def execMAxpy (s : State) : Host.Outcome State Fault Refusal :=
  .next (s.unitOp fun b p =>
    let axpy := fun (u l : Nat) =>
      let x := at2 p.in0 u l
      let y := at2 p.in1 u l
      pval (unitSum [unitMul b.alpha.toNat x.w.toNat, unitMul b.beta.toNat y.w.toNat]) [x, y]
    { p with in0 := eachUnit axpy })

/-- RED (R201). -/
def execMRed (s : State) : Host.Outcome State Fault Refusal :=
  .next (s.unitOp fun _ p =>
    let sum := fun (u : Nat) =>
      let xs := p.a.getD u {} :: unitLanes.map (at2 p.lane u)
      pval (unitSum (xs.map fun x => unitTerm x.w.toNat)) xs
    { p with a := banks.map sum, lane := eachUnit fun _ _ => {}, vp := 0 })

/-- ACTV (R201, R202). -/
def execMActv (s : State) : Host.Outcome State Fault Refusal :=
  .next (s.unitOp fun b p =>
    let act := fun (x : PVal) => { x with w := BitVec.ofNat 32 (b.activate x.w.toNat) }
    { p with in0 := p.in0.map fun xs => xs.map act, a := p.a.map act })

/-- The column writes that WCOL leaves pending (R201, R202). -/
def Pch.wcolWrites (p : Pch) (b : NmBlock) (i e : Nat) : List ColWrite :=
  let t := b.stream i
  let size := fmtBytes t.format
  banks.flatMap fun u => unitLanes.filterMap fun l =>
    if e - 16 + l < t.elems then
      let x := at2 p.in0 u l
      let v := if t.format = 0 then x.w.toNat else (convert unitCtx 0 t.format x.w.toNat).1
      some { stream := i, addr := p.rowVa i u + (e - 16 + l) * size, data := leBytes size v, bad := x.bad }
    else none

/-- WCOL (R201, R203). -/
def execMWcol (sg : BitVec 2) (s : State) : Host.Outcome State Fault Refusal :=
  .next (s.micro fun s n asid b =>
    let i := sg.toNat
    let p := s.pch n
    let e := p.ep.getD i 0
    if e = 0 ∨ p.rix.getD i none = none then s.setPch n (p.charge 1 false)
    else
      let late := s.spare asid p i
      let p := p.openFor i late
      s.setPch n ({ p with pend := p.pend ++ p.wcolWrites b i e }.charge 1 late))

/-- WMBX (R201). -/
def execMWmbx (s : State) : Host.Outcome State Fault Refusal :=
  .next (s.unitOp fun b p =>
    { p with
      mailbox := banks.foldl (fun t u => tset t (b.mailbox * 256 + (p.mc + u) % 256) (p.a.getD u {})) p.mailbox
      a := List.replicate 16 {}
      mc := (p.mc + 16) % 256 })

/-- LOOP (R201): the counter of the word at which the run stands. -/
def execMLoop (n : BitVec 16) (target : BitVec 6) (s : State) : Host.Outcome State Fault Refusal :=
  let k := s.nmCur
  let p := s.pch k
  if p.computing && p.resumeAt.isNone && p.ready s.dtime then
    let c := tget n.toNat p.counters p.mpc
    .next (s.setPch k (if 1 < c then { p with counters := tset p.counters p.mpc (c - 1), mpc := target.toNat }
      else { p with counters := tset p.counters p.mpc n.toNat, mpc := p.mpc + 1 }))
  else .next s

/-! ### Refresh -/

/-- A refresh (R212): pending columns are written, every bank precharges, and a run pauses for 360 ns. -/
def State.refreshNow (s : State) (n : Nat) : State :=
  let was := s.pch n
  let s := (s.flushAll n).spend n was
  let p := s.pch n
  let next := staggered n (s.dtime + refreshInterval (s.stackAt (n / 64)).tier)
  s.setPch n { p with openRow := none, nextRefresh := next
                      resumeAt := if p.computing then some ((p.due + 1) / 2 + 360) else none }

/-- A pseudo-channel refreshes between two operations of its run (R212). -/
def State.refreshPch (s : State) (n : Nat) : Option State :=
  if (s.pch n).resumeAt.isSome || (s.pch n).computing && !(s.pch n).ready s.dtime || 512 ≤ n then none else some (s.refreshNow n)

/-- REFRESH (R212). -/
def execRefresh (pc : Nat) (s : State) : Host.Outcome State Fault Refusal := .next ((s.refreshPch pc).getD s)

/-- Compute resumes (R209, R212), once the commands that have only the pseudo-channel to wait for have been served: they may need another that
pauses later. -/
def State.resumePch (s : State) (n : Nat) : Option State :=
  let p := s.pch n
  match p.resumeAt with
  | none => none
  | some t => if t ≤ s.dtime && !(s.cmds.any fun c => s.accesses c && s.reaches n c) then some (s.setPch n { p with resumeAt := none }) else none

/-- COMPUTE_RESUME (R212). -/
def execComputeResume (pc : Nat) (s : State) : Host.Outcome State Fault Refusal := .next ((s.resumePch pc).getD s)

end Sys2Proof.Machine
end

