-- ==== Sys2Proof/Machine/Agenda.lean ====
section
/-! DEFINITION. The event that happens next when the environment names none: the first of the module's own events that can happen, in
a fixed order (log 2), and what a checkpoint, a trip or a module without firmware holds back (R249, R251, R254). -/

namespace Sys2Proof.Machine

/-! ### What is held back -/

/-- The resident service runs and nothing has tripped (R249, R251). -/
def State.up (s : State) : Bool := s.boot == .running && !s.tripped

/-- A command that has not started. -/
def State.unstarted (s : State) (id : Nat) : Bool := s.cmds.any fun c => c.id == id && c.phase == .queued

/-- A launch whose event is part of its acceptance or start, and not of its completion. -/
def State.starts (s : State) : Instr → Bool
  | .copyComplete id | .fetchComplete id _ _ | .drainRound id | .nmloadComplete id | .nmarmSeal id | .nmdisarmComplete id
  | .allocSvc id _ | .freeSvc id _ | .bagnewSvc id _ | .bagfreeSvc id _ | .printSvc id _ | .serviceReply id => s.unstarted id
  | .mmaStart _ | .drainStageStart _ | .nmrunStart _ | .launchRecordAccept _ _ | .launchStart _ | .crewAdmit _ => true
  | _ => false

/-- Events that change no device memory and go on while a checkpoint streams (R254): what comes from outside and is held, served or
answered, time, heat and power, and the checkpoint's end. -/
def streams : Instr → Bool
  | .hostWrite .. | .hostRead .. | .supexWriteIn .. | .supexReadIn .. | .flitRetry _ | .supexPortDown _ | .ueFrameReceive ..
  | .ueLinkDown _ | .linkTrain .. | .thermalWarning .. | .dieClockStep .. | .thermalTrip _ | .refreshTierChange ..
  | .governorPeriod _ | .setPowerCap _ | .setBallastSetpoint _ | .checkpointComplete | .dtimePassed _
  | .hostGloballyObservedAck _ | .tableWalkComplete .. | .doorbellWrite .. | .haltHerd .. | .dump .. | .debuggerAttach _
  | .eccUncorrectable _ | .storeEccError .. => true
  | _ => false

/-- Events of the boot path, and heat (R249, R251). -/
def boots : Instr → Bool
  | .resetBoot _ | .recoveryLoad .. | .linkTrain .. | .thermalWarning .. | .dieClockStep .. | .thermalTrip _
  | .refreshTierChange .. | .dtimePassed _ => true
  | _ => false

/-- Whether the module lets an event happen: before the service runs only the boot path, during a checkpoint no start (R254), and while
it streams no write of device memory. -/
def State.lets (s : State) (e : Instr) : Bool :=
  match e with
  | .resetBoot _ => true
  | _ =>
    if s.tripped then false
    else if s.boot != .running then boots e
    else
      match s.ckpt with
      | .idle => true
      | .quiescing => !s.starts e
      | .streaming => streams e

/-! ### The module's own events -/

/-- Whether one of the module's own events can happen. -/
def State.can (s : State) : Instr → Bool
  | .storeHomeApply k => (s.applyFlight k).isSome
  | .completionTimeReturn k => (s.returnFlight k).isSome
  | .hostGloballyObservedAck k => k < s.hostPending.length
  | .copyComplete id => (s.copyComplete id).isSome
  | .fetchComplete id d st => (s.fetchComplete id d st.toNat).isSome
  | .drainRound id => (s.drainRound id).isSome
  | .nmloadComplete id => (s.nmloadComplete id).isSome
  | .nmarmSeal id => (s.nmarmSeal id).isSome
  | .nmrunComplete id => (s.nmrunComplete id).isSome
  | .nmdisarmComplete id => (s.nmdisarmComplete id).isSome
  | .serviceReply id => (s.serviceReply id).isSome
  | .allocSvc id l => (s.allocLane id l).isSome
  | .freeSvc id l => (s.freeLane id l).isSome
  | .bagnewSvc id l => (s.bagnewLane id l).isSome
  | .bagfreeSvc id l => (s.bagfreeLane id l).isSome
  | .printSvc id l => (s.printLane id l).isSome
  | .mmaStart n => (s.mmaStart n).isSome
  | .mmaComplete n => (s.mmaDone n).isSome
  | .drainStageStart n => (s.drainStart n).isSome
  | .mdrainComplete n => (s.mdrainDone n).isSome
  | .mzeroComplete n => (s.mzeroDone n).isSome
  | .copysComplete n => (s.copysDone n).isSome
  | .nmrunStart k => (s.nmrunStart k).isSome
  | .refresh n => (s.pch n).computing && (s.pch n).ready s.dtime && (s.pch n).resumeAt.isNone && (s.pch n).nextRefresh ≤ s.dtime
  | .computeResume n => (s.resumePch n).isSome
  | .placementBatch a i n => (s.placeBatch a i n).isSome
  | .placementComplete a i n => (s.placeDone a i n).isSome
  | .reservationServe k => (s.serveReservation k).isSome
  | .meetDeadline c m => (s.meetTimeout c m).isSome
  | .yieldExpiry c l => (s.endHold c l).isSome
  | .binTimerExpiry c b => (s.binTimeout c b).isSome
  | .pageRepair k => (s.pageRepair k).isSome
  | .trapPolicy k => (s.trapPolicy k).isSome
  | .launchRecordAccept v q => (s.acceptQueue v q).isSome
  | .launchStart l => (s.launchStart l).isSome
  | .launchCompletion l => (s.launchComplete l).isSome
  | .crewAdmit c => (s.admitOne c).isSome
  | .scratchBankJoin n l => (s.joinScratch n l).isSome
  | .preempt c => (s.preempt c).isSome
  | .poolGrow n => (s.growPool n).isSome
  | .poolBankJoin n => (s.joinPool n).isSome
  | .poolBankReturn n => (s.returnBank n).isSome
  | .poolSpill n => (s.spillPool n).isSome
  | .ballastWindow n p => (s.ballastWindow n p).isSome
  | .checkpoint => s.ckpt == .quiescing && !s.unsettled
  | .checkpointComplete => s.checkpointDone.isSome
  | _ => false

/-- The events of an engine command. -/
def Cmd.events (c : Cmd) : List Instr :=
  match c.kind with
  | .copy .. => [.copyComplete c.id]
  | .fetch .. => [.fetchComplete c.id [] 0]
  | .mma .. => [.mmaComplete c.core, .mmaStart c.core]
  | .mdrain .. => [.mdrainComplete c.core, .drainStageStart c.core]
  | .mzero .. => [.mzeroComplete c.core, .drainStageStart c.core]
  | .copys .. => [.copysComplete c.core, .drainStageStart c.core]
  | .bdrain .. => [.drainRound c.id]
  | .nmload .. => [.nmloadComplete c.id]
  | .nmarm .. => [.nmarmSeal c.id]
  | .nmrun .. => .nmrunComplete c.id :: (List.range 8).map .nmrunStart
  | .nmdisarm .. => [.nmdisarmComplete c.id]
  | .launch _ => []
  | .scall n g _ _ _ =>
    let serve : List Instr := (lanesOf g).flatMap fun l =>
      if n = 1 then [.allocSvc c.id l] else if n = 2 then [.freeSvc c.id l] else if n = 0x10 then [.bagnewSvc c.id l]
      else if n = 0x11 then [.bagfreeSvc c.id l] else if n = 0x20 then [.printSvc c.id l] else []
    .serviceReply c.id :: serve

/-- Numbers below the length of a list. -/
def places {α : Type} (xs : List α) : List Nat := List.range xs.length

/-- Events of home controllers. -/
def State.homeEvents (s : State) : List Instr :=
  (places s.flights).map .completionTimeReturn ++ (places s.flights).map .storeHomeApply ++
  (if s.hostPending.isEmpty then [] else [.hostGloballyObservedAck 0])

/-- Events of bags. -/
def State.bagEvents (s : State) : List Instr :=
  (s.aspaces.flatMap fun a => a.2.bags.flatMap fun b => b.2.shares.flatMap fun h =>
    if h.2.queue.isEmpty then [] else [.placementComplete a.1 b.1 h.1, .placementBatch a.1 b.1 h.1]) ++
  (s.aspaces.flatMap fun a => a.2.bags.flatMap fun b => match b.2.freeing with
    | some (id, l) => [.bagfreeSvc id l]
    | none => []) ++
  (if s.reservations.isEmpty then [] else [.reservationServe 0])

/-- Events of threads. -/
def State.threadEvents (s : State) : List Instr :=
  (s.crews.flatMap fun e => e.2.meetings.map fun m => .meetDeadline e.1 m.id) ++
  (s.crews.flatMap fun e =>
    (laneList.filter fun l => (e.2.thr l).hold.isSome).map fun l => .yieldExpiry e.1 l) ++
  (s.clusters.flatMap fun e => e.2.bins.map fun b => .binTimerExpiry e.1 b.1) ++
  (places s.traps).map .pageRepair ++ (places s.traps).map .trapPolicy

/-- Events of launches. -/
def State.launchEvents (s : State) : List Instr :=
  (s.vis.flatMap fun v => v.2.queues.map fun q => .launchRecordAccept v.1 q.1) ++
  (s.launches.flatMap fun e => match e.2.phase with
    | .done _ => []
    | _ => [.launchStart e.1, .launchCompletion e.1])

/-- Events of cores and their clusters. -/
def State.coreEvents (s : State) : List Instr :=
  (s.cores.flatMap fun e =>
    (e.2.windows.map fun w => Instr.scratchBankJoin e.1 w.launch) ++ [.poolBankJoin e.1] ++
    ((List.range 4).map fun p => .ballastWindow e.1 p)) ++
  (s.clusters.flatMap fun e =>
    if e.2.queue.isEmpty && !(s.crews.any fun k => k.2.leaving && k.2.cluster == e.1) then [] else [.crewAdmit e.1, .preempt e.1]) ++
  s.cores.flatMap fun e => [.poolGrow e.1, .poolBankReturn e.1, .poolSpill e.1]

/-- What a pseudo-channel that computes does next (R212). -/
def State.unitEvents (s : State) : List (Instr × Nat) :=
  s.pchs.flatMap fun e =>
    if e.2.computing && e.2.ready s.dtime then
      (if e.2.resumeAt.isSome then [(.computeResume e.1, e.1)]
        else if e.2.nextRefresh ≤ s.dtime then [(.refresh e.1, e.1)] else [(e.2.op e.2.mpc, e.1)])
    else []

/-- Every event of the module's own that may stand next, in order. -/
def State.candidates (s : State) : List (Instr × Nat) :=
  ((s.homeEvents ++ s.cmds.flatMap Cmd.events ++ s.bagEvents ++ s.threadEvents ++ s.launchEvents ++ s.coreEvents).map fun e => (e, 0)) ++
  s.unitEvents ++ (if s.ckpt = .idle then [] else [(.checkpoint, 0)]) ++
  (if s.ckpt = .idle ∧ s.held = [] ∧ s.ueFlights = [] then [] else [(.checkpointComplete, 0)])

/-- The event that happens next, with the pseudo-channel whose operation runs. -/
def State.agenda (s : State) : Option (Instr × Nat) :=
  s.candidates.find? fun e => s.lets e.1 && (e.1.isMicro || s.can e.1)

end Sys2Proof.Machine
end

