-- ==== Sys2Proof/Machine/Cycle.lean ====
section
/-! DEFINITION. Why a crew issues nothing, and the passing of a cycle (R225, R260; log 3). -/

namespace Sys2Proof.Machine

/-! ### Why a crew does not issue -/

/-- A live thread that is TRAPPED, halted or held by YIELD (R260). -/
def Thread.suspended (t : Thread) : Bool := t.state == .trapped || t.halted || t.hold.isSome

/-- Some thread of the crew is in a state. -/
def Crew.someIn (c : Crew) (x : ThreadState) : Bool := laneList.any fun l => (c.thr l).state == x

/-- The access of an oldest entry goes to a UC page in some lane, so that it executes at the head alone (R61). -/
def State.headUc (s : State) (crew : Nat) (i : Issue) : Bool :=
  let t : State := { s with cur := { i with crew := crew, entry := true } }
  let uc := fun (k : Access) (a b : Reg) (z : BitVec 3) (p : BitVec 2) (off : Word) => (lanesOf (t.curCrew.guarded t.cur)).any fun l =>
    match t.accessAt l a b z p off with
    | .virt va => match t.translate t.curCore t.curLaunch.asid k va with
      | .ok e => e.uc
      | .error _ => false
    | _ => false
  match i.instr with
  | .ld _ a b z p _ | .lda _ a b z p _ => uc .read a b z p 0
  | .ldWide _ a b z p _ off => uc .read a b z p off
  | .st _ a b z p | .strel _ a b z p => uc .write a b z p 0
  | .stWide _ a b z p off => uc .write a b z p off
  | _ => false

/-- The counters whose conditions hold because of entries of the reorder buffer (R260): one that waits to allocate, for queue room, for its
completion times, or for a reply; one that reads what a held load writes (R131, R142), or waits for a spilled register. An instruction that LDA's
acquire holds back advances FENCE_WAIT, or DATA_DEP when it reads what LDA writes (R324). An entry that waits for the head, or stands behind one that
executes there alone, advances HEAD_ONLY (R61). -/
def State.entryReasons (s : State) (crew : Nat) : List Nat :=
  let c := s.crew crew
  match c.rob with
  | [] => []
  | e :: es =>
    let behind := es.filter fun y => y.issue.mask &&& e.issue.mask != 0
    let reads := behind.any fun y => y.srcs.any fun r => r != 0 && e.dst.contains r
    (match e.why, e.issue.instr with
      | some 4, .lda .. => if reads then [2] else if behind.isEmpty then [] else [5]
      | some 4, _ => if reads then [4] else []
      | some w, _ => if w < 16 then [w] else []
      | none, _ => []) ++
    (es.filterMap fun y => if y.why = some 0 ∨ y.why = some 14 then y.why else none) ++
    (if (es.any fun y => headOnly y.issue.instr) || (!es.isEmpty && (headOnly e.issue.instr || s.headUc crew e.issue)) then [8] else [])

/-- A READY thread's next instruction waits for a branch to resolve (R62). -/
def Crew.behindBranch (c : Crew) : Bool := laneList.any fun l => (c.thr l).eligible && (c.lastEntry l).any fun e =>
  isBranch e.issue.instr && e.res.isNone

/-- The counters whose conditions hold in a cycle in which a crew has issued nothing and lost no port (R260). -/
def State.reasons (s : State) (core crew : Nat) : List Nat :=
  let c := s.crew crew
  s.entryReasons crew ++ (if 64 ≤ c.rob.length then [1] else []) ++ (if c.behindBranch then [2] else []) ++
  (if c.someIn .future then [3] else []) ++ (if laneList.any fun l => (c.thr l).fence.isSome then [5] else []) ++
  (if c.someIn .barrier then [6] else []) ++ (if c.someIn .meeting then [7] else []) ++
  (if (s.groups core crew).any fun g => match s.look core g.crew g.pc with
    | .miss => true
    | _ => false then [12] else []) ++
  (if laneList.all fun l => !(c.thr l).isLive || (c.thr l).suspended then [15] else [])

/-- A group of the crew could have issued, and more preferred groups took the ports or the pipes (R225, R260). -/
def State.lost (s : State) (core crew : Nat) : Bool :=
  let k := s.core core
  !k.used.contains crew && (s.groups core crew).any fun g =>
    (k.ports.any fun p => s.ballastOk core p g) && s.atHand core [] g

/-- The counter that a cycle without an issue advances (R260): ARB_LOST when some group lost a port, otherwise the lowest number whose
condition holds, and DATA_DEP when none does. -/
def State.quietReason (s : State) (core crew : Nat) : Nat :=
  if s.lost core crew then 11 else ((s.reasons core crew).min?).getD 2

/-! ### The passing of a cycle -/

/-- Every core has had its cycle: the clusters' clocks go on (R34), and DTIME (log 3); debugger steps and halts that are done end in
their reports (R256 to R258). -/
def State.round (s : State) : State :=
  (({ s with clusters := s.clusters.map fun e => (e.1, { e.2 with cycle := e.2.cycle + 1 }) } : State).passTime
    (s.dtime + s.pace)).endSteps

/-- The packets for which the READY groups of a core wait come into its instruction cache (R9), whether or not their crews can issue. -/
def State.fillIcache (s : State) (core : Nat) : Core :=
  ((s.crewsOn core).flatMap fun e => s.readyGroups core e.1).foldl (fun k g =>
    match s.look core g.crew g.pc with
    | .miss => k.keepPacket (s.asidOf g.crew) (packetAddr g.pc).toNat
    | _ => k) (s.core core)

/-- A cycle of a core ends (R225, R260, log 3): its clock, its ports, its instruction cache, the cycles of exhaustion (R57), and each
resident crew, of which those whose cycle is not accounted for advance a stall counter. With the last core's cycle a round ends. -/
def State.tick (s : State) (core : Nat) : State :=
  let k := s.fillIcache core
  let dry := s.starving core && !k.canGrow && k.grow.isNone
  let last := s.activeCores.all fun n => n ≤ core
  let t := s.setCore core { k with
    cycle := k.cycle + 1, port := 0, ports := [], used := [], tried := [], counted := [], pipes := List.replicate 4 0, clash := []
    exhausted := if dry then some (k.exhausted.getD k.cycle) else none }
  let t : State := { t with
    crews := t.crews.map fun e =>
      (e.1, if e.2.core = some core then
        let c := { e.2 with now := e.2.now + 1 }
        if k.counted.contains e.1 then c else c.countStall (s.quietReason core e.1)
      else e.2)
    turn := core + 1 }
  if last then t.round else t

/-- A port and a pipe of a core take a group (R225). -/
def State.charge (s : State) (core : Nat) (g : Group) : State :=
  let k := s.core core
  let p := match s.look core g.crew g.pc with
    | .instr i => pipeOf i.instr
    | _ => 0
  let port := (s.portFor core g).getD 0
  { s.setCore core { k with
      port := port + 1, ports := port :: k.ports, used := g.crew :: k.used
      pipes := setAt 4 0 k.pipes p (k.pipes.getD p 0 + 1) } with turn := core }

/-- Whether the issue of a group counts against the port's share of class 3 (R225). -/
def Group.pays (g : Group) : Bool := g.cls == 3 && !g.waited

end Sys2Proof.Machine
end

