-- ==== Sys2Proof/Machine/Cross.lean ====
section
/-! DEFINITION. The cross-lane instructions 0x70 to 0x73 (R40, R351, R352, R354, R364, R367). They combine only the lanes of G. -/

namespace Sys2Proof.Machine

/-- A cross-lane instruction: its effect in a lane depends on the crew and on the set G (R351). -/
def State.cross (s : State) (o : Operands) (f : Crew → Mask → Nat → Eff) : State :=
  s.issue o fun s g => .done s (perLane (f (s.crew s.cur.crew) g))

/-- The lane that SHFL reads, in the modes lane, rise, fall and flip (R354). -/
def shflSource (m : BitVec 2) (l b : Nat) : Int :=
  match m.toNat with
  | 0 => b
  | 1 => (l : Int) - b
  | 2 => (l : Int) + b
  | _ => Nat.xor l b

/-- SHFL (R354). -/
def execShfl (d a b : Reg) (z : Bool) (m : BitVec 2) (s : State) : Host.Outcome State Fault Refusal :=
  .next (s.cross (opsRR d a b) fun c g l =>
    let src := shflSource m l (c.rd b.toNat l).toNat
    { w := [live (if 0 ≤ src ∧ src ≤ 31 ∧ g.getLsbD src.toNat = true then c.rd a.toNat src.toNat
                  else if z then 0 else c.rd a.toNat l)] })

/-- VOTE (R367). -/
def execVote (d a : Reg) (k : BitVec 2) (s : State) : Host.Outcome State Fault Refusal :=
  .next (s.cross (opsR d a) fun c g _ =>
    let m := maskOf fun l => g.getLsbD l && c.rd a.toNat l != 0
    { w := [live (match k.toNat with
        | 0 => m
        | 1 => if m = 0 then 0 else 1
        | 2 => if m = g then 1 else 0
        | _ => popcWord m)] })

/-- The identity of a SCAN operation (R352). -/
def scanIdentity (o : BitVec 3) (sg : Bool) : Word :=
  match o.toNat with
  | 1 => if sg then 0x7fffffff else 0xffffffff
  | 2 => if sg then 0x80000000 else 0
  | 3 => 0xffffffff
  | _ => 0

/-- One application of a SCAN operation (R352). -/
def scanOp (o : BitVec 3) (sg : Bool) (x y : Word) : Word :=
  match o.toNat with
  | 0 => x + y
  | 1 => if less sg y x then y else x
  | 2 => if less sg x y then y else x
  | 3 => x &&& y
  | 4 => x ||| y
  | _ => x ^^^ y

/-- SCAN (R352). -/
def execScan (d a : Reg) (sg x : Bool) (o : BitVec 3) (s : State) : Host.Outcome State Fault Refusal :=
  .next (s.cross (opsR d a) fun c g l =>
    let ms := (lanesOf g).filter fun m => m < l || (!x && m == l)
    { w := [live (ms.foldl (fun r m => scanOp o sg r (c.rd a.toNat m)) (scanIdentity o sg))] })

/-- Whether an FP32 value ranks above another in TOPK's order (R40): largest first, every NaN below -infinity. -/
def ranksAbove (x y : Word) : Bool :=
  let u := fp32.value x.toNat
  let v := fp32.value y.toNat
  if u.isNan then false
  else if v.isNan then true
  else fRelation u v == some 1

/-- The lanes of P in TOPK's order, equal values by the lower lane first (R40): a lane goes before the first one it ranks above. -/
def rankInsert (val : Nat → Word) (l : Nat) : List Nat → List Nat
  | [] => [l]
  | m :: ms => if ranksAbove (val l) (val m) then l :: m :: ms else m :: rankInsert val l ms

/-- rank[0], rank[1], ... of R40. -/
def rankList (val : Nat → Word) (ls : List Nat) : List Nat := ls.foldl (fun acc l => rankInsert val l acc) []

/-- TOPK (R40, R364). -/
def execTopk (v a i k : Reg) (s : State) : Host.Outcome State Fault Refusal :=
  .next (s.cross { a := [a.toNat], dst := [v.toNat, i.toNat] } fun c g l =>
    let ls := lanesOf g
    let rank := rankList (fun m => c.rd a.toNat m) ls
    let j := (ls.findIdx? fun m => m == l).getD 0
    match if j < k.toNat then rank[j]? else none with
    | some m => { w := [live (c.rd a.toNat m), live (BitVec.ofNat 32 m)] }
    | none => { w := [live 0xff800000, live 0xffffffff] })

end Sys2Proof.Machine
end

