-- ==== Sys2Proof/Machine/System.lean ====
section
/-! DEFINITION. Special registers, TRAP, BKPT and TRET, 0xd9 to 0xdd (R235, R236, R281, R356, R357, R363, R365, R366). -/

namespace Sys2Proof.Machine

/-! ### Special registers -/

/-- Effective cap in W (R250, R252): the lower of the fused 2400 W and the cap of system software. -/
def State.capWatts (s : State) : Nat :=
  match s.softCap with
  | none => 2400
  | some w => min 2400 w

/-- The completion slots bound to a thread's lanes (R356). -/
def Crew.boundSlots (c : Crew) (l : Nat) : Dword := slotMask (regList.filterMap fun r => (c.lane r l).slot)

/-- What SREAD delivers: one word, or the two words of a pair (R356). -/
def State.special (s : State) (n l : Nat) : List Lane :=
  let c := s.curCrew
  let t := c.thr l
  let core := s.curCore
  let one := fun (v : Nat) => [live (BitVec.ofNat 32 v)]
  match n with
  | 0x000 => [live t.tid]
  | 0x001 => one l
  | 0x002 => [live c.num]
  | 0x003 => one core
  | 0x004 => one (clusterOf core)
  | 0x005 => one c.launch
  | 0x006 => one s.curLaunch.nthr
  | 0x008 | 0x009 | 0x00a | 0x00b => one ((t.herds.getD (n - 8) none).getD 0x1ff)
  | 0x00c => [live t.share]
  | 0x010 => live2 (BitVec.ofNat 64 s.dtime)
  | 0x012 => live2 (c.boundSlots l)
  | 0x014 => [live t.fstat]
  | 0x015 => [live t.fcw]
  | 0x016 => [live t.tstat]
  | 0x017 => one ((s.core core).poolBanks * 2 ^ 16 + s.freeRegs core)
  | 0x018 => live2 t.wct
  | 0x020 => one ((s.stackAt (clusterOf core)).temp % 2 ^ 16 * 2 ^ 16 + (s.die (dieOf core)).temp % 2 ^ 16)
  | 0x021 => one (s.capWatts * 2 ^ 16 + s.power % 2 ^ 16)
  | 0x030 => [live t.cause]
  | 0x031 => live2 t.trapPc
  | 0x033 => live2 t.trapVa
  | _ => [live ((s.core core).trig.getD (n - 0x40) 0)]

/-- SREAD (R356, R357). -/
def execSread (d : Reg) (i : BitVec 12) (s : State) : Host.Outcome State Fault Refusal :=
  .next (s.issue { dst := if sreadPair i.toNat then pairRegs d else [d.toNat] } fun s _ =>
    .done s (perLane fun l => { w := s.special i.toNat l }))

/-- The thread after SWRITE: the register is replaced and the reserved bits are discarded (R53, R91, R93, R363). -/
def writeSpecial (n : Nat) (t : Thread) (v : Word) : Thread :=
  match n with
  | 0x014 => { t with fstat := v &&& 31 }
  | 0x015 => { t with fcw := v &&& 31 }
  | _ => { t with tstat := v &&& 1 }

/-- SWRITE (R363). -/
def execSwrite (a : Reg) (i : BitVec 12) (s : State) : Host.Outcome State Fault Refusal :=
  .next (s.alu { a := [a.toNat] } fun c l => { thr := some (writeSpecial i.toNat (c.thr l) (c.rd a.toNat l)) })

/-! ### Traps on purpose -/

/-- Every lane of G takes a trap, which counts as an externally visible effect (R227, R236). -/
def State.trapAll (s : State) (cause : Word) : State :=
  s.issue {} fun s _ => .done (s.setCrew s.cur.crew { s.curCrew with visible := true }) (perLane fun _ => trapped cause 0)

/-- TRAP (R236, R365). -/
def execTrap (i : BitVec 12) (s : State) : Host.Outcome State Fault Refusal := .next (s.trapAll (causeTrap i))
/-- BKPT (R236, R281). -/
def execBkpt (i : BitVec 12) (s : State) : Host.Outcome State Fault Refusal := .next (s.trapAll (causeBkpt i))

/-! ### TRET -/

/-- The fault of the frame's translation, before any of it is read (R366): the first of its four parts whose page is absent, or cannot be
read. -/
def State.frameFault (s : State) (va : Nat) : Option Word :=
  [0, 16, 32, 48].findSome? fun o => match s.translate s.curCore s.curLaunch.asid .read (va + o) with
    | .error c => some c
    | .ok _ => none

/-- The frame that TRET reads, in four accesses of 16 bytes (R235, R366). -/
def State.readFrame (s : State) (va : Nat) : Nat → List Byte → Done
  | 0, acc => .ok s acc
  | n + 1, acc =>
    match s.loadVirt s.curCore s.curLaunch.asid false false va 16 with
    | .wait => .wait
    | .trap c => .trap c
    | .ok s' bs => s'.readFrame (va + 16) n (acc ++ bs)

/-- One lane of TRET (R235, R366). -/
def State.tretLane (s : State) (l : Nat) : Option (State × Eff) :=
  let c := s.curCrew
  let t := c.thr l
  let sp := (c.rd2 60 l).toNat
  let va := BitVec.ofNat 64 (t.lbase.toNat + sp)
  if sp % 16 != 0 then some (s, trapped causeMisalign va)
  else if s.curLaunch.localBytes < sp + 64 then some (s, trapped causeProt va)
  else
    let read : Done := match s.frameFault va.toNat with
      | some c => .trap c
      | none => s.readFrame va.toNat 4 []
    match read with
    | .wait => none
    | .trap c => some (s, trapped c va)
    | .ok s' f =>
      let resume := BitVec.ofNat 64 (field f 0 8)
      match s'.target s'.curCore s'.curLaunch.asid resume with
      | .error (c, a) => some (s', trapped c a)
      | .ok _ => some (s', { w := restoreRegs f, thr := some (restoreThread t f), pc := .to resume })

/-- TRET (R235, R366). -/
def execTret (s : State) : Host.Outcome State Fault Refusal :=
  .next (s.memory { more := [60, 61], dst := [60, 61, 62, 63] } 4 fun s l => s.tretLane l)

end Sys2Proof.Machine
end

