-- ==== Sys2Proof/Machine/Firmware.lean ====
section
/-! DEFINITION. Heat and power (R211, R212, R250 to R253). Temperatures are in 1/16 degree; what the sensors and the power meter read
is brought by the events (log 17). -/

namespace Sys2Proof.Machine

/-- A whole temperature in sensor units. -/
def degrees (n : Nat) : Nat := 16 * n

/-- A trip (R251): everything halts, device memory is lost, every launch ends without a completion event, and a checkpoint in progress
ends with an error (R254). -/
def State.trip (s : State) : State :=
  let ck : List Post := if s.ckpt = .idle then [] else [.checkpointDone false [] []]
  { State.reset with
    boot := s.boot, tripped := true, mem := s.mem.filter fun e => isHost e.1, dies := s.dies, hbm := s.hbm
    posts := s.posts ++ ck ++ [.trip], inbox := s.inbox, pace := s.pace, fresh := s.fresh, dtime := s.dtime }

/-- The sensor of a compute die reads a temperature (R251), on which its thresholds act: a warning when it comes to 100 degrees, or when one
is due, and the trip at 115. -/
def State.sense (s : State) (die temp : Nat) (warn : Bool) : State :=
  let d := s.die die
  let s := s.setDie die { d with temp := temp }
  let s := if degrees 100 ≤ temp ∧ (warn = true ∨ d.temp < degrees 100) then s.post (.thermalWarning die) else s
  if degrees 115 ≤ temp then s.trip else s

/-- THERMAL_WARNING (R251): a die at or above 100 degrees warns the resident service. -/
def execThermalWarning (die temp : Nat) (s : State) : Host.Outcome State Fault Refusal :=
  .next (if die < 4 ∧ degrees 100 ≤ temp then s.sense die temp true else s)

/-- The clock steps of a die after a period (R251): one more above 108 degrees, down to an eighth of the clock together with the governor's
steps (R252); one less below 104. -/
def nextSteps (steps governed temp : Nat) : Nat :=
  if degrees 108 < temp then min (7 - governed) (steps + 1) else if temp < degrees 104 then steps - 1 else steps

/-- DIE_CLOCK_STEP (R251). -/
def execDieClockStep (die temp : Nat) (s : State) : Host.Outcome State Fault Refusal :=
  let d := s.die die
  .next (if die < 4 then (s.setDie die { d with steps := nextSteps d.steps d.governed temp }).sense die temp false else s)

/-- THERMAL_TRIP (R251): a die's sensor reads 115 degrees or more. -/
def execThermalTrip (reading : DieReading) (s : State) : Host.Outcome State Fault Refusal :=
  .next (if reading.die < 4 ∧ degrees 115 ≤ reading.temp then s.sense reading.die reading.temp false else s)

/-- The refresh tier of a stack temperature (R212). -/
def tierOf (temp : Nat) : Nat :=
  if temp ≤ degrees 85 then 0 else if temp ≤ degrees 95 then 1 else if temp ≤ degrees 105 then 2 else 3

/-- A pseudo-channel's next refresh when the interval changes (R212): no later than the new interval after its last refresh, which was the old
interval before the next, each as the stagger lets it be (log 77). When that is past it refreshes at once, a run at its next operation boundary, and
plans the following one in its own place of the stagger. -/
def State.retime (s : State) (n old new : Nat) : State :=
  let p := s.pch n
  let t := s.nextRefresh n
  let next := min t (t + new / 512 * 512 - old / 512 * 512)
  s.setPch n { p with
    nextRefresh := if s.dtime < next then next else if p.computing then s.dtime else staggered n (s.dtime + new) }

/-- A stack's base-die temperature changes (R212): its tier and interval follow it; the throttled tier forces k to 8, and the divider
that follows it is set when nothing computes (R211). -/
def State.tierChange (s : State) (stack temp : Nat) : State :=
  let x := s.stackAt stack
  let t := tierOf temp
  let old := refreshInterval x.tier
  let new := refreshInterval t
  let s := if old = new then s else ((List.range 64).map (64 * stack + ·)).foldl (fun s n => s.retime n old new) s
  let s := s.setStack stack { x with temp := temp, tier := t, divider := if t = 3 then 8 else x.divider }
  s.idleDivider stack

/-- REFRESH_TIER_CHANGE (R212). -/
def execRefreshTierChange (stack temp : Nat) (s : State) : Host.Outcome State Fault Refusal :=
  .next (if stack < 8 then s.tierChange stack temp else s)

/-- The ballast share after a period, by the setpoint (R253): it never rises while POWER exceeds CAP. -/
def nextBallast (b p power cap : Nat) : Nat :=
  if power + 20 < p then (if cap < power then b else min 256 (b + 8)) else if p < power then b - 16 else b

/-- The stacks on which nothing computes take the governor's floor (R211). -/
def State.applyFloor (s : State) : State := (List.range 8).foldl (fun s k => s.idleDivider k) s

/-- The governor steps every die's compute clock down, to an eighth together with the die's own steps, or back up (R251, R252). -/
def State.stepClocks (s : State) (down : Bool) : State :=
  (List.range 4).foldl (fun s k =>
    let d := s.die k
    s.setDie k { d with governed := if down then min (7 - d.steps) (d.governed + 1) else d.governed - 1 }) s

/-- What the governor does while POWER exceeds CAP (R252): it takes its measures in order and stops at the first that suffices. Whether one
does, and how far it then goes, are free values (log 8): the ballast share falls, to nothing when that does not suffice; the divider floor
rises, to 8 when that does not suffice; and the compute clocks step down. -/
def State.reducePower (s : State) : State :=
  let f := s.fresh
  let s : State := { s with fresh := f + 2 }
  if 0 < s.ballast ∧ Config.freeChoice f then { s with ballast := (Config.freeByte f).toNat % s.ballast }
  else
    let s : State := { s with ballast := 0 }
    let up := max 2 (s.floor + 1)
    if s.floor < 8 ∧ Config.freeChoice (f + 1) then
      ({ s with floor := up + (Config.freeByte (f + 1)).toNat % (9 - up) } : State).applyFloor
    else { ({ s with floor := 8 } : State).applyFloor.stepClocks true with throttle := min 7 (s.throttle + 1) }

/-- What the governor does otherwise (R252, R253): it undoes its measures in reverse order, and then the setpoint rules the share. -/
def State.restorePower (s : State) (power : Nat) : State :=
  if 0 < s.throttle then { s.stepClocks false with throttle := s.throttle - 1 }
  else if 0 < s.floor then ({ s with floor := if s.floor ≤ 2 then 0 else s.floor - 1 } : State).applyFloor
  else
    match s.setpoint with
    | none => { s with ballast := 0 }
    | some p => { s with ballast := nextBallast s.ballast p power s.capWatts }

/-- GOVERNOR_PERIOD (R252, R253): every 100 microseconds, with the power measured over the period. -/
def execGovernorPeriod (power : Nat) (s : State) : Host.Outcome State Fault Refusal :=
  let s : State := { s with power := power }
  .next (if s.capWatts < power then s.reducePower else s.restorePower power)

/-- SET_POWER_CAP (R250, R252): never above the fused cap. -/
def execSetPowerCap (watts : Nat) (s : State) : Host.Outcome State Fault Refusal := .next { s with softCap := some (min watts 2400) }

/-- SET_BALLAST_SETPOINT (R253): no higher than CAP; with no setpoint b is 0. -/
def execSetBallastSetpoint (watts : Option Nat) (s : State) : Host.Outcome State Fault Refusal :=
  .next (match watts with
    | none => { s with setpoint := none, ballast := 0 }
    | some p => if p ≤ s.capWatts then { s with setpoint := some p } else s)

end Sys2Proof.Machine
end

