-- ==== Sys2Proof/Machine/FloatOps.lean ====
section
/-! DEFINITION. Floating point, packed halves and conversion, 0x40 to 0x4d and 0x60 to 0x66 (R84 to R102, R297 to R317). -/

namespace Sys2Proof.Machine

/-! ### Shapes -/

/-- A result with the FSTAT bits it sets (R93). -/
def flagged (r : Nat × Nat) : Eff := { w := [live (BitVec.ofNat 32 r.1)], fl := r.2 }

/-- One floating result from two registers, in the thread's mode (R90, R91). -/
def State.frr (s : State) (d a b : Reg) (r : BitVec 3) (f : FCtx → Nat → Nat → Nat × Nat) : State :=
  s.alu (opsRR d a b) fun c l =>
    flagged (f (fctx (c.thr l).fcw r.toNat false) (c.rd a.toNat l).toNat (c.rd b.toNat l).toNat)

/-- One floating result from one register. -/
def State.fr (s : State) (d a : Reg) (r : BitVec 3) (f : FCtx → Nat → Nat × Nat) : State :=
  s.alu (opsR d a) fun c l => flagged (f (fctx (c.thr l).fcw r.toNat false) (c.rd a.toNat l).toNat)

/-- Operands of an instruction whose destination is also its addend. -/
def opsAcc (d a b : Reg) : Operands := { a := [a.toNat], b := [b.toNat], more := [d.toNat], dst := [d.toNat] }

/-- One floating result from two registers and the destination's old value. -/
def State.facc (s : State) (d a b : Reg) (r : BitVec 3) (f : FCtx → Nat → Nat → Nat → Nat × Nat) : State :=
  s.alu (opsAcc d a b) fun c l =>
    flagged (f (fctx (c.thr l).fcw r.toNat false) (c.rd a.toNat l).toNat (c.rd b.toNat l).toNat (c.rd d.toNat l).toNat)

/-- Element e of width w of a lane (R86). -/
def elem (x w e : Nat) : Nat := x / 2 ^ (w * e) % 2 ^ w

/-- The format of a packed half (R316). -/
def halfFmt (h : Bool) : Fmt := if h then bf16 else fp16

/-- Both elements of a packed half, each on its own, their flags ORed (R317). -/
def halves (f : Nat → Nat → Nat → Nat × Nat) (x y z : Nat) : Nat × Nat :=
  let r0 := f (elem x 16 0) (elem y 16 0) (elem z 16 0)
  let r1 := f (elem x 16 1) (elem y 16 1) (elem z 16 1)
  (r0.1 + r1.1 * 2 ^ 16, Nat.lor r0.2 r1.2)

/-- The flags of FCMP (R97). -/
def fcmpFlags (x y : FVal) : Flags :=
  match fRelation x y with
  | none => { v := true }
  | some r => { n := r < 0, z := r == 0, c := decide (0 ≤ r) }

/-- DOT4 (R102, R300). INT8 elements are exact integers, and their zero is +0: the sign of a zero product is that of its factors, which the
rules leave open: DESIGN CHOICE (log 18). -/
def fDot4 (c : FCtx) (e x y d : Nat) : Nat × Nat :=
  let ax := (List.range 4).map fun i => elemValue c e (elem x 8 i)
  let bx := (List.range 4).map fun i => elemValue c e (elem y 8 i)
  let z := c.operand fp32 d
  fDot fp32 c (ax ++ bx ++ [z]) (ax.zip bx) z

/-- CVT (R298). -/
def cvtWord (c : FCtx) (src tgt i x : Nat) : Nat × Nat :=
  let ws := fmtWidth src
  let r := convert c src tgt (if ws < 32 then elem x ws i else x)
  (if ws < 32 then r.1 else r.1 * 2 ^ (fmtWidth tgt * i), r.2)

/-! ### Meanings -/

/-- FADD (R303). -/
def execFadd (d a b : Reg) (r : BitVec 3) (s : State) : Host.Outcome State Fault Refusal := .next (s.frr d a b r (fAdd fp32))
/-- FSUB (R303). -/
def execFsub (d a b : Reg) (r : BitVec 3) (s : State) : Host.Outcome State Fault Refusal := .next (s.frr d a b r (fSub fp32))
/-- FMUL (R303). -/
def execFmul (d a b : Reg) (r : BitVec 3) (s : State) : Host.Outcome State Fault Refusal := .next (s.frr d a b r (fMul fp32))
/-- FFMA (R312). -/
def execFfma (d a b : Reg) (r : BitVec 3) (s : State) : Host.Outcome State Fault Refusal := .next (s.facc d a b r (fFma fp32))
/-- FMIN (R98, R313). -/
def execFmin (d a b : Reg) (s : State) : Host.Outcome State Fault Refusal :=
  .next (s.frr d a b 0 fun c x y => fMinMax fp32 c false x y)
/-- FMAX (R98, R313). -/
def execFmax (d a b : Reg) (s : State) : Host.Outcome State Fault Refusal :=
  .next (s.frr d a b 0 fun c x y => fMinMax fp32 c true x y)
/-- FCMP (R97, R306). -/
def execFcmp (n : Cc) (a b : Reg) (s : State) : Host.Outcome State Fault Refusal :=
  .next (s.alu { a := [a.toNat], b := [b.toNat] } fun c l =>
    let k := fctx (c.thr l).fcw 0 false
    let x := k.operand fp32 (c.rd a.toNat l).toNat
    let y := k.operand fp32 (c.rd b.toNat l).toNat
    { cc := some (n, fcmpFlags x y), fl := sigFlags [x, y] })
/-- FCLASS (R305). -/
def execFclass (d a : Reg) (s : State) : Host.Outcome State Fault Refusal :=
  .next (s.ri d a fun x => BitVec.ofNat 32 (fClass x.toNat))
/-- FRCP (R309). -/
def execFrcp (d a : Reg) (r : BitVec 3) (s : State) : Host.Outcome State Fault Refusal := .next (s.fr d a r fRcp)
/-- FRSQ (R309). -/
def execFrsq (d a : Reg) (r : BitVec 3) (s : State) : Host.Outcome State Fault Refusal := .next (s.fr d a r fRsq)
/-- FSQRT (R309). -/
def execFsqrt (d a : Reg) (r : BitVec 3) (s : State) : Host.Outcome State Fault Refusal := .next (s.fr d a r fSqrt)
/-- FEXP2 (R309). -/
def execFexp2 (d a : Reg) (r : BitVec 3) (s : State) : Host.Outcome State Fault Refusal := .next (s.fr d a r fExp2)
/-- FLOG2 (R309). -/
def execFlog2 (d a : Reg) (r : BitVec 3) (s : State) : Host.Outcome State Fault Refusal := .next (s.fr d a r fLog2)
/-- DOT4 (R102, R300). -/
def execDot4 (d a b : Reg) (e r : BitVec 3) (s : State) : Host.Outcome State Fault Refusal :=
  .next (s.facc d a b r fun c x y z => fDot4 c e.toNat x y z)
/-- H2ADD (R316, R317). -/
def execH2add (d a b : Reg) (h : Bool) (r : BitVec 3) (s : State) : Host.Outcome State Fault Refusal :=
  .next (s.frr d a b r fun c x y => halves (fun p q _ => fAdd (halfFmt h) c p q) x y 0)
/-- H2MUL (R316, R317). -/
def execH2mul (d a b : Reg) (h : Bool) (r : BitVec 3) (s : State) : Host.Outcome State Fault Refusal :=
  .next (s.frr d a b r fun c x y => halves (fun p q _ => fMul (halfFmt h) c p q) x y 0)
/-- H2FMA (R316, R317). -/
def execH2fma (d a b : Reg) (h : Bool) (r : BitVec 3) (s : State) : Host.Outcome State Fault Refusal :=
  .next (s.facc d a b r fun c x y z => halves (fFma (halfFmt h) c) x y z)
/-- H2MIN (R98, R316, R317). -/
def execH2min (d a b : Reg) (h : Bool) (s : State) : Host.Outcome State Fault Refusal :=
  .next (s.frr d a b 0 fun c x y => halves (fun p q _ => fMinMax (halfFmt h) c false p q) x y 0)
/-- H2MAX (R98, R316, R317). -/
def execH2max (d a b : Reg) (h : Bool) (s : State) : Host.Outcome State Fault Refusal :=
  .next (s.frr d a b 0 fun c x y => halves (fun p q _ => fMinMax (halfFmt h) c true p q) x y 0)
/-- CVT (R95, R297, R298). -/
def execCvt (d a : Reg) (f g : BitVec 3) (i : BitVec 2) (q : Bool) (r : BitVec 3) (s : State) :
    Host.Outcome State Fault Refusal :=
  .next (s.alu (opsR d a) fun c l =>
    flagged (cvtWord (fctx (c.thr l).fcw r.toNat q) f.toNat g.toNat i.toNat (c.rd a.toNat l).toNat))
/-- DQ4 (R88, R96, R301). -/
def execDq4 (d a b c : Reg) (s : State) : Host.Outcome State Fault Refusal :=
  .next (s.alu (opsRRR d a b c) fun k l =>
    let sc := (k.rd c.toNat l).toNat
    flagged (dequant (fctx (k.thr l).fcw 1 false) (elem (k.rd a.toNat l).toNat 4 (bitsOf sc 8 3)) (bitsOf sc 0 8)
      (k.rd b.toNat l).toNat))

end Sys2Proof.Machine
end

