-- ==== Sys2Proof/Machine/Homes.lean ====
section
/-! DEFINITION. What happens at the home controllers and the page walkers as events of their own (R118, R122, R123, R127, R129 to
R131, R133, R137 to R139). -/

namespace Sys2Proof.Machine

/-- A home serves an L1 fill for a sector (R129): the page may be read, is not uncached, and neither an engine nor a store of the
core on its way nor a near-memory run holds the sector back (R131, R142, R209). -/
def State.loadFill (s : State) (core asid : Nat) (va : Dword) : Option State :=
  match s.translate core asid .read va.toNat with
  | .error _ => none
  | .ok e =>
    let cell := e.cell va.toNat
    if e.uc || s.inFlight core cell || s.ownedBy (cell / 64 * 64) 64 || !s.serves cell || 128 ≤ core then none
    else some ((s.holdTlb core e).fill core (s.aspace asid).lease e va.toNat)

/-- LOAD_FILL (R129). -/
def execLoadFill (core asid : Nat) (va : Dword) (s : State) : Host.Outcome State Fault Refusal :=
  .next ((s.loadFill core asid va).getD s)

/-- STORE_HOME_APPLY (R130, R139). -/
def execStoreHomeApply (k : Nat) (s : State) : Host.Outcome State Fault Refusal := .next ((s.applyFlight k).getD s)

/-- COMPLETION_TIME_RETURN (R130). -/
def execCompletionTimeReturn (k : Nat) (s : State) : Host.Outcome State Fault Refusal := .next ((s.returnFlight k).getD s)

/-- A home applies an ATOM of a core (R137, R138); its effect on the issuing thread is ATOM's own. -/
def State.atomAtHome (s : State) (core asid : Nat) (va : Dword) (o : BitVec 4) (b64 : Bool) (x comparand : Dword) : Option State :=
  let m := fun (v : Dword) => v.toNat % 2 ^ atomBits b64
  if va.toNat % (atomBits b64 / 8) != 0 || 128 ≤ core || 10 < o.toNat || (o == 10 && b64) then none
  else
    match s.atomVirt core asid s.nextLaunch 0 false o.toNat b64 va.toNat (m x) (m comparand) with
    | .ok s' _ => some s'
    | _ => none

/-- ATOM_HOME (R137, R138). -/
def execAtomHome (core asid : Nat) (va : Dword) (o : BitVec 4) (sz : Bool) (operand comparand : Dword) (s : State) :
    Host.Outcome State Fault Refusal :=
  .next ((s.atomAtHome core asid va o sz operand comparand).getD s)

/-- A walk of a die's walkers ends (R112, R113, R118): a valid leaf stays in the last-level TLB, and nothing else does. -/
def State.walkComplete (s : State) (die asid : Nat) (va : Dword) : Option State :=
  if 2 ^ 49 ≤ va.toNat || 4 ≤ die || !(s.aspace asid).live then none
  else
    match s.lookupDie die asid va.toNat with
    | .error _ => none
    | .ok e => some (s.setDie die { s.die die with tlb := holdEntry 4096 (s.die die).tlb e })

/-- TABLE_WALK_COMPLETE (R118). -/
def execTableWalkComplete (die asid : Nat) (va : Dword) (s : State) : Host.Outcome State Fault Refusal :=
  .next ((s.walkComplete die asid va).getD s)

/-- DTIME_PASSED (R127): DTIME never goes back. -/
def execDtimePassed (t : Nat) (s : State) : Host.Outcome State Fault Refusal := .next (s.passTime (max s.dtime t))

/-- HOST_GLOBALLY_OBSERVED_ACK (R133, R145). -/
def execHostGloballyObservedAck (k : Nat) (s : State) : Host.Outcome State Fault Refusal :=
  .next { s with hostPending := dropAt s.hostPending k }

/-- An error in DRAM (R122): an uncorrectable one poisons its 8-byte word, one that was corrected changes nothing, and either is reported. -/
def execEccUncorrectable (e : DramError) (s : State) : Host.Outcome State Fault Refusal :=
  .next (if e.cell < 2 ^ 39 then
      ({ s with bad := if e.corrected then s.bad else addWords s.bad [e.cell / 8] } : State).post (.ecc e.cell !e.corrected)
    else s)

/-- A number joins a list of marks. -/
def addMark (marks : List Nat) (k : Nat) : List Nat := if marks.contains k then marks else marks ++ [k]

/-- Change a launch's window on a core, when it is granted. -/
def State.onWindow (s : State) (core launch : Nat) (f : Window → Window) : State := s.setWindow core (f ((s.core core).window launch))

/-- An uncorrectable error of the unified store (R123): an L1 sector is invalidated, and what is not held at home is poisoned. -/
def State.storeError (s : State) (core : Nat) : EccPlace → State
  | .l1 line sector => s.setCore core ((s.core core).setSector (line * 256 + sector % 4 * 64) none)
  | .scratch launch off => s.onWindow core launch fun w => { w with scratchBad := addMark w.scratchBad (off / 64) }
  | .acc launch cell => s.onWindow core launch fun w => { w with accBad := addMark w.accBad (cell / 16) }
  | .drainScale launch idx => s.onWindow core launch fun w => { w with dsBad := addMark w.dsBad (idx / 16) }
  | .blockScale launch idx => s.onWindow core launch fun w => { w with bsBad := addMark w.bsBad (idx / 64) }
  | .preg crew reg half =>
    let c := s.crew crew
    if c.core = some core then
      s.setCrew crew (c.onRegs fun r p => if r = reg then p.map fun p =>
        if half = 0 then { p with poisonLo := true } else { p with poisonHi := true } else p)
    else s

/-- STORE_ECC_ERROR (R122, R123): an uncorrectable error has its effect, one that was corrected none, and either is reported. -/
def execStoreEccError (core : Nat) (e : StoreError) (s : State) : Host.Outcome State Fault Refusal :=
  .next ((if e.corrected then s else s.storeError core e.place).post (.storeEcc core e.place !e.corrected))

end Sys2Proof.Machine
end

