-- ==== Sys2Proof/Machine/Mapping.lean ====
section
/-! DEFINITION. Mapping pages executable (R74 to R76) and shootdowns of system software (R120). -/

namespace Sys2Proof.Machine

/-- A page's size in bytes (R112). -/
def pageSize (large : Bool) : Nat := if large then 2 ^ 29 else 2 ^ 16

/-- The frames of a page. -/
def pageFrames (e : Dword) (large : Bool) : List Nat := framesOf e (pageSize large)

/-- Every write that has been sent to a frame has been applied, and its completion time has passed (R75). -/
def State.frameQuiet (s : State) (f : Nat) : Bool :=
  let inside := fun (cell : Nat) => inFrame f false cell || inFrame f true cell
  !(s.flights.any fun x => inside x.addr) && !(s.owned.any fun o => inside o.addr) &&
  s.lastWrite.all fun w => !inside (64 * w.1) || w.2.ct < s.dtime

/-- The lowest failing packet of a page: offset, slot and reason (R74, R76); a page entry with X and W is refused as such. -/
def State.scanPage (s : State) (e : Dword) (large : Bool) : Option (Nat × Nat × Nat) :=
  match (List.range (pageSize large / 16)).findSome? fun i =>
      (packetOf (Memory.readN s.mem (cellOf (pteFrame e + 16 * i) (pteBL e)) 16)).scan.map fun r => (16 * i, r.1, r.2.number) with
  | some r => some r
  | none => if pteW e then some (0, 0, Reason.number .wx) else none

/-- A page of a request can be judged: a valid executable leaf for an aligned address that is not mapped. -/
def State.pageAsked (s : State) (asid : Nat) (va e : Dword) (large : Bool) : Bool :=
  va.toNat % pageSize large == 0 && va.toNat < 2 ^ 49 && pteV e && pteX e && pteLeaf e &&
  !malformed (if large then 2 else 3) (e &&& ~~~4) &&
  (match s.walk (s.aspace asid).root va.toNat with
    | .error c => c == causeNotPresent
    | .ok _ => false) &&
  (pageFrames e large).all s.frameQuiet

/-- A page is mapped executable and its frames are code-locked (R75). -/
def State.mapCode (s : State) (asid : Nat) (va e : Dword) (large : Bool) : State :=
  let fs := pageFrames e large
  let s : State := { s with locked := fs ++ s.locked, frames := fs.map (frameKey · (pteBL e)) ++ s.frames }
  if large then s.mapLarge asid va.toNat e else s.mapPage asid va.toNat e

/-- Pages stand in ascending order. -/
def ascending : List Nat → Bool
  | x :: y :: r => x < y && ascending (y :: r)
  | _ => true

/-- A request to map pages executable is taken whole (R76): it takes effect when the scanner passes every page, and otherwise each
refused page is reported. -/
def State.mapExecutable (s : State) (asid : Nat) (pages : List (Dword × Dword × Bool)) : Option State :=
  if !(s.aspace asid).live || !ascending (pages.map fun p => p.1.toNat) ||
      !pages.all fun p => s.pageAsked asid p.1 p.2.1 p.2.2 then none
  else
    let bad := pages.filterMap fun p => (s.scanPage p.2.1 p.2.2).map fun r => (p.1.toNat, r)
    some (if bad.isEmpty then pages.foldl (fun s p => s.mapCode asid p.1 p.2.1 p.2.2) s
      else bad.foldl (fun s r => s.post (.mapRefused r.1 r.2.1 r.2.2.1 r.2.2.2)) s)

/-- MAP_EXECUTABLE (R74 to R76). -/
def execMapExecutable (asid : Nat) (pages : List (Dword × Dword × Bool)) (s : State) : Host.Outcome State Fault Refusal :=
  .next ((s.mapExecutable asid pages).getD s)

/-- The size of what an entry of a table of a level covers (R112). -/
def levelSize (level : Nat) : Nat := if level = 1 then 2 ^ 42 else if level = 2 then 2 ^ 29 else 2 ^ 16

/-- The physical address of an address's entry in the table of a level, when the entries above it lead there (R112). -/
def State.entryAddr (s : State) (asid va level : Nat) : Option Nat :=
  let p1 := (s.aspace asid).root + 8 * bitsOf va 42 7
  let e1 := s.readPhys p1
  let p2 := pteFrame e1 + 8 * bitsOf va 29 13
  let e2 := s.readPhys p2
  let through := fun (n : Nat) (e : Dword) => pteV e && !malformed n e && !pteLeaf e
  match level with
  | 1 => some p1
  | 2 => if through 1 e1 then some p2 else none
  | 3 => if through 1 e1 && through 2 e2 then some (pteFrame e2 + 8 * bitsOf va 16 13) else none
  | _ => none

/-- The page of an entry of a third table, as a TLB holds it. -/
def pagesIn3 (asid va : Nat) (e : Dword) : List TlbEntry :=
  if pteV e && !malformed 3 e then [{ asid := asid, va := va, size := 2 ^ 16, leaf := e }] else []

/-- The pages under an entry of a second table. -/
def State.pagesIn2 (s : State) (asid va : Nat) (e : Dword) : List TlbEntry :=
  if !pteV e || malformed 2 e then []
  else if pteLeaf e then [{ asid := asid, va := va, size := 2 ^ 29, leaf := e }]
  else (List.range 8192).flatMap fun i => pagesIn3 asid (va + i * 65536) (s.readPhys (pteFrame e + 8 * i))

/-- The pages under an entry of a level (R112). -/
def State.pagesIn (s : State) (asid va level : Nat) (e : Dword) : List TlbEntry :=
  match level with
  | 1 => if !pteV e || malformed 1 e then []
    else (List.range 8192).flatMap fun i => s.pagesIn2 asid (va + i * 2 ^ 29) (s.readPhys (pteFrame e + 8 * i))
  | 2 => s.pagesIn2 asid va e
  | _ => pagesIn3 asid va e

/-- The table frames that an entry of a level leads to. -/
def State.tablesIn (s : State) (level : Nat) (e : Dword) : List Nat :=
  let table := fun (n : Nat) (e : Dword) => if pteV e && !malformed n e && !pteLeaf e then [pteFrame e / 65536] else []
  match level with
  | 1 => table 1 e ++ (table 1 e).flatMap fun f => (List.range 8192).flatMap fun i => table 2 (s.readPhys (f * 65536 + 8 * i))
  | 2 => table 2 e
  | _ => []

/-- The frames of a page. -/
def TlbEntry.frames (e : TlbEntry) : List Nat := pageFrames e.leaf (e.size == 2 ^ 29)

/-- A page gives code at the same place as another does. -/
def TlbEntry.sameCode (e f : TlbEntry) : Bool :=
  e.va == f.va && e.size == f.size && pteFrame e.leaf == pteFrame f.leaf && pteBL e.leaf == pteBL f.leaf && pteX f.leaf

/-- A shootdown (R120): a valid entry of any level, well formed or not, takes a new value, once what used it is done; every TLB drops what lies
under it. Nothing becomes executable that was not so before at the same address (R74, R75). A frame whose last executable mapping goes is
no longer code-locked (R75). -/
def State.shootdown (s : State) (asid : Nat) (va new : Dword) (level : Nat) : Option State :=
  let size := levelSize level
  let base := va.toNat / size * size
  match if (s.aspace asid).live ∧ va.toNat < 2 ^ 49 then s.entryAddr asid va.toNat level else none with
  | none => none
  | some pa =>
    let e := s.readPhys pa
    let old := s.pagesIn asid base level e
    let fresh := s.pagesIn asid base level new
    if !pteV e || !(fresh.all fun p => !pteX p.leaf || old.any p.sameCode) || !old.all (s.leafQuiet asid) then none
    else
      let keys := fun (ps : List TlbEntry) (ts : List Nat) =>
        (ps.flatMap fun p => p.frames.map (frameKey · (pteBL p.leaf))) ++ ts.map (frameKey · false)
      let code := fun (ps : List TlbEntry) => (ps.filter fun p => pteX p.leaf).flatMap TlbEntry.frames
      let gone := keys old (s.tablesIn level e)
      let come := keys fresh (s.tablesIn level new)
      some { (s.dropTlbRange asid base size).writePte pa new with
        frames := come ++ gone.foldl List.erase s.frames
        locked := code fresh ++ (code old).foldl List.erase s.locked }

/-- SHOOTDOWN (R120). -/
def execShootdown (asid : Nat) (place : TablePlace) (entry : Dword) (s : State) : Host.Outcome State Fault Refusal :=
  .next ((s.shootdown asid place.va entry place.level).getD s)

end Sys2Proof.Machine
end

