-- ==== Sys2Proof/Machine/Software.lean ====
section
/-! DEFINITION. What system software asks of the resident service (R112, R128, R155, R179, R208, R221, R224, R232, R239, R250). -/

namespace Sys2Proof.Machine

/-- VIRTUAL_INTERFACE_CREATE (R239): up to 1024 interfaces, each with its quotas, weight and pseudo-channels. -/
def execVirtualInterfaceCreate (vi asidQuota memQuota weight : Nat) (pcs : List Nat) (s : State) :
    Host.Outcome State Fault Refusal :=
  .next (if vi < 1024 ∧ thas s.vis vi = false ∧ asidQuota ≤ 4096 ∧ 1 ≤ weight ∧ weight ≤ 255 ∧ pcs.all (· < 512) = true then
      s.setVi vi { asidQuota := asidQuota, memQuota := memQuota, weight := weight, pcs := pcs }
    else s)

/-- The live address spaces of an interface, in ascending number. -/
def State.asidsOf (s : State) (vi : Nat) : List Nat := (s.aspaces.filter fun e => e.2.live && e.2.vi == vi).map (·.1)

/-- The lease length of a new address space (R128): 256 to 16384 in multiples of 256; 0 stands for the default. -/
def leaseOf (n : Nat) : Option Nat :=
  if n = 0 then some 2048 else if 256 ≤ n ∧ n ≤ 16384 ∧ n % 256 = 0 then some n else none

/-- The mailbox page of a pseudo-channel of the interface is mapped for an address space (R210), where nothing is mapped. -/
def State.mapMailbox (s : State) (asid p : Nat) : State :=
  match s.walk (s.aspace asid).root (mailboxVa p) with
  | .ok _ => s
  | .error c =>
    if c = causeNotPresent then
      ({ s with frames := frameKey (p * 2 ^ 14 + 0x3fff) true :: s.frames } : State).mapPage asid (mailboxVa p) (mailboxEntry p)
    else s

/-- ADDRESS_SPACE_CREATE (R112, R128, R210, R239): one of the 4096 identifiers, within the interface's quota, with the root of its table, and
the mailbox pages of the interface's pseudo-channels mapped. -/
def State.createSpace (s : State) (vi asid root lease : Nat) : Option State :=
  match leaseOf lease with
  | none => none
  | some l =>
    if asid < 4096 && !(s.aspace asid).live && thas s.vis vi && (s.asidsOf vi).length < (s.vi vi).asidQuota &&
        root % 1024 == 0 && backed root then
      some ((s.vi vi).pcs.foldl (fun s p => s.mapMailbox asid p) (s.setAspace asid { vi := vi, root := root, lease := l }))
    else none

/-- ADDRESS_SPACE_CREATE (R128). -/
def execAddressSpaceCreate (vi asid root lease : Nat) (s : State) : Host.Outcome State Fault Refusal :=
  .next ((s.createSpace vi asid root lease).getD s)

/-- A launch of an address space that has not completed. -/
def State.spaceBusy (s : State) (asid : Nat) : Bool :=
  s.launches.any fun e => e.2.asid == asid && (match e.2.phase with
    | .done _ => false
    | _ => true)

/-- An address space is destroyed (R120, R179, R208): its bags are freed, its sealed pages disarmed, its pages removed and its quota
returned. None while a launch of it is live. -/
def State.destroySpace (s : State) (asid : Nat) : Option State :=
  let a := s.aspace asid
  if !a.live || s.spaceBusy asid then none
  else
    let s := s.unseal asid ((s.sealed.filter fun e => e.asid == asid).map (·.va))
    let s := a.bags.foldl (fun s b => if b.2.live || b.2.freeing.isSome then s.discardBag asid b.1 else s) s
    let s := (a.allocs ++ a.ranges).foldl (fun s r => s.unmapRange asid r.base r.pages) s
    let s := (s.vi a.vi).pcs.foldl (fun s p => s.unmapPage asid (mailboxVa p)) s
    let v := s.vi a.vi
    let s := s.setVi a.vi { v with memUsed := v.memUsed - (a.allocs.map (·.pages)).sum }
    let keep := fun (e : TlbEntry) => e.asid != asid
    some { s with
      aspaces := tdel s.aspaces asid
      cores := s.cores.map fun e => (e.1, { e.2 with tlb := e.2.tlb.filter keep })
      dies := s.dies.map fun e => (e.1, { e.2 with tlb := e.2.tlb.filter keep }) }

/-- ADDRESS_SPACE_DESTROY (R179, R208). -/
def execAddressSpaceDestroy (asid : Nat) (s : State) : Host.Outcome State Fault Refusal := .next ((s.destroySpace asid).getD s)

/-- QUEUE_PAIR_BIND (R155, R308). -/
def execQueuePairBind (vi q ctrl nsid lbaSize : Nat) (s : State) : Host.Outcome State Fault Refusal :=
  .next (if thas s.vis vi ∧ q < 16 ∧ (lbaSize = 512 ∨ lbaSize = 4096) then
      s.setVi vi { s.vi vi with qps := tset (s.vi vi).qps q { ctrl := ctrl, nsid := nsid, lba := lbaSize } }
    else s)

/-- LAUNCH_QUEUE_SETUP (R221): a ring of 2^n records, n from 4 to 12, in the interface's memory (log 40). -/
def execLaunchQueueSetup (vi queue : Nat) (base : Dword) (log2 : Nat) (s : State) : Host.Outcome State Fault Refusal :=
  .next (match s.asidsOf vi with
    | [] => s
    | asid :: _ =>
      if thas s.vis vi ∧ queue < 8 ∧ base.toNat % 128 = 0 ∧ 4 ≤ log2 ∧ log2 ≤ 12 then
        s.setVi vi { s.vi vi with queues := tset (s.vi vi).queues queue ⟨asid, base.toNat, log2, 0, 0⟩ }
      else s)

/-- RANGE_REGISTER (R232). -/
def execRangeRegister (asid : Nat) (base : Dword) (pages : Nat) (s : State) : Host.Outcome State Fault Refusal :=
  .next (if (s.aspace asid).live ∧ base.toNat % 65536 = 0 ∧ base.toNat + pages * 65536 ≤ 2 ^ 49 then
      s.setAspace asid { s.aspace asid with ranges := (s.aspace asid).ranges ++ [⟨base.toNat, pages, none⟩] }
    else s)

/-- SET_ADMISSION_WEIGHT (R224). -/
def execSetAdmissionWeight (vi weight : Nat) (s : State) : Host.Outcome State Fault Refusal :=
  .next (if thas s.vis vi ∧ 1 ≤ weight ∧ weight ≤ 255 then s.setVi vi { s.vi vi with weight := weight } else s)

/-- A range without the part that another takes: pairs of first frame and number. -/
def minusRange (g h : Nat × Nat) : List (Nat × Nat) :=
  [(g.1, min g.2 (h.1 - g.1)), (max g.1 (h.1 + h.2), g.1 + g.2 - max g.1 (h.1 + h.2))].filter fun r => 0 < r.2

/-- A grant takes effect on frames that another interface has had only when no store is on its way to them, no engine owns a line of them, and no
area of a crew or of a launch lies in them (R250): DESIGN CHOICE, the rule does not say what becomes of these (log 89). -/
def State.grantQuiet (s : State) (gone : Nat → Bool) (passes : Nat → Bool) : Bool :=
  !(s.flights.any fun f => !f.applied && gone f.addr) && !(s.owned.any fun o => gone o.addr) &&
  !(s.crews.any fun e => e.2.area.any passes) && !s.launches.any fun e => (e.2.areas ++ e.2.broodAreas).any passes

/-- A range is granted to an interface (R250): frames that pass from another interface are zeroed, under either layout, before they
pass, and no L1 holds any of them. -/
def State.grantRange (s : State) (vi base units : Nat) : State :=
  let r := (base, units)
  let passes := fun (f : Nat) => base ≤ f && f < base + units && s.vis.any fun e => e.1 != vi && e.2.grants (f * 65536)
  let gone := fun (cell : Nat) =>
    if isHost cell then passes (cell / 65536) else passes (paOfPlain cell / 65536) || passes (paOfLinear cell / 65536)
  if !s.grantQuiet gone passes then s else
  { s.dropLines gone with
    mem := s.mem.filter fun e => !gone e.1
    bad := s.bad.filter fun w => !gone (8 * w)
    vis := s.vis.map fun e =>
      (e.1, { e.2 with granted := e.2.granted.flatMap (minusRange · r) ++ (if e.1 = vi then [r] else []) }) }

/-- FIREWALL_RANGE_GRANT (R250): base is a frame number, units a number of frames. -/
def execFirewallRangeGrant (vi base units : Nat) (s : State) : Host.Outcome State Fault Refusal :=
  .next (if thas s.vis vi ∧ 0 < units ∧ base + units ≤ 2 ^ 30 then s.grantRange vi base units else s)

end Sys2Proof.Machine
end

