-- ==== Sys2Proof/Machine/Dispatch.lean ====
section
/-! DEFINITION. The meaning of every instruction, microprogram operation and event: one arm per constructor of Instr, each one
call of its meaning. -/

namespace Sys2Proof.Machine

/-- The meaning of an instruction, an operation or an event in a state. -/
def exec (i : Instr) (s : State) : Host.Outcome State Fault Refusal :=
  match i with
  | .nop => Sys2Proof.Machine.execNop s
  | .add d a b f n => Sys2Proof.Machine.execAdd d a b f n s
  | .addI d a im => Sys2Proof.Machine.execAddI d a im s
  | .addc d a b f n => Sys2Proof.Machine.execAddc d a b f n s
  | .sub d a b f n => Sys2Proof.Machine.execSub d a b f n s
  | .subb d a b f n => Sys2Proof.Machine.execSubb d a b f n s
  | .mul d a b => Sys2Proof.Machine.execMul d a b s
  | .mulI d a im => Sys2Proof.Machine.execMulI d a im s
  | .mulh d a b sg => Sys2Proof.Machine.execMulh d a b sg s
  | .mad d a b c => Sys2Proof.Machine.execMad d a b c s
  | .div d a b sg => Sys2Proof.Machine.execDiv d a b sg s
  | .rem d a b sg => Sys2Proof.Machine.execRem d a b sg s
  | .min d a b sg => Sys2Proof.Machine.execMin d a b sg s
  | .minI d a im => Sys2Proof.Machine.execMinI d a im s
  | .max d a b sg => Sys2Proof.Machine.execMax d a b sg s
  | .maxI d a im => Sys2Proof.Machine.execMaxI d a im s
  | .abs d a => Sys2Proof.Machine.execAbs d a s
  | .and d a b => Sys2Proof.Machine.execAnd d a b s
  | .andI d a im => Sys2Proof.Machine.execAndI d a im s
  | .or d a b => Sys2Proof.Machine.execOr d a b s
  | .orI d a im => Sys2Proof.Machine.execOrI d a im s
  | .xor d a b => Sys2Proof.Machine.execXor d a b s
  | .xorI d a im => Sys2Proof.Machine.execXorI d a im s
  | .andn d a b => Sys2Proof.Machine.execAndn d a b s
  | .shl d a b => Sys2Proof.Machine.execShl d a b s
  | .shlI d a im => Sys2Proof.Machine.execShlI d a im s
  | .shr d a b => Sys2Proof.Machine.execShr d a b s
  | .shrI d a im => Sys2Proof.Machine.execShrI d a im s
  | .sar d a b => Sys2Proof.Machine.execSar d a b s
  | .sarI d a im => Sys2Proof.Machine.execSarI d a im s
  | .rot d a b => Sys2Proof.Machine.execRot d a b s
  | .rotI d a im => Sys2Proof.Machine.execRotI d a im s
  | .clz d a => Sys2Proof.Machine.execClz d a s
  | .popc d a => Sys2Proof.Machine.execPopc d a s
  | .brev d a => Sys2Proof.Machine.execBrev d a s
  | .bfx d a b sg => Sys2Proof.Machine.execBfx d a b sg s
  | .bfi d a b c => Sys2Proof.Machine.execBfi d a b c s
  | .perm d a b c => Sys2Proof.Machine.execPerm d a b c s
  | .sel d a b n k => Sys2Proof.Machine.execSel d a b n k s
  | .cmp n a b => Sys2Proof.Machine.execCmp n a b s
  | .cmpI n a im => Sys2Proof.Machine.execCmpI n a im s
  | .lea d a b x t => Sys2Proof.Machine.execLea d a b x t s
  | .clmul d a b h => Sys2Proof.Machine.execClmul d a b h s
  | .mov d a => Sys2Proof.Machine.execMov d a s
  | .add64 d a b f n => Sys2Proof.Machine.execAdd64 d a b f n s
  | .cmp64 n a b => Sys2Proof.Machine.execCmp64 n a b s
  | .movi d k im => Sys2Proof.Machine.execMovi d k im s
  | .fadd d a b r => Sys2Proof.Machine.execFadd d a b r s
  | .fsub d a b r => Sys2Proof.Machine.execFsub d a b r s
  | .fmul d a b r => Sys2Proof.Machine.execFmul d a b r s
  | .ffma d a b r => Sys2Proof.Machine.execFfma d a b r s
  | .fmin d a b => Sys2Proof.Machine.execFmin d a b s
  | .fmax d a b => Sys2Proof.Machine.execFmax d a b s
  | .fcmp n a b => Sys2Proof.Machine.execFcmp n a b s
  | .fclass d a => Sys2Proof.Machine.execFclass d a s
  | .frcp d a r => Sys2Proof.Machine.execFrcp d a r s
  | .frsq d a r => Sys2Proof.Machine.execFrsq d a r s
  | .fsqrt d a r => Sys2Proof.Machine.execFsqrt d a r s
  | .fexp2 d a r => Sys2Proof.Machine.execFexp2 d a r s
  | .flog2 d a r => Sys2Proof.Machine.execFlog2 d a r s
  | .dot4 d a b e r => Sys2Proof.Machine.execDot4 d a b e r s
  | .h2add d a b h r => Sys2Proof.Machine.execH2add d a b h r s
  | .h2mul d a b h r => Sys2Proof.Machine.execH2mul d a b h r s
  | .h2fma d a b h r => Sys2Proof.Machine.execH2fma d a b h r s
  | .h2min d a b h => Sys2Proof.Machine.execH2min d a b h s
  | .h2max d a b h => Sys2Proof.Machine.execH2max d a b h s
  | .cvt d a sg t im q r => Sys2Proof.Machine.execCvt d a sg t im q r s
  | .dq4 d a b c => Sys2Proof.Machine.execDq4 d a b c s
  | .shfl d a b z m => Sys2Proof.Machine.execShfl d a b z m s
  | .vote d a k => Sys2Proof.Machine.execVote d a k s
  | .scan d a sg x o => Sys2Proof.Machine.execScan d a sg x o s
  | .topk d a b k => Sys2Proof.Machine.execTopk d a b k s
  | .ld d a b z p x => Sys2Proof.Machine.execLd d a b z p x s
  | .ldWide d a b z p x off => Sys2Proof.Machine.execLdWide d a b z p x off s
  | .st d a b z p => Sys2Proof.Machine.execSt d a b z p s
  | .stWide d a b z p off => Sys2Proof.Machine.execStWide d a b z p off s
  | .lda d a b z p x => Sys2Proof.Machine.execLda d a b z p x s
  | .strel d a b z p => Sys2Proof.Machine.execStrel d a b z p s
  | .ldnc d a b z p x => Sys2Proof.Machine.execLdnc d a b z p x s
  | .stnc d a b z p => Sys2Proof.Machine.execStnc d a b z p s
  | .atom d a b o sg p => Sys2Proof.Machine.execAtom d a b o sg p s
  | .fenceCore => Sys2Proof.Machine.execFenceCore s
  | .fenceDev => Sys2Proof.Machine.execFenceDev s
  | .fenceSys => Sys2Proof.Machine.execFenceSys s
  | .br o => Sys2Proof.Machine.execBr o s
  | .call o => Sys2Proof.Machine.execCall o s
  | .jmp a => Sys2Proof.Machine.execJmp a s
  | .ret a => Sys2Proof.Machine.execRet a s
  | .mpush o => Sys2Proof.Machine.execMpush o s
  | .mjoin im => Sys2Proof.Machine.execMjoin im s
  | .mdrop im => Sys2Proof.Machine.execMdrop im s
  | .exit => Sys2Proof.Machine.execExit s
  | .bar im => Sys2Proof.Machine.execBar im s
  | .bara im => Sys2Proof.Machine.execBara im s
  | .yield => Sys2Proof.Machine.execYield s
  | .spawn a n entry t => Sys2Proof.Machine.execSpawn a n entry t s
  | .regroup a entry t => Sys2Proof.Machine.execRegroup a entry t s
  | .fwait d a t => Sys2Proof.Machine.execFwait d a t s
  | .ftest d a => Sys2Proof.Machine.execFtest d a s
  | .fcancel a => Sys2Proof.Machine.execFcancel a s
  | .fwany d a => Sys2Proof.Machine.execFwany d a s
  | .fwall a => Sys2Proof.Machine.execFwall a s
  | .ffirst d a => Sys2Proof.Machine.execFfirst d a s
  | .copy d a b dir shape n t => Sys2Proof.Machine.execCopy d a b dir shape n t s
  | .copys d a b k => Sys2Proof.Machine.execCopys d a b k s
  | .ctset n a => Sys2Proof.Machine.execCtset n a s
  | .ctadd n a => Sys2Proof.Machine.execCtadd n a s
  | .fetch d a q => Sys2Proof.Machine.execFetch d a q s
  | .launch d a => Sys2Proof.Machine.execLaunch d a s
  | .mma d a b na nb za q t acc n thr => Sys2Proof.Machine.execMma d a b na nb za q t acc n thr s
  | .mdrain d a b rs cs sat r acc => Sys2Proof.Machine.execMdrain d a b rs cs sat r acc s
  | .mzero d a b => Sys2Proof.Machine.execMzero d a b s
  | .bput d a b f n => Sys2Proof.Machine.execBput d a b f n s
  | .btake d a b f n => Sys2Proof.Machine.execBtake d a b f n s
  | .bdrain d a b c => Sys2Proof.Machine.execBdrain d a b c s
  | .bscan d a b c => Sys2Proof.Machine.execBscan d a b c s
  | .bcount d a => Sys2Proof.Machine.execBcount d a s
  | .binfo d a b => Sys2Proof.Machine.execBinfo d a b s
  | .nmload d a b n => Sys2Proof.Machine.execNmload d a b n s
  | .nmarm d a => Sys2Proof.Machine.execNmarm d a s
  | .nmrun d a => Sys2Proof.Machine.execNmrun d a s
  | .nmdisarm d a => Sys2Proof.Machine.execNmdisarm d a s
  | .scall d a im => Sys2Proof.Machine.execScall d a im s
  | .trap im => Sys2Proof.Machine.execTrap im s
  | .tret => Sys2Proof.Machine.execTret s
  | .sread d im => Sys2Proof.Machine.execSread d im s
  | .swrite a im => Sys2Proof.Machine.execSwrite a im s
  | .bkpt im => Sys2Proof.Machine.execBkpt im s
  | .mEnd => Sys2Proof.Machine.execMEnd s
  | .mRows sg => Sys2Proof.Machine.execMRows sg s
  | .mCols sg d => Sys2Proof.Machine.execMCols sg d s
  | .mBvec => Sys2Proof.Machine.execMBvec s
  | .mMacb => Sys2Proof.Machine.execMMacb s
  | .mAxpy => Sys2Proof.Machine.execMAxpy s
  | .mRed => Sys2Proof.Machine.execMRed s
  | .mActv => Sys2Proof.Machine.execMActv s
  | .mWcol sg => Sys2Proof.Machine.execMWcol sg s
  | .mWmbx => Sys2Proof.Machine.execMWmbx s
  | .mLoop n target => Sys2Proof.Machine.execMLoop n target s
  | .takeTrap cause va => Sys2Proof.Machine.execTakeTrap cause va s
  | .trapPolicy k => Sys2Proof.Machine.execTrapPolicy k s
  | .pageRepair k => Sys2Proof.Machine.execPageRepair k s
  | .debuggerRelease launch tid kill => Sys2Proof.Machine.execDebuggerRelease launch tid kill s
  | .meetDeadline crew meeting => Sys2Proof.Machine.execMeetDeadline crew meeting s
  | .yieldExpiry crew lane => Sys2Proof.Machine.execYieldExpiry crew lane s
  | .binTimerExpiry cluster bin => Sys2Proof.Machine.execBinTimerExpiry cluster bin s
  | .poolGrow core => Sys2Proof.Machine.execPoolGrow core s
  | .poolBankJoin core => Sys2Proof.Machine.execPoolBankJoin core s
  | .poolBankReturn core => Sys2Proof.Machine.execPoolBankReturn core s
  | .poolSpill core => Sys2Proof.Machine.execPoolSpill core s
  | .registerRefill crew reg => Sys2Proof.Machine.execRegisterRefill crew reg s
  | .scratchBankJoin core launch => Sys2Proof.Machine.execScratchBankJoin core launch s
  | .loadFill core asid va => Sys2Proof.Machine.execLoadFill core asid va s
  | .storeHomeApply k => Sys2Proof.Machine.execStoreHomeApply k s
  | .completionTimeReturn k => Sys2Proof.Machine.execCompletionTimeReturn k s
  | .atomHome core asid va o sg operand comparand => Sys2Proof.Machine.execAtomHome core asid va o sg operand comparand s
  | .copyComplete id => Sys2Proof.Machine.execCopyComplete id s
  | .fetchComplete id data status => Sys2Proof.Machine.execFetchComplete id data status s
  | .mmaStart core => Sys2Proof.Machine.execMmaStart core s
  | .mmaComplete core => Sys2Proof.Machine.execMmaComplete core s
  | .drainStageStart core => Sys2Proof.Machine.execDrainStageStart core s
  | .mdrainComplete core => Sys2Proof.Machine.execMdrainComplete core s
  | .mzeroComplete core => Sys2Proof.Machine.execMzeroComplete core s
  | .copysComplete core => Sys2Proof.Machine.execCopysComplete core s
  | .reservationServe k => Sys2Proof.Machine.execReservationServe k s
  | .placementBatch asid idx share => Sys2Proof.Machine.execPlacementBatch asid idx share s
  | .placementComplete asid idx share => Sys2Proof.Machine.execPlacementComplete asid idx share s
  | .drainRound id => Sys2Proof.Machine.execDrainRound id s
  | .nmloadComplete id => Sys2Proof.Machine.execNmloadComplete id s
  | .nmarmSeal id => Sys2Proof.Machine.execNmarmSeal id s
  | .nmrunStart stack => Sys2Proof.Machine.execNmrunStart stack s
  | .nmrunComplete id => Sys2Proof.Machine.execNmrunComplete id s
  | .nmdisarmComplete id => Sys2Proof.Machine.execNmdisarmComplete id s
  | .refresh pc => Sys2Proof.Machine.execRefresh pc s
  | .computeResume pc => Sys2Proof.Machine.execComputeResume pc s
  | .serviceReply id => Sys2Proof.Machine.execServiceReply id s
  | .allocSvc id lane => Sys2Proof.Machine.execAllocSvc id lane s
  | .freeSvc id lane => Sys2Proof.Machine.execFreeSvc id lane s
  | .bagnewSvc id lane => Sys2Proof.Machine.execBagnewSvc id lane s
  | .bagfreeSvc id lane => Sys2Proof.Machine.execBagfreeSvc id lane s
  | .printSvc id lane => Sys2Proof.Machine.execPrintSvc id lane s
  | .doorbellWrite vi offset tail => Sys2Proof.Machine.execDoorbellWrite vi offset tail s
  | .launchRecordAccept vi queue => Sys2Proof.Machine.execLaunchRecordAccept vi queue s
  | .launchStart lid => Sys2Proof.Machine.execLaunchStart lid s
  | .launchCompletion lid => Sys2Proof.Machine.execLaunchCompletion lid s
  | .crewAdmit cluster => Sys2Proof.Machine.execCrewAdmit cluster s
  | .preempt cluster => Sys2Proof.Machine.execPreempt cluster s
  | .ballastWindow core port => Sys2Proof.Machine.execBallastWindow core port s
  | .mapExecutable asid pages => Sys2Proof.Machine.execMapExecutable asid pages s
  | .shootdown asid place entry => Sys2Proof.Machine.execShootdown asid place entry s
  | .eccUncorrectable e => Sys2Proof.Machine.execEccUncorrectable e s
  | .storeEccError core e => Sys2Proof.Machine.execStoreEccError core e s
  | .hostWrite dest data => Sys2Proof.Machine.execHostWrite dest data s
  | .hostRead dest n => Sys2Proof.Machine.execHostRead dest n s
  | .supexWriteIn port dest data poison => Sys2Proof.Machine.execSupexWriteIn port dest data poison s
  | .supexReadIn port dest reply => Sys2Proof.Machine.execSupexReadIn port dest reply s
  | .flitRetry port => Sys2Proof.Machine.execFlitRetry port s
  | .supexPortDown port => Sys2Proof.Machine.execSupexPortDown port s
  | .ueFrameReceive port req => Sys2Proof.Machine.execUeFrameReceive port req s
  | .ueLinkDown port => Sys2Proof.Machine.execUeLinkDown port s
  | .linkTrain rates width => Sys2Proof.Machine.execLinkTrain rates width s
  | .resetBoot image => Sys2Proof.Machine.execResetBoot image s
  | .thermalWarning die temp => Sys2Proof.Machine.execThermalWarning die temp s
  | .dieClockStep die temp => Sys2Proof.Machine.execDieClockStep die temp s
  | .thermalTrip reading => Sys2Proof.Machine.execThermalTrip reading s
  | .refreshTierChange stack temp => Sys2Proof.Machine.execRefreshTierChange stack temp s
  | .governorPeriod power => Sys2Proof.Machine.execGovernorPeriod power s
  | .setPowerCap watts => Sys2Proof.Machine.execSetPowerCap watts s
  | .setBallastSetpoint watts => Sys2Proof.Machine.execSetBallastSetpoint watts s
  | .checkpoint => Sys2Proof.Machine.execCheckpoint s
  | .checkpointComplete => Sys2Proof.Machine.execCheckpointComplete s
  | .haltHerd lid t => Sys2Proof.Machine.execHaltHerd lid t s
  | .dbgStep lid t => Sys2Proof.Machine.execDbgStep lid t s
  | .dump lid t => Sys2Proof.Machine.execDump lid t s
  | .dtimePassed t => Sys2Proof.Machine.execDtimePassed t s
  | .hostGloballyObservedAck k => Sys2Proof.Machine.execHostGloballyObservedAck k s
  | .tableWalkComplete die asid va => Sys2Proof.Machine.execTableWalkComplete die asid va s
  | .debuggerAttach lid => Sys2Proof.Machine.execDebuggerAttach lid s
  | .systemSoftwareKill lid => Sys2Proof.Machine.execSystemSoftwareKill lid s
  | .addressSpaceCreate vi asid root lease => Sys2Proof.Machine.execAddressSpaceCreate vi asid root lease s
  | .addressSpaceDestroy asid => Sys2Proof.Machine.execAddressSpaceDestroy asid s
  | .virtualInterfaceCreate vi asidQuota memQuota weight pcs => Sys2Proof.Machine.execVirtualInterfaceCreate vi asidQuota memQuota weight pcs s
  | .queuePairBind vi q ctrl nsid lbaSize => Sys2Proof.Machine.execQueuePairBind vi q ctrl nsid lbaSize s
  | .launchQueueSetup vi queue base log2 => Sys2Proof.Machine.execLaunchQueueSetup vi queue base log2 s
  | .rangeRegister asid base pages => Sys2Proof.Machine.execRangeRegister asid base pages s
  | .setAdmissionWeight vi weight => Sys2Proof.Machine.execSetAdmissionWeight vi weight s
  | .firewallRangeGrant vi base units => Sys2Proof.Machine.execFirewallRangeGrant vi base units s
  | .peerTransfer port pa what => Sys2Proof.Machine.execPeerTransfer port pa what s
  | .recoveryLoad port image => Sys2Proof.Machine.execRecoveryLoad port image s

end Sys2Proof.Machine
end

