-- ==== Sys2Proof/Machine/Load.lean ====
section
/-! DEFINITION. A machine into which one packet has been loaded from outside (log 13). -/

namespace Sys2Proof.Machine

/-- The virtual address of the loaded packet. -/
def loadVa : Nat := 0x10000

/-- Page tables of one executable page and the packet in it, written to physical memory (R112, R113). -/
def loadMemory (m : List Host.Cell) (p : Packet) : List Host.Cell :=
  let put := fun (m : List Host.Cell) (pa : Nat) (bs : List Byte) => Memory.writeN m (cellOf pa false) bs
  put (put (put (put m 0x10000 (leBytes 8 0x20001)) 0x20000 (leBytes 8 0x30001)) 0x30008 (leBytes 8 0x4080b))
    0x40000 (packetBytes p)

/-- A launch of one thread whose crew core 0 has admitted. -/
def loadedLaunch : Launch :=
  { asid := 1, entry := BitVec.ofNat 64 (loadVa + 4), count := 1, phase := .running, nthr := 1, nextTid := 1 }

/-- The crew of that launch: its one thread stands at slot A of the packet. -/
def loadedCrew : Crew :=
  { core := some 0, admitSeq := some 0
    threads := { state := .ready, pc := BitVec.ofNat 64 (loadVa + 4) } :: List.replicate 31 {} }

/-- The machine with the packet loaded and nothing else to do: the packet's instruction in slot A is the next that issues. -/
def State.load (s : State) (p : Packet) : State :=
  { s with
    boot := .running, tripped := false, mem := loadMemory s.mem p, owned := [], flights := [], hostPending := []
    cores := [(0, { icache := [(1, loadVa)] })], crews := [(0, loadedCrew)], nextCrew := 1, nextSeq := 1, clusters := [], dies := [], pchs := [], cmds := []
    launches := [(0, loadedLaunch)], nextLaunch := 1, aspaces := [(1, { root := 0x10000 })]
    vis := [(0, { granted := [(0, 2 ^ 22)] })], traps := []
    reservations := [], ueFlights := [], acks := [], held := [], ckpt := .idle, turn := 0, inbox := [] }

end Sys2Proof.Machine
end

