-- ==== Sys2Proof/Machine/Step.lean ====
section
/-! DEFINITION. One step of the module: an event that the environment makes happen, an event of the machine's own, the
oldest entry of one reorder buffer, an entry that executes before it is the oldest, or one instruction of one issue group (log 1, log 2). -/

namespace Sys2Proof.Machine

/-- A constructor that is an event, neither an instruction nor a microprogram operation. -/
def isEvent (i : Instr) : Bool := !i.encodable && !i.isMicro

/-- The chosen group fetches its instruction and issues it (R59, R65, R77). -/
def stepIssue (s : State) (n : Nat) (g : Group) : Host.Outcome State Fault Refusal :=
  match s.target n (s.asidOf g.crew) g.pc with
  | .error (cause, va) => exec (.takeTrap cause va) { s with cur := { crew := g.crew, mask := g.mask, pc := g.pc } }
  | .ok p =>
    match p.fetch (slotIdx g.pc) with
    | .error r => .refused (.illegalEncoding r)
    | .ok i =>
      exec i.instr { s.holdFetch n (s.asidOf g.crew) g.pc with
        cur := ⟨g.crew, g.mask, g.pc, i.guard, i.lu, i.wide, i.instr, false, none, g.pays⟩ }

/-- The oldest entry of a crew's reorder buffer executes (R59, R60). -/
def stepHead (s : State) (n crew : Nat) : Host.Outcome State Fault Refusal :=
  let k := s.core n
  let s : State := { s.setCore n { k with tried := crew :: k.tried } with turn := n }
  match (s.crew crew).rob with
  | [] => .next s
  | e :: _ => exec e.issue.instr { s with cur := { e.issue with entry := true } }

/-- An entry behind the oldest one executes, or draws a register for its result (R56, R59). -/
def stepEarly (s : State) (n : Nat) (e : Nat × Nat) : Host.Outcome State Fault Refusal :=
  match (s.crew e.1).rob[e.2]? with
  | none => .next s
  | some y => exec y.issue.instr { s with cur := { y.issue with early := some e.2 }, turn := n }

/-- One step. -/
def step (s : State) : Host.Outcome State Fault Refusal :=
  match s.inbox with
  | e :: rest =>
    if isEvent e && s.lets e then exec e { s with inbox := rest }
    else if s.tripped then .fault .thermalTrip
    else .next { s with inbox := rest }
  | [] =>
    if s.tripped then .fault .thermalTrip
    else
      match s.agenda with
      | some (e, p) => exec e { s with nmCur := p }
      | none =>
        match s.nextCore with
        | none => .next s.round
        | some n =>
          match s.nextHead n with
          | some k => stepHead s n k
          | none =>
            match s.nextEarly n with
            | some e => stepEarly s n e
            | none =>
              match s.best n with
              | none => .next (s.tick n)
              | some g => stepIssue (s.charge n g) n g

/-- The machine with an instruction whose bits are w placed where the next step fetches. -/
def State.withFetchWord (s : State) (_nbits w : Nat) : State := s.load (tablePacket w)

end Sys2Proof.Machine
end

