-- ==== Sys2Proof/Safety.lean ====
section
/-! DEFINITION. The notions in which the statements about the machine are written: the lanes of an issuing instruction and when it can
execute at once, what its retirement leaves (R45, R47 to R52, R60), and what every step keeps. -/

namespace Sys2Proof.Machine

/-! ### The issuing group -/

/-- The set G of the issue group (R47, R263): its lanes whose guard is true. -/
def State.active (s : State) : Mask := s.curCrew.guarded s.cur

/-- A lane is in G. -/
def State.inG (s : State) (l : Nat) : Bool := s.active.getLsbD l

/-- A lane is in the issue group. -/
def State.inGroup (s : State) (l : Nat) : Bool := s.cur.mask.getLsbD l

/-- The value of a register in a lane of the issuing crew (R44, R52). -/
def State.val (s : State) (r : Reg) (l : Nat) : Word := s.curCrew.rd r.toNat l

/-- The value of a pair in a lane of the issuing crew (R5, R46). -/
def State.val2 (s : State) (r : Reg) (l : Nat) : Dword := s.curCrew.rd2 r.toNat l

/-- The thread of a lane of the issuing crew. -/
def State.thrAt (s : State) (l : Nat) : Thread := s.curCrew.thr l

/-- The floating-point mode of a lane under a rounding code (R90, R91). -/
def State.mode (s : State) (l : Nat) (r : BitVec 3) : FCtx := fctx (s.thrAt l).fcw r.toNat false

/-- The issue group stands on its core: its crew is resident, and its lanes, which exist, are READY (R18, R19). -/
def State.standing (s : State) : Bool :=
  s.curCrew.core == some s.curCrew.lastCore && !s.curCrew.gone && s.cur.mask != 0 &&
  laneList.all fun l => !s.inGroup l || (s.thrAt l).state == .ready

/-- The instruction is the oldest unretired entry of its crew and has not executed yet (R59 to R61), or it issues with no entry before it and keeps
its port (R225). -/
def State.atHead (s : State) (o : Operands) : Bool :=
  s.cur.early.isNone && s.headResult.isNone &&
  (s.cur.entry || (!((o.banks s.curCrew).any (s.core s.curCrew.lastCore).clash.contains) && s.curCrew.rob.isEmpty))

/-- The instruction is the oldest of its crew, no lane of G waits for a future among its sources (R148), and no register that it names
lies in a spill slot (R58). -/
def State.unblocked (s : State) (o : Operands) : Bool :=
  s.standing && s.atHead o &&
  (o.peek || laneList.all fun l => !s.inG l || !((o.srcsAt l).any fun r => (s.curCrew.lane r (o.laneOf l)).pend)) &&
  (s.active == 0 || (o.srcs ++ o.lanes.flatten ++ o.dst).all fun r => match s.curCrew.reg r with
    | some q => !q.spilled
    | none => true)

/-- A lane of G whose sources can be read: none is poisoned (R123) and, under the debug option, none released (R52). -/
def State.readable (s : State) (o : Operands) (l : Nat) : Bool :=
  (s.curCrew.readTrap (s.curLaunch.control.getLsbD 7) (o.srcsAt l) (o.laneOf l)).isNone

/-- Every lane of G can read its sources, and nothing stands in the way of the instruction's execution. -/
def State.poised (s : State) (o : Operands) : Bool :=
  s.unblocked o && laneList.all fun l => !s.inG l || s.readable o l

/-- The crew may allocate the registers that the instruction writes, of which an entry may have drawn some (R49, R56). -/
def State.room (s : State) (o : Operands) : Bool := s.active == 0 || s.mayAllocate s.cur.crew (o.allocs - s.drawn.length)

/-- A lane of G reads a released register, which reads as 0 (R52, R53). -/
def State.readsDead (s : State) (o : Operands) (l : Nat) : Bool := s.inG l && o.readsIn l && s.curCrew.readsReleased (o.srcsAt l) l

/-! ### The registers that an instruction names -/

/-- The operands of every instruction (R70, R263): its sources in their last-use positions, those that have none, and its destinations. Those of
BPUT and BTAKE depend on the bags that the lanes name (R282). -/
def operandsOf (i : Instr) (s : State) : Operands :=
  let group := fun (o : Operands) => ({ o with only := some (leaderOf s.active) } : Operands)
  match i with
  | .add d a b .. | .addc d a b .. | .sub d a b .. | .subb d a b .. | .mul d a b | .mulh d a b _ | .div d a b _ | .rem d a b _
  | .min d a b _ | .max d a b _ | .and d a b | .or d a b | .xor d a b | .andn d a b | .shl d a b | .shr d a b | .sar d a b | .rot d a b
  | .bfx d a b _ | .sel d a b .. | .clmul d a b _ | .fadd d a b _ | .fsub d a b _ | .fmul d a b _ | .fmin d a b | .fmax d a b
  | .h2add d a b .. | .h2mul d a b .. | .h2min d a b _ | .h2max d a b _ | .shfl d a b .. => opsRR d a b
  | .addI d a _ | .mulI d a _ | .minI d a _ | .maxI d a _ | .andI d a _ | .orI d a _ | .xorI d a _ | .shlI d a _ | .shrI d a _
  | .sarI d a _ | .rotI d a _ | .abs d a | .clz d a | .popc d a | .brev d a | .mov d a | .fclass d a | .frcp d a _ | .frsq d a _
  | .fsqrt d a _ | .fexp2 d a _ | .flog2 d a _ | .cvt d a .. | .vote d a _ | .scan d a .. => opsR d a
  | .mad d a b c | .bfi d a b c | .perm d a b c | .dq4 d a b c => opsRRR d a b c
  | .ffma d a b _ | .dot4 d a b .. | .h2fma d a b .. => opsAcc d a b
  | .cmp _ a b | .fcmp _ a b => { a := [a.toNat], b := [b.toNat] }
  | .cmpI _ a _ | .swrite a _ => { a := [a.toNat] }
  | .cmp64 _ a b => { a := pairRegs a, b := pairRegs b }
  | .add64 d a b .. => { a := pairRegs a, b := pairRegs b, dst := pairRegs d }
  | .lea d a b .. => { a := pairRegs a, b := [b.toNat], dst := pairRegs d }
  | .movi d k _ => { dst := moviRegs d k }
  | .topk v a x _ => { a := [a.toNat], dst := [v.toNat, x.toNat] }
  | .ld d a b z p _ | .ldWide d a b z p .. | .lda d a b z p _ | .ldnc d a b z p _ => opsLoad d a b z p
  | .st d a b z p | .stWide d a b z p _ | .strel d a b z p | .stnc d a b z p => opsStore d a b z p
  | .atom d a b o sg p => opsAtom d a b o sg p
  | .call _ => { dst := [62, 63] }
  | .jmp a | .ret a | .fwall a => { a := pairRegs a }
  | .bar _ | .bara _ => { visible := true }
  | .spawn a n .. => { a := (List.range n.toNat).map fun i => a.toNat + i, visible := true }
  | .regroup a .. | .ctset _ a | .ctadd _ a => { a := [a.toNat], visible := true }
  | .fwait d a _ => { a := [a.toNat], dst := [d.toNat] }
  | .ftest d a => { a := [a.toNat], dst := [d.toNat], peek := true }
  | .fcancel a => { a := [a.toNat], peek := true }
  | .fwany d a | .ffirst d a => { a := pairRegs a, dst := [d.toNat] }
  | .copy d a b dir .. => opsCopy d a b dir
  | .fetch d a _ | .launch d a | .nmarm d a | .nmrun d a | .nmdisarm d a => opsFuture d (pairRegs a) []
  | .nmload d a b _ => opsFuture d (pairRegs a) [b.toNat]
  | .copys d a b _ | .mma d a b .. | .mdrain d a b .. | .mzero d a b => group (opsFuture d [a.toNat] [b.toNat])
  | .bput d a b .. => { a := pairRegs a, b := [b.toNat], lanes := laneList.map (s.putRegs d a), visible := true }
  | .btake d a b .. => { a := pairRegs a, b := [b.toNat], dst := s.takeRegs d a, visible := true }
  | .bdrain d a b c => { opsFuture d (pairRegs a) [b.toNat] with c := [c.toNat] }
  | .bscan d a b c => { a := pairRegs a, b := [b.toNat], c := [c.toNat], dst := quadRegs d, visible := true }
  | .bcount d a => { a := pairRegs a, dst := [d.toNat], visible := true }
  | .binfo d a b => { a := pairRegs a, b := [b.toNat], dst := [d.toNat], visible := true }
  | .scall d a _ => opsFuture d (quadRegs a) []
  | .tret => { more := [60, 61], dst := [60, 61, 62, 63] }
  | .sread d x => { dst := if sreadPair x.toNat then pairRegs d else [d.toNat] }
  | _ => {}

/-! ### What retirement leaves -/

/-- The lane that an effect writes to a register: w0 takes none (R44). -/
def Operands.lane (o : Operands) (e : Eff) (r : Nat) : Option Lane :=
  if r = 0 then none else ((o.dst.zip e.w).reverse.find? fun p => p.1 == r).map (·.2)

/-- The registers that last-use marks release in a lane that retires (R51, R183). -/
def Operands.ends (o : Operands) (lu : BitVec 3) (e : Eff) (l : Nat) : List Nat :=
  if e.trap.isSome then [] else o.released lu ++ o.releasedAt lu l

/-- The address of the next instruction in program order (R65, R67, R68). -/
def State.nextPc (s : State) : Dword := seqPc s.cur.pc s.cur.wide

/-- The thread of a lane of the issue group after its instruction. A lane that takes a trap is TRAPPED with its cause word, TRAPPC,
next instruction and TRAPVA recorded (R63, R230), and RELEASED_READ leaves RLSD set (R53). For any other, only its flags, FSTAT, TSTAT and program counter change, and what
the effect puts in the thread's place (R45, R60, R93); one that has issued nothing behind the instruction enters READY. -/
def threadAfter (s : State) (t : Thread) (e : Eff) (dead : Bool) : Thread :=
  match e.trap with
  | some (cause, va) =>
    { t with
      state := .trapped, trap := some ⟨cause, s.cur.pc, s.nextPc, va⟩
      tstat := if e.trap = some (causeReleased, 0) ∧ dead = true then t.tstat ||| 1 else t.tstat }
  | none =>
    let u := e.thr.getD t
    let u := { u with
      cc := match e.cc with
        | none => u.cc
        | some (n, f) => setAt 4 {} u.cc n.toNat f
      fstat := u.fstat ||| BitVec.ofNat 32 e.fl
      tstat := if dead then u.tstat ||| 1 else u.tstat
      pc := match e.pc with
        | .seq => s.nextPc
        | .to a => a
        | .kept => u.pc }
    if s.cur.fresh then { u with readySince := s.cycleOf s.cur.crew, fence := none, got := none, waitG := 0, passBar := false } else u

/-- Some lane of G takes a trap. -/
def State.traps1 (s : State) (eff : Nat → Eff) : Bool := laneList.any fun l => s.inG l && (eff l).trap.isSome

/-- The entries of a crew behind an instruction that retires. -/
def Crew.behind (c : Crew) (i : Issue) : List RobEntry := if i.entry then c.rob.tail else c.rob

/-- A lane whose unretired entries a trap squashes: it resumes from its own program counter, so that it waits for no future any more that it met
behind them (R63). -/
def State.resumes (s b : State) (eff : Nat → Eff) (l : Nat) : Bool :=
  s.traps1 eff && ((b.crew s.cur.crew).behind s.cur).any fun e => e.issue.mask.getLsbD l

/-- The record that a lane's trap sends to the resident service (R230). -/
def trapOf (s b : State) (eff : Nat → Eff) (l : Nat) : Option TrapRec :=
  match if s.inG l then (eff l).trap else none with
  | none => none
  | some (cause, va) =>
    let c := b.crew s.cur.crew
    some { name := b.nameOf c.launch (c.thr l).tid, launch := c.launch, tid := (c.thr l).tid, crew := s.cur.crew, num := c.num, core := c.lastCore, lane := l
           info := ⟨cause, s.cur.pc, s.nextPc, va⟩, dtime := b.dtime, vi := (b.launch c.launch).vi
           asid := (b.launch c.launch).asid }

/-- An instruction of the group of s, whose execution has left the state b, retires with an effect in each lane of G, or traps in it,
and leaves t. The destinations hold what the effects write; every other register reads as before, or as 0 where a last-use mark
releases it; the lanes outside G only go on (R47); the lanes outside the group, the rest of the crew but its reorder buffer and its counts of R260 and R261,
every other crew, memory, the core but its pool, its ports and bank conflicts of the cycle and the completion slots that the reads freed (R148),
its launch's window, and all the rest of the state are as the execution left them. A trap squashes the entries behind the instruction (R63). -/
structure Retires (s b t : State) (o : Operands) (eff : Nat → Eff) : Prop where
  written : ∀ r l x, r < 64 → l < 32 → s.inG l = true → (eff l).trap = none → o.lane (eff l) r = some x →
    (t.crew s.cur.crew).lane r l = x
  others : ∀ r l, r < 64 → l < 32 → (s.inG l = true → (eff l).trap = none → o.lane (eff l) r = none) →
    (t.crew s.cur.crew).rd r l =
      if s.inG l && (o.ends s.cur.lu (eff l) l).contains r then 0 else (b.crew s.cur.crew).rd r l
  threads : ∀ l, l < 32 → (t.crew s.cur.crew).thr l =
    let x := if s.inGroup l then
      threadAfter s ((b.crew s.cur.crew).thr l) (if s.inG l then eff l else {}) (s.readsDead o l)
    else (b.crew s.cur.crew).thr l
    if s.resumes b eff l = true ∧ x.state = .future then x.wake (s.cycleOf s.cur.crew) else x
  rob : (t.crew s.cur.crew).rob = if s.traps1 eff then [] else (b.crew s.cur.crew).behind s.cur
  crews : ∀ k, k ≠ s.cur.crew → t.crew k = b.crew k
  cores : ∀ n, n ≠ s.curCore → t.core n = b.core n
  crew : t.crew s.cur.crew = { b.crew s.cur.crew with
    threads := (t.crew s.cur.crew).threads, map := (t.crew s.cur.crew).map, issued := (t.crew s.cur.crew).issued
    rob := (t.crew s.cur.crew).rob, retired := (t.crew s.cur.crew).retired, visible := (t.crew s.cur.crew).visible }
  core : t.core s.curCore = { b.core s.curCore with
    slots := (t.core s.curCore).slots, poolIdle := (t.core s.curCore).poolIdle
    windows := (t.core s.curCore).windows, clash := (t.core s.curCore).clash
    counted := (t.core s.curCore).counted, portUse := (t.core s.curCore).portUse }
  slots : ∀ k, k < 64 → (t.core s.curCore).slot k = (b.core s.curCore).slot k ∨
    (∃ w, (b.core s.curCore).slot k = .held w) ∧ (t.core s.curCore).slot k = .free
  window : (t.core s.curCore).window s.curCrew.launch = (b.core s.curCore).window s.curCrew.launch
  traps : t.traps = b.traps ++ laneList.filterMap (trapOf s b eff)
  rest : t = { b with crews := t.crews, cores := t.cores, traps := t.traps }

/-- The instruction waits at the head of its crew's reorder buffer, for a reason of R260, and has had no effect (R56, R59, R61): one that has
just issued is the crew's youngest entry now, and has used its port and the banks of its sources; one that was the oldest entry stays it. One that
waits to allocate draws what it can of the registers that it lacks. -/
structure Waits (s t : State) (o : Operands) (why : Nat) : Prop where
  rob : ∃ more : List Nat, (why ≠ 0 → more = []) ∧ more.length ≤ o.allocs - s.drawn.length ∧ t.curCrew.rob =
    if s.cur.entry then
      match s.curCrew.rob with
      | [] => []
      | e :: es => { e with why := some why, since := if e.why = some why then e.since else s.cycleOf s.cur.crew, banks := e.banks ++ more } :: es
    else s.curCrew.rob ++ [{ s.cur.entryOf o (some why) (s.cycleOf s.cur.crew) with banks := more }]
  threads : ∀ l, l < 32 → t.thrAt l =
    if s.cur.entry = false ∧ s.inGroup l = true then { s.thrAt l with readySince := s.cycleOf s.cur.crew } else s.thrAt l
  crew : t.curCrew = { s.curCrew with
    threads := t.curCrew.threads, rob := t.curCrew.rob, issued := s.curCrew.issued + (if s.cur.entry then 0 else 1) }
  crews : ∀ k, k ≠ s.cur.crew → t.crew k = s.crew k
  cores : ∀ n, n ≠ s.curCore → t.core n = s.core n
  core : t.core s.curCore = { s.core s.curCore with
    clash := (if s.cur.entry then [] else o.banks s.curCrew) ++ (s.core s.curCore).clash
    poolIdle := (t.core s.curCore).poolIdle, counted := (t.core s.curCore).counted, portUse := (t.core s.curCore).portUse }
  rest : t = { s with crews := t.crews, cores := t.cores }

/-- Some lane of G has a result to write. -/
def State.writes (s : State) (eff : Nat → Eff) : Prop := ∃ l, l < 32 ∧ s.inG l = true ∧ (eff l).trap = none ∧ (eff l).w ≠ []

/-- An instruction that only computes: from every state in which it can execute at once, exec answers the state that its retirement
with these effects leaves, and nothing but registers, flags, FSTAT and program counters of its lanes has changed, except for the
lanes whose effect is a trap. One whose results cannot allocate waits (R56). -/
def Computes (i : Instr) (o : Operands) (eff : State → Nat → Eff) : Prop :=
  ∀ s : State, s.poised o = true →
    (s.room o = true → ∃ t, exec i s = .next t ∧ Retires s s t o (eff s)) ∧
    (s.room o = false → s.writes (eff s) → ∃ t, exec i s = .next t ∧ Waits s t o 0)

/-- An instruction whose execution leaves the state b before it retires: from every state in which it can execute at once and in which
more holds, exec answers the state that its retirement with these effects leaves. With G empty nothing is executed (R263). One whose
results cannot allocate waits (R56). -/
def Executes (i : Instr) (o : Operands) (more : State → Prop) (b : State → State) (eff : State → Nat → Eff) : Prop :=
  ∀ s : State, s.poised o = true → more s →
    (s.room o = true → ∃ t, exec i s = .next t ∧ Retires s (if s.active = 0 then s else b s) t o (eff s)) ∧
    ((b s).mayAllocate s.cur.crew (o.allocs - s.drawn.length) = false → s.writes (eff s) → ∃ t, exec i s = .next t ∧ Waits s t o 0)

/-- An instruction whose lanes of G act on the state one after the other, in ascending order (R140): from every state in which it can
execute at once and in which more holds, none of them has to wait, and exec answers the state that the retirement leaves. One whose results
cannot allocate waits, and its lanes have not acted (R56). -/
def LanesAct (i : Instr) (o : State → Operands) (more : State → Prop) (f : State → Nat → Option (State × Eff)) : Prop :=
  ∀ s : State, s.poised (o s) = true → more s →
    ∃ b es, s.eachLane f (lanesOf s.active) = some (b, es) ∧
      (s.room (o s) = true → ∃ t, exec i s = .next t ∧ Retires s b t (o s) fun l => tget {} es l) ∧
      (b.mayAllocate s.cur.crew ((o s).allocs - s.drawn.length) = false → s.writes (fun l => tget {} es l) → ∃ t, exec i s = .next t ∧ Waits s t (o s) 0)

/-- An instruction that issues one engine command per lane of G (R142, R146, R149): with the send rule met and enough free slots, the
lanes that do not trap issue their commands, and exec answers the state that the retirement leaves. While the send rule is not met, what the
instruction reads itself in a lane cannot be served (R209), or slots or registers are lacking, it waits (R56, R142, R149). -/
def IssuesPerLane (i : Instr) (o : Operands) (served : State → Nat → Bool) (mk : State → Nat → LaneCmd) : Prop :=
  ∀ s : State, s.poised o = true →
    let free := (s.core s.curCore).freeSlots
    let sent := s.sent (lanesOf s.active) = true
    let at_ := ∀ l, s.inG l = true → served s l = true
    let room := (lanesOf s.active).countP (fun l => (mk s l).issues) ≤ free.length
    let ready := sent ∧ at_ ∧ room
    let r := s.laneCommands (mk s) (lanesOf s.active) free
    (ready → s.room o = true → ∃ t, exec i s = .next t ∧ Retires s r.1 t o fun l => tget {} r.2 l) ∧
    (ready → s.room o = false → s.writes (fun l => tget {} r.2 l) → ∃ t, exec i s = .next t ∧ Waits s t o 0) ∧
    (¬ sent ∨ at_ ∧ ¬ room → ∃ t, exec i s = .next t ∧ Waits s t o 16) ∧
    (sent → ¬ at_ → ∃ t, exec i s = .next t ∧ Waits s t o 4)

/-- An instruction that issues one engine command for its group (R146, R161), with what its leader lane asks for, in which alone it reads its
sources: a trap in every lane of G; or, with room in the command's queue and a free slot, the command, whose slot is bound in every lane of G.
While the send rule is not met, or room, a slot or a register is lacking, it waits (R56, R142, R149, R166, R168). -/
def IssuesForGroup (i : Instr) (o : Operands) (mk : State → Nat → LaneCmd) (full : State → CmdKind → Bool) : Prop :=
  ∀ s : State,
    let o : Operands := { o with only := some (leaderOf s.active) }
    s.poised o = true → s.active ≠ 0 →
    (s.sent (lanesOf s.active) = false → ∃ t, exec i s = .next t ∧ Waits s t o 16) ∧
    (s.sent (lanesOf s.active) = true →
      match mk s (leaderOf s.active) with
      | .trap c va => ∃ t, exec i s = .next t ∧ Retires s s t o fun _ => trapped c va
      | .cmd kind phase bad dst =>
        (phase = .queued → full s kind = true → ∃ t, exec i s = .next t ∧ Waits s t o 9) ∧
        ((phase = .queued → full s kind = false) →
          ((s.core s.curCore).freeSlots = [] → ∃ t, exec i s = .next t ∧ Waits s t o 16) ∧
          ∀ k ks, (s.core s.curCore).freeSlots = k :: ks →
            let b := s.accept s.curCore k s.curCrew.launch s.curLaunch.asid (s.thrAt (leaderOf s.active)).tid kind phase bad
            (s.room o = true → ∃ t, exec i s = .next t ∧
              Retires s (b.own s.nextCmd s.curCore s.curLaunch.asid dst) t o fun _ => { w := [future k] }) ∧
            (s.room o = false → ∃ t, exec i s = .next t ∧ Waits s t o 0)))

/-- The checks of an instruction stand in an order, each with its outcome: the first that applies decides, and the last outcome is that of none. -/
def Decides {α : Type} (x : α) : List (Prop × α) → α → Prop
  | [], z => x = z
  | (p, y) :: rest, z => (p → x = y) ∧ (¬ p → Decides x rest z)

/-- The command is accepted and completes REFUSED at once (R161, R293). -/
def refusedAtOnce (kind : CmdKind) : LaneCmd := .cmd kind (.written 0 (stRefused 0)) [] []

/-- The bytes of an element of a tile (R160). -/
def Shape.bytes (h : Shape) : Nat := [4, 2, 2, 1, 1, 1, 1, 4].getD h.format 1

/-- What R160 asks of a record, but for the limits of its command. -/
def Shape.proper (h : Shape) : Prop :=
  h.clean = true ∧ h.elemStride ≠ 0 ∧ h.elemStride % h.bytes = 0 ∧
  ∀ r c, r < h.rows → c < h.cols → h.off r c % h.bytes = 0

/-- The first element of a tile that does not lie in the scratch window (R108, R161). -/
def Window.firstOut (w : Window) (h : Shape) : Option (Nat × Nat) :=
  h.elems.find? fun e => decide (h.off e.1 e.2 < 0 ∨ (w.banks * 65536 : Nat) < h.off e.1 e.2 + h.bytes)

/-- The trap of that element, with the low 32 bits of its offset in TRAPVA (R108). -/
def Window.outTrap (w : Window) (h : Shape) : LaneCmd :=
  .trap causeScratch (((w.firstOut h).map fun e => BitVec.ofNat 64 (h.off e.1 e.2 % 2 ^ 32).toNat).getD 0)

/-- No store is on its way, no engine owns a cell and no near-memory run computes, so that no access of a lane has to wait (R131, R142,
R209). -/
def State.quietMemory (s : State) : Prop := s.flights = [] ∧ s.owned = [] ∧ ∀ n, (s.pch n).computing = false

/-- Every lane of G has passed the wait of a fence (R133): 0 core, 1 device, 2 system. -/
def State.fencedAll (s : State) (kind : Nat) : Prop := ∀ l, s.inG l = true → s.fenced kind s.cur.crew l = true

/-- A valid page-table entry of a level is malformed (R113): a reserved bit; a LEAF bit wrong for its level; bits 10:1 of a table's entry; W without R
or X with W; a 512 MiB page that is not aligned or is bank-linear; an unbacked frame; a home stack that is not the frame's; or, in host memory, a home
stack or the bank-linear layout. -/
def PteBad (level : Nat) (e : Dword) : Prop :=
  let bit := fun (n : Nat) => e.getLsbD n = true
  let frame := (e.extractLsb' 16 30).toNat
  let hs := (e.extractLsb' 8 3).toNat
  (∃ n, ((12 ≤ n ∧ n ≤ 15) ∨ (46 ≤ n ∧ n ≤ 63)) ∧ bit n) ∨ (level = 1 ∧ bit 11) ∨ (level = 3 ∧ ¬ bit 11) ∨
  (¬ bit 11 ∧ ∃ n, 1 ≤ n ∧ n ≤ 10 ∧ bit n) ∨ (bit 11 ∧ ((bit 2 ∧ ¬ bit 1) ∨ (bit 3 ∧ bit 2))) ∨
  (bit 11 ∧ level = 2 ∧ (frame % 2 ^ 13 ≠ 0 ∨ bit 7)) ∨ (2 ^ 23 ≤ frame ∧ frame < 2 ^ 29) ∨
  (bit 11 ∧ frame < 2 ^ 23 ∧ hs ≠ frame / 2 ^ 20) ∨ (bit 11 ∧ 2 ^ 29 ≤ frame ∧ (hs ≠ 0 ∨ bit 7))

/-- Crew numbers lie below the next one to be given, in the table and in the admission queues. -/
def State.numbered (s : State) : Prop :=
  (∀ e ∈ s.crews, e.1 < s.nextCrew) ∧ ∀ c ∈ s.clusters, ∀ k ∈ c.2.queue, k < s.nextCrew

/-- The slot A of a packet that a signed number of packets names, counted from the packet of the instruction (R41, R67). -/
def State.packetsOn (s : State) (o : BitVec 24) : Dword := (s.cur.pc &&& ~~~ 15) + BitVec.ofInt 64 (16 * o.toInt) + 4

/-- The unit of State.nmCur computes, does not pause for a refresh, and its last step is over (R203, R212). -/
def State.unitReady (s : State) : Prop :=
  (s.pch s.nmCur).computing = true ∧ (s.pch s.nmCur).resumeAt = none ∧ (s.pch s.nmCur).ready s.dtime = true

/-- The time at which a unit's operation is over, in half nanoseconds, whose steps so far were those of p and are now those of q: 2.5 ns
a step at divider 1, and 12 ns more for a step on a repaired row (R203). -/
def State.dueAfter (s : State) (p q : Pch) : Nat :=
  max p.due (2 * s.dtime) + 5 * (s.stackAt (s.nmCur / 64)).divider * (q.steps - p.steps) + 24 * (q.slow - p.slow)

/-- A unit after the service of normal accesses that follows 64 steps (R209): where one waits, its row is closed and it stands still until DTIME
has moved on. The length of that pause is the model's choice (log 78). -/
def State.afterSteps (s : State) (p : Pch) : Pch :=
  if p.ended = true ∨ p.steps < p.served + 64 then p
  else if s.queuedAt s.nmCur then
    { p with served := p.steps, openRow := none, resumeAt := some (max s.dtime ((p.due + 1) / 2) + 1) }
  else { p with served := p.steps }

/-- A microprogram operation that works on the controller and the bank units alone takes one step, goes on at the next word, and changes
nothing else (R201, R203, R209). -/
def UnitStep (i : Instr) (f : NmBlock → Pch → Pch) : Prop :=
  ∀ s : State, s.unitReady → (s.pch s.nmCur).fault = false →
    ∃ t, exec i s = .next t ∧ t = { s with pchs := t.pchs } ∧ (∀ n, n ≠ s.nmCur → t.pch n = s.pch n) ∧
      let p := s.pch s.nmCur
      let q : Pch := { f (s.runOf p).2 p with
        mpc := p.mpc + 1, steps := p.steps + 1
        due := max p.due (2 * s.dtime) + 5 * (s.stackAt (s.nmCur / 64)).divider }
      t.pch s.nmCur = (s.setPch s.nmCur q).afterSteps q

/-- What a unit's accesses to memory may change (R121, R129, R197): the unit itself, those of its command where one of them fails, which write
nothing more, DRAM and its poison, the marks of R129, the last writes of
R141, the entries that its die's TLB holds, and what the repair of a page takes. After 64 steps the unit stands still where a normal access may wait,
until DTIME has moved on (R209, log 78). -/
structure UnitTouches (s t : State) : Prop where
  rest : t = { s with
    mem := t.mem, bad := t.bad, cores := t.cores, pchs := t.pchs, fresh := t.fresh, lastWrite := t.lastWrite
    dies := t.dies, vis := t.vis, frames := t.frames, owned := t.owned }
  cores : ∀ k, t.core k = { s.core k with l1 := (t.core k).l1 }
  dies : ∀ k, t.die k = { s.die k with tlb := (t.die k).tlb }
  others : ∀ k, k ≠ s.nmCur → t.pch k =
    if (t.pch s.nmCur).fault = true ∧ k < 512 ∧ (s.pch s.nmCur).run.isSome = true ∧ (s.pch k).run = (s.pch s.nmCur).run ∧ (s.pch k).ended = false
    then { s.pch k with fault := true, pend := [], mpc := 64 } else s.pch k
  next : (t.pch s.nmCur).fault = false → (t.pch s.nmCur).mpc = (s.pch s.nmCur).mpc + 1
  failed : (t.pch s.nmCur).fault = true → (t.pch s.nmCur).mpc = 64 ∧ (t.pch s.nmCur).pend = []
  due : (t.pch s.nmCur).due = s.dueAfter (s.pch s.nmCur) (t.pch s.nmCur)
  pause : ∃ row,
    let p := s.pch s.nmCur
    let q := t.pch s.nmCur
    let served := p.served + 64 ≤ q.steps ∧ q.ended = false
    let waits := served ∧ (t.setPch s.nmCur { q with served := p.served, openRow := row, resumeAt := none }).queuedAt s.nmCur = true
    (waits → q.openRow = none ∧ q.resumeAt = some (max s.dtime ((q.due + 1) / 2) + 1)) ∧
    (¬ waits → q.openRow = row ∧ q.resumeAt = none) ∧ (served → q.served = q.steps) ∧ (¬ served → q.served = p.served)

/-! ### Waiting, barriers and bins -/

/-- No lane of the issue group stands before a BAR at which a debugger's step stops it (R257). -/
def State.notStepped (s : State) : Prop :=
  s.cur.entry = true ∨ s.curCrew.stepping = none ∨ ∀ l, l < 32 → s.inGroup l = true → (s.thrAt l).passBar = true

/-- The lanes of G that read a pending future among the sources of an instruction (R148). -/
def State.pendingMask (s : State) (o : Operands) : Mask :=
  maskOf fun l => s.inG l && (o.srcsAt l).any fun r => (s.curCrew.lane r (o.laneOf l)).pend

/-- The lanes of a mask are in FUTURE, waiting for all of their slots (R148), and nothing else of the machine has changed but what the crew's
reorder buffer holds of them. -/
structure AwaitsAll (s t : State) (p : Mask) (slots : Nat → List Nat) : Prop where
  threads : ∀ l, l < 32 → t.thrAt l =
    if p.getLsbD l then { s.thrAt l with state := .future, waitAll := true, waitMask := slotMask (slots l) } else s.thrAt l
  crew : t.curCrew = { s.curCrew with threads := t.curCrew.threads, rob := t.curCrew.rob }
  rob : ∀ e ∈ t.curCrew.rob, e.issue.mask &&& p = 0
  crews : ∀ k, k ≠ s.cur.crew → t.crew k = s.crew k
  rest : t = { s with crews := t.crews }

/-- An instruction that reads a pending future does not execute: its lanes that read one wait in FUTURE for every slot that its sources are
bound to (R148). -/
def AwaitsPending (i : Instr) (o : State → Operands) : Prop :=
  ∀ s : State, s.standing = true → s.atHead (o s) = true → s.pendingMask (o s) ≠ 0 →
    ∃ t, exec i s = .next t ∧ AwaitsAll s t (s.pendingMask (o s)) fun l => ((o s).srcsAt l).filterMap fun r =>
      if (s.curCrew.lane r ((o s).laneOf l)).pend then (s.curCrew.lane r ((o s).laneOf l)).slot else none

/-- A barrier phase that is complete, once it has been settled (R31, R32): every live member has arrived, so that the phase bit flips and
the held arrivals are the first of the next phase, which completes at once when it holds every live member. -/
def Barrier.settled (b : Barrier) : Barrier :=
  if b.arrived.length = b.live ∧ 0 < b.live then
    if b.held.length = b.live then { b with arrived := [], held := [] }
    else { b with phase := !b.phase, arrived := b.held.map (·.1), held := [] }
  else b

/-- A bin of a cluster has hatched (R17, R34, R36, R38, R223, R227): its threads are a crew's, lane by lane in the order of their entry, with
the registers that they brought, at the bin's entry address; the crew waits in its cluster's queue with its areas set aside (R57), and
the bin is free. -/
structure Hatches (s t : State) (cl i : Nat) (g : Bin) : Prop where
  crew : (t.crew s.nextCrew).launch = g.launch ∧ (t.crew s.nextCrew).cluster = cl ∧ (t.crew s.nextCrew).core = none ∧
    (t.crew s.nextCrew).hatched = true ∧ (t.crew s.nextCrew).visible = !g.spawned
  threads : ∀ l, l < 32 → (t.crew s.nextCrew).thr l = match g.threads[l]? with
    | some x => { x.thr with state := .brood, pc := g.entry }
    | none => {}
  regs : ∀ r l, 0 < r → r < 64 → l < 32 → (t.crew s.nextCrew).lane r l =
    match (g.threads[l]?).bind fun x => x.regs.find? fun e => e.1 == r with
    | some e => live e.2
    | none => {}
  cluster : t.cluster cl = { s.cluster cl with
    bins := tdel (s.cluster cl).bins i, queue := (s.cluster cl).queue ++ [s.nextCrew] }
  crews : ∀ k, k ≠ s.nextCrew → t.crew k = s.crew k
  clusters : ∀ n, n ≠ cl → t.cluster n = s.cluster n
  launches : ∀ n, t.launch n = { s.launch n with areas := (t.launch n).areas }
  rest : t = { s with
    crews := t.crews, clusters := t.clusters, nextCrew := s.nextCrew + 1, launches := t.launches, vis := t.vis, frames := t.frames }

/-! ### Behind unretired entries -/

/-- In a crew as an instruction sees it, no lane of G reads a pending future (R148), and no register that it names lies in a spill slot (R58). -/
def Crew.clears (v : Crew) (o : Operands) (g : Mask) : Prop :=
  (o.peek = true ∨ ∀ l r, g.getLsbD l = true → r ∈ o.srcsAt l → (v.lane r (o.laneOf l)).pend = false) ∧
  (g ≠ 0 → ∀ r ∈ o.srcs ++ o.lanes.flatten ++ o.dst, ∀ q, v.reg r = some q → q.spilled = false)

/-- What the execution of an instruction has made of it before it retires, in a crew as it sees it: its lanes with a true guard, those that read a
released register, and in each of the former its effect, or the trap of its reads. -/
def ResultOf (s : State) (v : Crew) (g : Mask) (o : Operands) (eff : State → Nat → Eff) (r : Result) : Prop :=
  let dbg := s.curLaunch.control.getLsbD 7
  r.go = g ∧ r.dead = (maskOf fun l => g.getLsbD l && o.readsIn l && v.readsReleased (o.srcsAt l) l) ∧
  ∀ l, l < 32 → g.getLsbD l = true → r.eff.getD l {} = match v.readTrap dbg (o.srcsAt l) (o.laneOf l) with
    | some (cause, va) => trapped cause va
    | none => eff (s.setCrew s.cur.crew v) l

/-- A state whose crew and core differ from another's in what an issue behind unretired entries changes: the crew's threads, entries and count, and the
banks, the accounts and the pool's idle times of its core. -/
structure Behind (s t : State) : Prop where
  crews : ∀ k, k ≠ s.cur.crew → t.crew k = s.crew k
  cores : ∀ n, n ≠ s.curCore → t.core n = s.core n
  crew : t.curCrew = { s.curCrew with threads := t.curCrew.threads, issued := t.curCrew.issued, rob := t.curCrew.rob }
  core : t.core s.curCore = { s.core s.curCore with
    clash := (t.core s.curCore).clash, counted := (t.core s.curCore).counted, portUse := (t.core s.curCore).portUse
    poolIdle := (t.core s.curCore).poolIdle }
  rest : t = { s with crews := t.crews, cores := t.cores }

/-- The instruction issues behind the unretired entries of its crew, and stands in the way of nothing that would keep it from issuing (R59, R225). -/
def State.issuesBehind (s : State) (o : Operands) : Prop :=
  s.standing = true ∧ s.cur.early = none ∧ s.cur.entry = false ∧ s.notStepped ∧
  (o.banks s.curCrew).any (s.core s.curCore).clash.contains = false ∧ s.curCrew.rob ≠ []

/-- An instruction that executes before it is the oldest of its crew (R49, R59, R62): it reads the registers and flags as the older entries leave
them, and its entry keeps its result, with the registers that have been drawn for it, or waits for those that it lacks (R56). It does so when it
issues behind entries, if what it reads is ready then, or later. -/
def ComputesEarly (i : Instr) (o : Operands) (eff : State → Nat → Eff) : Prop :=
  (∀ (s : State) (k : Nat) (e : RobEntry), s.cur.early = some k → s.curCrew.rob[k]? = some e → e.res = none →
    s.curCrew.core = some s.curCore →
    let v := s.curCrew.seen k
    v.clears o (v.guarded e.issue) →
    ∃ t r, ∃ more : List Nat, ∃ since, exec i s = .next t ∧ Behind s t ∧ t.curCrew.issued = s.curCrew.issued ∧
      ResultOf s v (v.guarded e.issue) o eff r ∧
      let y : RobEntry := { e with res := some r, banks := e.banks ++ more, since := since }
      t.curCrew.rob = s.curCrew.rob.set k { y with why := if y.lacks = 0 then none else some 0 } ∧
      ∀ l, l < 32 → t.thrAt l =
        if isBranch i = true ∧ s.inGroup l = true then { s.thrAt l with readySince := s.cycleOf s.cur.crew } else s.thrAt l) ∧
  ∀ s : State, s.issuesBehind o →
    let k := s.curCrew.rob.length
    let v := s.curCrew.seen k
    s.curCrew.ready k s.cur.mask o.srcs s.cur.ccs = true → v.clears o (v.guarded s.cur) →
    ∃ t r, ∃ more : List Nat, ∃ since, exec i s = .next t ∧ Behind s t ∧ t.curCrew.issued = s.curCrew.issued + 1 ∧
      ResultOf s v (v.guarded s.cur) o eff r ∧
      let y : RobEntry := { issue := s.cur, srcs := o.srcs, dst := o.dst, ends := o.released s.cur.lu, res := some r, banks := more, since := since }
      t.curCrew.rob = s.curCrew.rob ++ [{ y with why := if y.lacks = 0 then none else some 0 }]

/-! ### What a command's completion leaves -/

/-- The status of a command, which has had its effect in b, is delivered (R142, R147, R148, R219, R237): every lane bound to its slot
holds it and is pending no more, the threads whose wait this ends go on, those of an FWANY whose wait has ended in the same cycle see the slot (R311), the slot holds it as long as a lane is bound, launches that
depend on the command know it, and the command and what it owned are gone. Nothing else changes; a core that holds a crew keeps its
counters and that crew's window. -/
structure Delivered (b t : State) (c : Cmd) (st : Nat → Word) (status : Word) : Prop where
  lanes : ∀ k r l, r < 64 → l < 32 → (t.crew k).lane r l =
    let x := (b.crew k).lane r l
    if (b.crew k).lastCore = c.core ∧ (b.crew k).gone = false ∧ x.slot = some c.slot then { x with val := st l, pend := false } else x
  threads : ∀ k l, l < 32 → (t.crew k).thr l =
    let x := (b.crew k).thr l
    if (b.crew k).lastCore = c.core ∧ (b.crew k).gone = false then
      if x.state = .future ∧ (t.core c.core).satisfies x.waitMask x.waitAll = true then x.leaveFuture (t.core c.core)
      else x.lookAgain (t.core c.core)
    else x
  crew : ∀ k, t.crew k = { b.crew k with threads := (t.crew k).threads, map := (t.crew k).map }
  slot : (t.core c.core).slot c.slot = if t.isBound c.core c.slot then .held status else .free
  slots : ∀ k, k < 64 → k ≠ c.slot → (t.core c.core).slot k = (b.core c.core).slot k ∨
    (∃ w, (b.core c.core).slot k = .held w) ∧ (t.core c.core).slot k = .free
  core : t.core c.core = { b.core c.core with
    slots := (t.core c.core).slots, poolIdle := (t.core c.core).poolIdle, grow := (t.core c.core).grow
    exhausted := (t.core c.core).exhausted, trig := (t.core c.core).trig, windows := (t.core c.core).windows }
  kept : ∀ k, (b.crew k).core = some c.core → (t.core c.core).trig = (b.core c.core).trig ∧
    ((b.crew k).gone = false → (t.core c.core).window (b.crew k).launch = (b.core c.core).window (b.crew k).launch)
  cores : ∀ n, n ≠ c.core → t.core n = b.core n
  launches : ∀ n, t.launch n = { b.launch n with
    deps := (b.launch n).deps.map fun d => if d = .command c.id then .known status else d }
  rest : t = { b with crews := t.crews, cores := t.cores, launches := t.launches
                      cmds := b.cmds.filter (fun x => x.id != c.id), owned := b.owned.filter fun o => o.cmd != c.id }

/-- A command whose status waits for nothing more (R142): it has been written, and DTIME has passed its completion time. -/
def State.awaits (s : State) (c : Cmd) (st : Word) : Prop :=
  s.cmd c.id = some c ∧ c.slot < 64 ∧ ∃ ct, c.phase = .written ct st ∧ (ct = 0 ∨ ct < s.dtime)

/-! ### Values of the rules -/

/-- The flags of a sum of n bits (R264): N and Z of the result, C a carry out of bit n - 1, V a signed sum outside n bits. -/
def sumFlags {n : Nat} (x y : BitVec n) (cin : Bool) : Flags :=
  let r := x + y + BitVec.ofNat n cin.toNat
  { n := r.msb, z := r == 0, c := decide (2 ^ n ≤ x.toNat + y.toNat + cin.toNat)
    v := decide (x.toInt + y.toInt + cin.toNat ≠ r.toInt) }

/-- One plain result. -/
def gives (v : Word) : Eff := { w := [live v] }

/-- The two words of a 64-bit result (R5). -/
def gives2 (v : Dword) : Eff := { w := [live (loWord v), live (hiWord v)] }

/-- The greater or the lesser of two values, signed or not (R328). -/
def pick (signed greater : Bool) (x y : Word) : Word :=
  let above := if signed then decide (y.toInt < x.toInt) else decide (y.toNat < x.toNat)
  if above == greater then x else y

/-- Bit by bit. -/
def wordOfBits (f : Nat → Bool) : Word := maskOf f

/-! ### Rounding -/

/-- The rational number (-1)^neg × m × 2^e. -/
def ratOf (neg : Bool) (m : Nat) (e : Int) : Rat := (if neg then -1 else 1) * (m : Rat) * (2 : Rat) ^ e

/-- The rational number that a finite value is. -/
def FVal.rat : FVal → Option Rat
  | .fin neg m e => some (ratOf neg m e)
  | _ => none

/-- The five formats of R84 that are not integers. -/
def floatFormats : List Fmt := [fp32, fp16, bf16, e4m3, e5m2]

/-- The spacing of a format's greatest finite numbers. -/
def Fmt.spacing (f : Fmt) : Rat := (2 : Rat) ^ ((f.largest / 2 ^ f.mb : Nat) - (f.bias : Int) - f.mb)

/-- The greatest finite number of a format. -/
def Fmt.greatest (f : Fmt) : Rat := ((f.value f.largest).rat).getD 0

/-- A value overflows (R90): rounded as if exponents had no bound, it lies beyond the greatest finite number. -/
def Fmt.overflows (f : Fmt) (mode : Nat) (v : Rat) : Prop :=
  if mode = 0 then f.greatest + f.spacing / 2 < |v| ∨ (|v| = f.greatest + f.spacing / 2 ∧ f.largest % 2 = 1)
  else if (mode = 2 ∧ 0 < v) ∨ (mode = 3 ∧ v < 0) then f.greatest < |v|
  else f.greatest + f.spacing ≤ |v|

/-- An encoding is a value rounded in a mode (R90): no finite number of the format lies closer on the side, or the sides, that the mode
allows; a tie goes to the even encoding. -/
def Fmt.rounded (f : Fmt) (mode : Nat) (v : Rat) (x : Nat) : Prop :=
  ∃ w, (f.value x).rat = some w ∧
    (mode = 0 → ∀ y u, (f.value y).rat = some u → |w - v| < |u - v| ∨ (|w - v| = |u - v| ∧ (u = w ∨ x % 2 = 0))) ∧
    (mode = 1 → |w| ≤ |v| ∧ ∀ y u, (f.value y).rat = some u → |u| ≤ |v| → |u| ≤ |w|) ∧
    (mode = 2 → v ≤ w ∧ ∀ y u, (f.value y).rat = some u → v ≤ u → w ≤ u) ∧
    (mode = 3 → w ≤ v ∧ ∀ y u, (f.value y).rat = some u → u ≤ v → u ≤ w)

/-- A result and its flags are those of a nonzero value rounded once (R90, R92, R93): beyond the greatest finite number an infinity or the greatest
number; otherwise the nearest that the mode allows, with NX where it is inexact and UF where the value is tiny too; and under FTZ a subnormal
result gives way to a zero. -/
def Fmt.rounds (f : Fmt) (c : FCtx) (v : Rat) (r : Nat × Nat) : Prop :=
  let neg := decide (v < 0)
  ∃ p : Nat × Nat, r = (if c.ftz && f.wide && f.subnormal p.1 then (f.signBit neg, fUF + fNX) else p) ∧
    (f.overflows c.mode v → p = (f.signBit neg + (if c.sat then f.largest
      else if f.inf = false then f.largest + 1
      else if c.mode = 0 ∨ (c.mode = 2 ∧ neg = false) ∨ (c.mode = 3 ∧ neg = true) then f.infBits else f.largest), fOF + fNX)) ∧
    (¬ f.overflows c.mode v → f.rounded c.mode v p.1 ∧ p.1 / 2 ^ f.magBits = neg.toNat ∧
      p.2 = if (f.value p.1).rat = some v then 0 else fNX + if |v| < (2 : Rat) ^ f.emin then fUF else 0)

/-- A positive FP32 result rounds the number at which an increasing function of the positive numbers vanishes (R90, R99): no finite number lies
closer on the side, or the sides, that the mode allows, and NX says that the function does not vanish at it. -/
def roundsRoot (mode : Nat) (g : Rat → Rat) (r : Nat × Nat) : Prop :=
  ∃ w, 0 < w ∧ (fp32.value r.1).rat = some w ∧ r.2 = (if g w = 0 then 0 else fNX) ∧
    (mode = 0 → ∀ y u, (fp32.value y).rat = some u → 0 ≤ u → (w < u → 0 ≤ g ((w + u) / 2)) ∧ (u < w → g ((w + u) / 2) ≤ 0)) ∧
    (mode = 1 ∨ mode = 3 → g w ≤ 0 ∧ ∀ y u, (fp32.value y).rat = some u → 0 ≤ u → g u ≤ 0 → u ≤ w) ∧
    (mode = 2 → 0 ≤ g w ∧ ∀ y u, (fp32.value y).rat = some u → 0 ≤ u → 0 ≤ g u → w ≤ u)

/-- A word is a NaN in FP32 (R84). -/
def isNanWord (x : Word) : Prop := x.extractLsb' 23 8 = 0xff ∧ x.extractLsb' 0 23 ≠ 0

/-- The NaN that comes of a NaN operand (R94). -/
def nanFrom (c : FCtx) (x : Word) : Nat := if c.dn then 0x7fc00000 else (x ||| 0x00400000).toNat

/-- NV for a signalling NaN among the operands (R93). -/
def signals (xs : List Word) : Nat := if xs.any fun x => x.extractLsb' 23 8 == 0xff && x.extractLsb' 0 23 != 0 && !x.getLsbD 22 then fNV else 0

/-- A result is a nonzero value rounded once by Fmt.round, however the value is written. -/
def Fmt.once (f : Fmt) (c : FCtx) (v : Rat) (r : Nat × Nat) : Prop :=
  ∀ neg m e, m ≠ 0 → ratOf neg m e = v → r = f.round c neg m e

/-! ### What every step keeps -/

/-- A property that every step keeps. -/
def Kept (inv : State → Prop) : Prop := ∀ s t, step s = .next t → inv s → inv t

end Sys2Proof.Machine
end

