-- ==== Sys2Proof/Certificates/Slice0/Obligations.lean ====
section
/-! DEFINITION. The statements for the provers, from the numbered rules of spec/: what each instruction, microprogram operation and
event does and leaves alone, what every step keeps, and what the encodings say. -/

open Sys2Proof Sys2Proof.Machine

/-! ### Integer instructions -/

/-- R264, R267 to R269, R290, R291, R326, R362: sums and differences modulo 2^32 or, on pairs, 2^64, with the flags N, Z, C, V, where C = 1
means no borrow; flags are written under F alone. The I form of ADD writes no flags, and a comparison writes flags alone. Completes: add,
addI, addc, sub, subb, cmp, cmpI, lea, add64, cmp64. -/
def Obligations.SumsAndComparisons : Prop :=
  (∀ d a b f n, Computes (.add d a b f n) (opsRR d a b) fun s l =>
    { gives (s.val a l + s.val b l) with cc := if f then some (n, sumFlags (s.val a l) (s.val b l) false) else none }) ∧
  (∀ d a b f n, Computes (.addc d a b f n) (opsRR d a b) fun s l =>
    let c := ((s.thrAt l).flags n).c
    { gives (s.val a l + s.val b l + BitVec.ofNat 32 c.toNat) with
      cc := if f then some (n, sumFlags (s.val a l) (s.val b l) c) else none }) ∧
  (∀ d a b f n, Computes (.sub d a b f n) (opsRR d a b) fun s l =>
    { gives (s.val a l - s.val b l) with cc := if f then some (n, sumFlags (s.val a l) (~~~ s.val b l) true) else none }) ∧
  (∀ d a b f n, Computes (.subb d a b f n) (opsRR d a b) fun s l =>
    let c := ((s.thrAt l).flags n).c
    { gives (s.val a l + ~~~ s.val b l + BitVec.ofNat 32 c.toNat) with
      cc := if f then some (n, sumFlags (s.val a l) (~~~ s.val b l) c) else none }) ∧
  (∀ d a i, Computes (.addI d a i) (opsR d a) fun s l => gives (s.val a l + i.signExtend 32)) ∧
  (∀ n a b, Computes (.cmp n a b) { a := [a.toNat], b := [b.toNat] } fun s l =>
    { cc := some (n, sumFlags (s.val a l) (~~~ s.val b l) true) }) ∧
  (∀ n a i, Computes (.cmpI n a i) { a := [a.toNat] } fun s l =>
    { cc := some (n, sumFlags (s.val a l) (~~~ i.signExtend 32) true) }) ∧
  (∀ n a b, Computes (.cmp64 n a b) { a := pairRegs a, b := pairRegs b } fun s l =>
    { cc := some (n, sumFlags (s.val2 a l) (~~~ s.val2 b l) true) }) ∧
  (∀ d a b f n, Computes (.add64 d a b f n) { a := pairRegs a, b := pairRegs b, dst := pairRegs d } fun s l =>
    { gives2 (s.val2 a l + s.val2 b l) with cc := if f then some (n, sumFlags (s.val2 a l) (s.val2 b l) false) else none }) ∧
  (∀ d a b x t, Computes (.lea d a b x t) { a := pairRegs a, b := [b.toNat], dst := pairRegs d } fun s l =>
    let i : Int := if x then (s.val b l).toInt else ((s.val b l).toNat : Int)
    gives2 (BitVec.ofInt 64 ((s.val2 a l).toNat + i * 2 ^ t.toNat)))

/-- R101, R288, R299, R327, R337, R347: the low or high half of an exact product, and the carry-less product. Quotients are truncated toward
zero, a remainder takes the dividend's sign; division by 0 gives all ones and the dividend, and -2^31 by -1 gives -2^31 and 0. Completes:
mul, mulI, mulh, mad, div, rem, clmul. -/
def Obligations.MultiplyAndDivide : Prop :=
  (∀ d a b, Computes (.mul d a b) (opsRR d a b) fun s l =>
    gives (BitVec.ofNat 32 ((s.val a l).toNat * (s.val b l).toNat))) ∧
  (∀ d a i, Computes (.mulI d a i) (opsR d a) fun s l =>
    gives (BitVec.ofNat 32 ((s.val a l).toNat * (i.signExtend 32 : Word).toNat))) ∧
  (∀ d a b sg, Computes (.mulh d a b sg) (opsRR d a b) fun s l =>
    gives (if sg then BitVec.ofInt 32 (((s.val a l).toInt * (s.val b l).toInt) >>> 32)
      else BitVec.ofNat 32 (((s.val a l).toNat * (s.val b l).toNat) >>> 32))) ∧
  (∀ d a b c, Computes (.mad d a b c) (opsRRR d a b c) fun s l =>
    gives (BitVec.ofNat 32 ((s.val a l).toNat * (s.val b l).toNat + (s.val c l).toNat))) ∧
  (∀ d a b h, Computes (.clmul d a b h) (opsRR d a b) fun s l =>
    let p := fun (n : Nat) => (List.range 32).foldl (fun x i => xor x ((s.val b l).getLsbD i && i ≤ n && (s.val a l).getLsbD (n - i))) false
    gives (wordOfBits fun i => p (if h then 32 + i else i))) ∧
  (∀ d a b sg, Computes (.div d a b sg) (opsRR d a b) fun s l =>
    let x := s.val a l; let y := s.val b l
    gives (if y = 0 then 0xffffffff
      else if sg = false then BitVec.ofNat 32 (x.toNat / y.toNat)
      else if x = 0x80000000 ∧ y = 0xffffffff then 0x80000000
      else BitVec.ofInt 32 (x.toInt.tdiv y.toInt))) ∧
  (∀ d a b sg, Computes (.rem d a b sg) (opsRR d a b) fun s l =>
    let x := s.val a l; let y := s.val b l
    gives (if y = 0 then x
      else if sg = false then BitVec.ofNat 32 (x.toNat % y.toNat)
      else if x = 0x80000000 ∧ y = 0xffffffff then 0
      else BitVec.ofInt 32 (x.toInt - y.toInt * x.toInt.tdiv y.toInt)))

/-- R277 to R279, R328, R343, R353: the greater, the lesser, a choice by a condition of R47, bit fields and the byte permutation. Completes:
min, minI, max, maxI, bfx, bfi, perm, sel. -/
def Obligations.ChoicesAndFields : Prop :=
  (∀ d a b sg, Computes (.min d a b sg) (opsRR d a b) fun s l => gives (pick sg false (s.val a l) (s.val b l))) ∧
  (∀ d a i, Computes (.minI d a i) (opsR d a) fun s l => gives (pick true false (s.val a l) (i.signExtend 32))) ∧
  (∀ d a b sg, Computes (.max d a b sg) (opsRR d a b) fun s l => gives (pick sg true (s.val a l) (s.val b l))) ∧
  (∀ d a i, Computes (.maxI d a i) (opsR d a) fun s l => gives (pick true true (s.val a l) (i.signExtend 32))) ∧
  (∀ d a b n k, Computes (.sel d a b n k) (opsRR d a b) fun s l =>
    gives (if condHolds k ((s.thrAt l).flags n) then s.val a l else s.val b l)) ∧
  (∀ d a b sg, Computes (.bfx d a b sg) (opsRR d a b) fun s l =>
    let p := (s.val b l).toNat % 32
    let w := min ((s.val b l).toNat / 256 % 64) (32 - p)
    gives (wordOfBits fun i =>
      if i < w then (s.val a l).getLsbD (p + i) else sg && w != 0 && (s.val a l).getLsbD (p + w - 1))) ∧
  (∀ d a b c, Computes (.bfi d a b c) (opsRRR d a b c) fun s l =>
    let p := (s.val c l).toNat % 32
    let w := min ((s.val c l).toNat / 256 % 64) (32 - p)
    gives (wordOfBits fun i =>
      if p ≤ i ∧ i < p + w then (s.val b l).getLsbD (i - p) else (s.val a l).getLsbD i)) ∧
  (∀ d a b c, Computes (.perm d a b c) (opsRRR d a b c) fun s l =>
    let byte := fun (n k : Nat) => if n < 4 then (s.val a l).getLsbD (8 * n + k) else (s.val b l).getLsbD (8 * (n - 4) + k)
    gives (wordOfBits fun i =>
      let sel := (s.val c l).toNat / 16 ^ (i / 8) % 16
      byte (sel % 8) (if 8 ≤ sel then 7 else i % 8)))

/-- R101, R270, R271, R334, R335, R341, R342, R349: the bitwise operations, the moves and NOP; shifts by an amount read unsigned, from a
register or from imm12, and the rotation by it modulo 32. Completes: nop, and, andI, or, orI, xor, xorI, andn, shl, shlI, shr, shrI, sar,
sarI, rot, rotI, mov, movi. -/
def Obligations.LogicAndShifts : Prop :=
  (∀ d a b, Computes (.and d a b) (opsRR d a b) fun s l => gives (s.val a l &&& s.val b l)) ∧
  (∀ d a i, Computes (.andI d a i) (opsR d a) fun s l => gives (s.val a l &&& i.signExtend 32)) ∧
  (∀ d a b, Computes (.or d a b) (opsRR d a b) fun s l => gives (s.val a l ||| s.val b l)) ∧
  (∀ d a i, Computes (.orI d a i) (opsR d a) fun s l => gives (s.val a l ||| i.signExtend 32)) ∧
  (∀ d a b, Computes (.xor d a b) (opsRR d a b) fun s l => gives (s.val a l ^^^ s.val b l)) ∧
  (∀ d a i, Computes (.xorI d a i) (opsR d a) fun s l => gives (s.val a l ^^^ i.signExtend 32)) ∧
  (∀ d a b, Computes (.andn d a b) (opsRR d a b) fun s l => gives (s.val a l &&& ~~~ s.val b l)) ∧
  (∀ d a, Computes (.mov d a) (opsR d a) fun s l => gives (s.val a l)) ∧
  (∀ d i, Computes (.movi d 0 i) { dst := [d.toNat] } fun _ _ => gives i) ∧
  (∀ d i, Computes (.movi d 1 i) { dst := [d.toNat + 1] } fun _ _ => gives i) ∧
  (∀ d i, Computes (.movi d 2 i) { dst := pairRegs d } fun _ _ => gives2 (BitVec.ofInt 64 i.toInt)) ∧
  (∀ d i, Computes (.movi d 3 i) { dst := pairRegs d } fun _ _ => gives2 (BitVec.ofNat 64 i.toNat)) ∧
  (Computes .nop {} fun _ _ => {}) ∧
  (let shl : Word → Nat → Word := fun x y => BitVec.ofNat 32 (x.toNat * 2 ^ y)
  let shr : Word → Nat → Word := fun x y => BitVec.ofNat 32 (x.toNat / 2 ^ y)
  let sar : Word → Nat → Word := fun x y => BitVec.ofInt 32 (x.toInt / 2 ^ y)
  let rot : Word → Nat → Word := fun x y => wordOfBits fun i => x.getLsbD ((i + 32 - y % 32) % 32)
  (∀ d a b, Computes (.shl d a b) (opsRR d a b) fun s l => gives (shl (s.val a l) (s.val b l).toNat)) ∧
  (∀ d a i, Computes (.shlI d a i) (opsR d a) fun s l => gives (shl (s.val a l) i.toNat)) ∧
  (∀ d a b, Computes (.shr d a b) (opsRR d a b) fun s l => gives (shr (s.val a l) (s.val b l).toNat)) ∧
  (∀ d a i, Computes (.shrI d a i) (opsR d a) fun s l => gives (shr (s.val a l) i.toNat)) ∧
  (∀ d a b, Computes (.sar d a b) (opsRR d a b) fun s l => gives (sar (s.val a l) (s.val b l).toNat)) ∧
  (∀ d a i, Computes (.sarI d a i) (opsR d a) fun s l => gives (sar (s.val a l) i.toNat)) ∧
  (∀ d a b, Computes (.rot d a b) (opsRR d a b) fun s l => gives (rot (s.val a l) (s.val b l).toNat)) ∧
  (∀ d a i, Computes (.rotI d a i) (opsR d a) fun s l => gives (rot (s.val a l) i.toNat)))

/-! ### Floating point -/

/-- R90 to R99, R303, R306, R309, R312, R313: one rounding of the exact result of FP32 operands in the thread's mode or the code's, whose
flags are ORed into FSTAT; FMIN and FMAX pick an operand; FCMP writes flags and no register, unordered as V alone. A rounding gives the
closest number that its mode allows, a tie the even one, with NX for an inexact result and UF for one that is tiny too; beyond the greatest
number it gives OF and NX and an infinity or the greatest number; FTZ flushes a subnormal result. A sum, a product and a product with an
addend round their exact value once, and so do a reciprocal, a square root and its reciprocal; 2^p and log2 p of other numbers than integers and powers of
two round a number between the two powers, or integers, next to the exact value. A NaN operand gives the NaN of R94, an infinity what R93 and
R99 say. The model's choices: E4M3 overflows to the NaN of the value's sign (log 71), and FEXP2 and FLOG2 round
a value known to 240 binary digits (log 9). Completes: fadd, fsub, fmul, ffma, fmin, fmax, fcmp, frcp, frsq, fsqrt, fexp2, flog2. -/
def Obligations.FloatArithmetic : Prop :=
  (∀ f ∈ floatFormats, ∀ (c : FCtx) (neg : Bool) (m : Nat) (e : Int), m ≠ 0 → c.mode ≤ 3 →
    let v := ratOf neg m e
    let r := f.round c neg m e
    let p := f.round { c with ftz := false } neg m e
    (c.ftz = true → r = if f.wide && f.subnormal p.1 then (f.signBit neg, fUF + fNX) else p) ∧
    (c.ftz = false → f.overflows c.mode v → r = (f.signBit neg + (if c.sat then f.largest
      else if f.inf = false then f.largest + 1
      else if c.mode = 0 ∨ (c.mode = 2 ∧ neg = false) ∨ (c.mode = 3 ∧ neg = true) then f.infBits else f.largest), fOF + fNX)) ∧
    (c.ftz = false → ¬ f.overflows c.mode v → f.rounded c.mode v r.1 ∧ r.1 / 2 ^ f.magBits = neg.toNat ∧
      r.2 = if (f.value r.1).rat = some v then 0 else fNX + if |v| < (2 : Rat) ^ f.emin then fUF else 0)) ∧
  (∀ f ∈ floatFormats, ∀ (c : FCtx) (a b : Nat) (p q : Rat), (c.operand f a).rat = some p → (c.operand f b).rat = some q →
    (p + q ≠ 0 → f.once c (p + q) (fAdd f c a b)) ∧ (p - q ≠ 0 → f.once c (p - q) (fSub f c a b)) ∧
    (p * q ≠ 0 → f.once c (p * q) (fMul f c a b)) ∧
    (p ≠ 0 → p + q = 0 → fAdd f c a b = (f.signBit (c.mode == 3), 0)) ∧
    ∀ d z, (c.operand f d).rat = some z → p * q + z ≠ 0 → f.once c (p * q + z) (fFma f c a b d)) ∧
  (let inf := fun (n : Bool) => (fp32.signBit n + 0x7f800000, 0)
  let invalid := (0x7fc00000, fNV)
  (∀ (c : FCtx) (a : Word), isNanWord a → ∀ f ∈ [fRcp, fRsq, fSqrt, fExp2, fLog2], f c a.toNat = (nanFrom c a, signals [a])) ∧
  (∀ (c : FCtx) (a b : Word), ∀ f ∈ [fAdd fp32, fSub fp32, fMul fp32],
    (isNanWord a → f c a.toNat b.toNat = (nanFrom c a, signals [a, b])) ∧
    (¬ isNanWord a → isNanWord b → f c a.toNat b.toNat = (nanFrom c b, signals [a, b]))) ∧
  (∀ (c : FCtx) (a b : Nat), c.sat = false →
    let x := c.operand fp32 a; let y := c.operand fp32 b
    (∀ n k, x = .inf n → y = .inf k → fAdd fp32 c a b = (if n = k then inf n else invalid) ∧
      fSub fp32 c a b = (if n = k then invalid else inf n) ∧ fMul fp32 c a b = inf (n != k)) ∧
    (∀ n k m e, x = .inf n → y = .fin k m e → fAdd fp32 c a b = inf n ∧ fSub fp32 c a b = inf n ∧
      fMul fp32 c a b = if m = 0 then invalid else inf (n != k)) ∧
    (∀ n k m e, x = .fin k m e → y = .inf n → fAdd fp32 c a b = inf n ∧ fSub fp32 c a b = inf (!n) ∧
      fMul fp32 c a b = if m = 0 then invalid else inf (n != k))) ∧
  (∀ (c : FCtx) (a b d : Word), c.sat = false →
    let x := c.operand fp32 a.toNat; let y := c.operand fp32 b.toNat; let z := c.operand fp32 d.toNat
    let r := fFma fp32 c a.toNat b.toNat d.toNat
    let zeroInf := (x.isZero && y.isInf) || (x.isInf && y.isZero)
    let some' := isNanWord a ∨ isNanWord b ∨ isNanWord d
    (some' → r.2 = if zeroInf then fNV else signals [a, b, d]) ∧
    (isNanWord a → r.1 = nanFrom c a) ∧ (¬ isNanWord a → isNanWord b → r.1 = nanFrom c b) ∧
    (¬ isNanWord a → ¬ isNanWord b → isNanWord d → r.1 = nanFrom c d) ∧
    (¬ some' → zeroInf = true → r = invalid) ∧
    (¬ some' → zeroInf = false → (x.isInf || y.isInf) = true →
      r = if z.isInf && z.neg != (x.neg != y.neg) then invalid else inf (x.neg != y.neg)) ∧
    (¬ some' → (x.isInf || y.isInf) = false → z.isInf = true → r = inf z.neg)) ∧
  (∀ (c : FCtx) (a : Nat), c.mode ≤ 3 →
    let x := c.operand fp32 a
    (∀ n, x = .inf n → fRcp c a = (fp32.signBit n, 0) ∧ fRsq c a = (if n then invalid else (0, 0)) ∧
      fSqrt c a = (if n then invalid else inf false) ∧ fExp2 c a = (if n then (0, 0) else inf false) ∧
      fLog2 c a = if n then invalid else inf false) ∧
    (∀ n e, x = .fin n 0 e → fRcp c a = ((inf n).1, fDZ) ∧ fRsq c a = ((inf n).1, fDZ) ∧ fSqrt c a = (fp32.signBit n, 0) ∧
      fExp2 c a = (0x3f800000, 0) ∧ fLog2 c a = ((inf true).1, fDZ)) ∧
    (∀ m e, x = .fin true m e → m ≠ 0 → fRsq c a = invalid ∧ fSqrt c a = invalid ∧ fLog2 c a = invalid) ∧
    ∀ p, x.rat = some p →
      (p ≠ 0 → fp32.rounds c (1 / p) (fRcp c a)) ∧
      (0 < p → roundsRoot c.mode (fun u => u * u - p) (fSqrt c a) ∧ roundsRoot c.mode (fun u => u * u * p - 1) (fRsq c a)) ∧
      (∀ n : Int, p = n → (-126 ≤ n → n ≤ 127 → fExp2 c a = ((n + 127).toNat * 2 ^ 23, 0)) ∧
        (-149 ≤ n → n < -126 → c.ftz = false → fExp2 c a = (2 ^ (n + 149).toNat, 0)) ∧
        (128 ≤ n ∨ n < -149 → fp32.rounds c ((2 : Rat) ^ n) (fExp2 c a))) ∧
      (∀ n : Int, (n : Rat) < p → p < n + 1 → |p| < 256 →
        ∃ v : Rat, (2 : Rat) ^ n < v ∧ v < (2 : Rat) ^ (n + 1) ∧ fp32.rounds c v (fExp2 c a)) ∧
      (∀ n : Int, p = (2 : Rat) ^ n → (fp32.value (fLog2 c a).1).rat = some (n : Rat) ∧ (fLog2 c a).2 = 0) ∧
      ∀ n : Int, (2 : Rat) ^ n < p → p < (2 : Rat) ^ (n + 1) →
        ∃ v : Rat, (n : Rat) < v ∧ v < n + 1 ∧ fp32.rounds c v (fLog2 c a)) ∧
  ∀ (c : FCtx) (greater : Bool) (a b : Word),
    let flushed := fun (x : Word) => if c.ftz = true ∧ x.extractLsb' 23 8 = 0 then x.toNat / 2 ^ 31 * 2 ^ 31 else x.toNat
    let order := fun (n : Nat) => if n < 2 ^ 31 then (n : Int) else 2 ^ 31 - 1 - (n : Int)
    let r := fMinMax fp32 c greater a.toNat b.toNat
    r.2 = signals [a, b] ∧ (isNanWord a → isNanWord b → r.1 = nanFrom c a) ∧ (isNanWord a → ¬ isNanWord b → r.1 = flushed b) ∧
    (¬ isNanWord a → isNanWord b → r.1 = flushed a) ∧
    (¬ isNanWord a → ¬ isNanWord b →
      r.1 = if (order (flushed a) < order (flushed b)) = (greater = true) then flushed b else flushed a)) ∧
  (∀ d a b r, Computes (.fadd d a b r) (opsRR d a b) fun s l =>
    flagged (fAdd fp32 (s.mode l r) (s.val a l).toNat (s.val b l).toNat)) ∧
  (∀ d a b r, Computes (.fsub d a b r) (opsRR d a b) fun s l =>
    flagged (fSub fp32 (s.mode l r) (s.val a l).toNat (s.val b l).toNat)) ∧
  (∀ d a b r, Computes (.fmul d a b r) (opsRR d a b) fun s l =>
    flagged (fMul fp32 (s.mode l r) (s.val a l).toNat (s.val b l).toNat)) ∧
  (∀ d a b r, Computes (.ffma d a b r) (opsAcc d a b) fun s l =>
    flagged (fFma fp32 (s.mode l r) (s.val a l).toNat (s.val b l).toNat (s.val d l).toNat)) ∧
  (∀ d a r, Computes (.frcp d a r) (opsR d a) fun s l => flagged (fRcp (s.mode l r) (s.val a l).toNat)) ∧
  (∀ d a r, Computes (.frsq d a r) (opsR d a) fun s l => flagged (fRsq (s.mode l r) (s.val a l).toNat)) ∧
  (∀ d a r, Computes (.fsqrt d a r) (opsR d a) fun s l => flagged (fSqrt (s.mode l r) (s.val a l).toNat)) ∧
  (∀ d a r, Computes (.fexp2 d a r) (opsR d a) fun s l => flagged (fExp2 (s.mode l r) (s.val a l).toNat)) ∧
  (∀ d a r, Computes (.flog2 d a r) (opsR d a) fun s l => flagged (fLog2 (s.mode l r) (s.val a l).toNat)) ∧
  (∀ d a b, Computes (.fmin d a b) (opsRR d a b) fun s l =>
    flagged (fMinMax fp32 (s.mode l 0) false (s.val a l).toNat (s.val b l).toNat)) ∧
  (∀ d a b, Computes (.fmax d a b) (opsRR d a b) fun s l =>
    flagged (fMinMax fp32 (s.mode l 0) true (s.val a l).toNat (s.val b l).toNat)) ∧
  (∀ n a b, Computes (.fcmp n a b) { a := [a.toNat], b := [b.toNat] } fun s l =>
    let x := (s.mode l 0).operand fp32 (s.val a l).toNat
    let y := (s.mode l 0).operand fp32 (s.val b l).toNat
    { cc := some (n, if x.isNan || y.isNan then { v := true }
        else if belowOrdered x y && !(x.isZero && y.isZero) then { n := true }
        else if belowOrdered y x && !(x.isZero && y.isZero) then { c := true }
        else { z := true, c := true })
      fl := if x.signalling || y.signalling then fNV else 0 })

/-- R88, R95, R96, R102, R297 to R301, R316, R317: DOT4 rounds a five-term sum once; the packed halves compute each element on its own and
OR their flags; CVT converts the selected element, to a floating-point format by one rounding, to an integer by rounding in the mode and
clamping, with NV out of range and NX when inexact; DQ4 rounds level × s × F to nearest even. That a zero product of INT8 elements has the
sign of its factors is the model's choice (log 18). Completes: dot4, h2add, h2mul, h2fma, h2min, h2max, cvt, dq4. -/
def Obligations.PackedAndConvert : Prop :=
  (∀ (c : FCtx) (e a b d : Nat) (p q : Nat → Rat) (z : Rat),
    (∀ i, i < 4 → (elemValue c e (a / 2 ^ (8 * i) % 256)).rat = some (p i) ∧ (elemValue c e (b / 2 ^ (8 * i) % 256)).rat = some (q i)) →
    (c.operand fp32 d).rat = some z →
    let v := p 0 * q 0 + p 1 * q 1 + p 2 * q 2 + p 3 * q 3 + z
    v ≠ 0 → fp32.once c v (fDot4 c e a b d)) ∧
  (∀ (c : FCtx) (f g x : Nat) (v : Rat), (elemValue c f x).rat = some v → isIntFmt g = false → v ≠ 0 →
    (fmtOf g).once c v (convert c f g x)) ∧
  (∀ (c : FCtx) (f g x : Nat) (v : Rat), (elemValue c f x).rat = some v → isIntFmt f = false → isIntFmt g = true → c.mode ≤ 3 →
    let w := fmtWidth g
    ∃ n : Int, (c.mode = 0 → |v - n| ≤ 1 / 2 ∧ (|v - n| = 1 / 2 → n % 2 = 0)) ∧
      (c.mode = 1 → n = if v < 0 then ⌈v⌉ else ⌊v⌋) ∧ (c.mode = 2 → n = ⌈v⌉) ∧ (c.mode = 3 → n = ⌊v⌋) ∧
      convert c f g x = if n < -(2 ^ (w - 1)) then (2 ^ (w - 1), fNV) else if 2 ^ (w - 1) - 1 < n then (2 ^ (w - 1) - 1, fNV)
        else ((n % 2 ^ w).toNat, if v = n then 0 else fNX)) ∧
  (∀ (c : FCtx) (f g x : Nat), isIntFmt f = true → isIntFmt g = true →
    let v := signedNat x (fmtWidth f)
    let w := fmtWidth g
    convert c f g x = (((if c.sat then max (-(2 ^ (w - 1))) (min (2 ^ (w - 1) - 1) v) else v) % 2 ^ w).toNat, 0)) ∧
  (∀ (c : FCtx) (k sc x : Nat) (z : Rat), (c.operand fp32 x).rat = some z →
    let v := (q4Level k : Rat) / 64 * sc * z
    v ≠ 0 → fp32.once { c with mode := 0, sat := false } v (dequant c k sc x)) ∧
  (∀ d a b e r, Computes (.dot4 d a b e r) (opsAcc d a b) fun s l =>
    flagged (fDot4 (s.mode l r) e.toNat (s.val a l).toNat (s.val b l).toNat (s.val d l).toNat)) ∧
  (∀ d a b h r, Computes (.h2add d a b h r) (opsRR d a b) fun s l =>
    flagged (halves (fun p q _ => fAdd (halfFmt h) (s.mode l r) p q) (s.val a l).toNat (s.val b l).toNat 0)) ∧
  (∀ d a b h r, Computes (.h2mul d a b h r) (opsRR d a b) fun s l =>
    flagged (halves (fun p q _ => fMul (halfFmt h) (s.mode l r) p q) (s.val a l).toNat (s.val b l).toNat 0)) ∧
  (∀ d a b h r, Computes (.h2fma d a b h r) (opsAcc d a b) fun s l =>
    flagged (halves (fFma (halfFmt h) (s.mode l r)) (s.val a l).toNat (s.val b l).toNat (s.val d l).toNat)) ∧
  (∀ d a b h, Computes (.h2min d a b h) (opsRR d a b) fun s l =>
    flagged (halves (fun p q _ => fMinMax (halfFmt h) (s.mode l 0) false p q) (s.val a l).toNat (s.val b l).toNat 0)) ∧
  (∀ d a b h, Computes (.h2max d a b h) (opsRR d a b) fun s l =>
    flagged (halves (fun p q _ => fMinMax (halfFmt h) (s.mode l 0) true p q) (s.val a l).toNat (s.val b l).toNat 0)) ∧
  (∀ d a f g i q r, Computes (.cvt d a f g i q r) (opsR d a) fun s l =>
    let ws := fmtWidth f.toNat
    let x := (s.val a l).toNat
    let v := convert { s.mode l r with sat := q } f.toNat g.toNat (if ws < 32 then x / 2 ^ (ws * i.toNat) % 2 ^ ws else x)
    flagged (if ws < 32 then v.1 else v.1 * 2 ^ (fmtWidth g.toNat * i.toNat), v.2)) ∧
  (∀ d a b c, Computes (.dq4 d a b c) (opsRRR d a b c) fun s l =>
    let sc := (s.val c l).toNat
    flagged (dequant (s.mode l 1) ((s.val a l).toNat / 16 ^ (sc / 256 % 8) % 16) (sc % 256) (s.val b l).toNat))

/-- R40, R351, R352, R354, R364, R367: the cross-lane instructions combine the lanes of G alone. Completes: shfl, vote, scan, topk. -/
def Obligations.CrossLane : Prop :=
  (∀ d a b z m, Computes (.shfl d a b z m) (opsRR d a b) fun s l =>
    let y := (s.val b l).toNat
    let src : Int := if m = 0 then y else if m = 1 then (l : Int) - y else if m = 2 then (l : Int) + y else Nat.xor l y
    gives (if 0 ≤ src ∧ src ≤ 31 ∧ s.inG src.toNat = true then s.val a src.toNat
      else if z then 0 else s.val a l)) ∧
  (∀ d a k, Computes (.vote d a k) (opsR d a) fun s _ =>
    let hit := fun l => s.inG l && s.val a l != 0
    gives (if k = 0 then wordOfBits hit
      else if k = 1 then (if (List.range 32).any hit then 1 else 0)
      else if k = 2 then (if (List.range 32).all fun l => !s.inG l || s.val a l != 0 then 1 else 0)
      else BitVec.ofNat 32 ((List.range 32).filter hit).length)) ∧
  (∀ d a sg x o, Computes (.scan d a sg x o) (opsR d a) fun s l =>
    gives (((List.range 32).filter fun m => s.inG m && (m < l || (!x && m == l))).foldl
      (fun r m => scanOp o sg r (s.val a m)) (scanIdentity o sg))) ∧
  (∀ d a i k, Computes (.topk d a i k) { a := [a.toNat], dst := [d.toNat, i.toNat] } fun s l =>
    let ls := (List.range 32).filter s.inG
    let rank := rankList (fun m => s.val a m) ls
    let j := (ls.findIdx? fun m => m == l).getD 0
    match if j < k.toNat then rank[j]? else none with
    | some m => { w := [live (s.val a m), live (BitVec.ofNat 32 m)] }
    | none => { w := [live 0xff800000, live 0xffffffff] })

/-! ### Control -/

/-- R67, R77, R283, R287, R318, R348: the branches go to slot A of the packet that they name, in the lanes of G; CALL links; JMP and RET go to
the address of a pair, or take the trap that its form, range, page or extension mark gives, in that order, with the address or its packet in
TRAPVA. AddressAndLoad says how the packet's page is found. Completes: br, call, jmp, ret. -/
def Obligations.Branches : Prop :=
  (∀ o, Computes (.br o) {} fun s _ => { pc := .to (s.packetsOn o) }) ∧
  (∀ o, Computes (.call o) { dst := [62, 63] } fun s _ => { gives2 s.nextPc with pc := .to (s.packetsOn o) }) ∧
  (∀ a, Computes (.jmp a) { a := pairRegs a } fun s l =>
    match s.target s.curCore s.curLaunch.asid (s.val2 a l) with
    | .error (cause, va) => trapped cause va
    | .ok _ => { pc := .to (s.val2 a l) }) ∧
  (∀ a, Computes (.ret a) { a := pairRegs a } fun s l =>
    match s.target s.curCore s.curLaunch.asid (s.val2 a l) with
    | .error (cause, va) => trapped cause va
    | .ok _ => { pc := .to (s.val2 a l) }) ∧
  (∀ (s : State) (core asid : Nat) (t : Dword),
    let low := t.toNat % 16
    let va := BitVec.ofNat 64 (t.toNat / 16 * 16)
    Decides (s.target core asid t)
      [(low ≠ 4 ∧ low ≠ 8 ∧ low ≠ 12, .error (0x01, t)), (2 ^ 49 ≤ t.toNat, .error (0x03, t))]
      (match s.translate core asid .fetch va.toNat with
        | .error c => .error (c, va)
        | .ok e =>
          let bs := Memory.readN s.mem (e.cell va.toNat) 16
          let ext := leNat (bs.take 4) / 2 % 4
          if (ext = 1 ∧ low = 8) ∨ (ext = 2 ∧ low = 12) then .error (0x01, t) else .ok (packetOf bs)))

/-- R22 to R26, R330, R331, R336: MPUSH makes one meeting of the lanes whose stacks have room; MJOIN records the arrival of every lane with
a meeting and settles; MDROP pops n meetings, counts the lane as departed from each, and settles. An arrival waits in MEETING, with the
earlier of the deadlines that it and the instance give, or leaves at once an instance that has released; a departure counts among the
departed. MeetingsSettle says what settling does. Completes: mpush, mjoin, mdrop. -/
def Obligations.Meetings : Prop :=
  (∀ (c : Crew) (l y cycle id : Nat) (rest : List Nat) (m : Meeting), l < 32 → (c.thr l).stack = id :: rest → c.meeting id = some m →
    let d := c.arrive l y cycle
    let self := maskOf fun k => k == l
    let put := fun (n : Meeting) => (c.meetings.map fun x => if x.id = id then n else x).filter fun x => x.dep != x.sib
    d = { c with threads := d.threads, meetings := d.meetings } ∧ (∀ k, k < 32 → k ≠ l → d.thr k = c.thr k) ∧
    if m.released then d.thr l = { (c.thr l).wake cycle with stack := rest, pc := m.addr } ∧ d.meetings = put { m with dep := m.dep ||| self }
    else d.thr l = { c.thr l with state := .meeting } ∧ d.meetings = put { m with
      wait := m.wait ||| self
      deadline := if y = 0 then m.deadline else match m.deadline with
        | none => some (c.now + y)
        | some e => some (min e (c.now + y)) }) ∧
  (∀ (c : Crew) (id : Nat) (m : Mask),
    let d := c.depart id m
    d = { c with meetings := d.meetings } ∧ d.meetings = c.meetings.map fun x => if x.id = id then { x with dep := x.dep ||| m } else x) ∧
  (∀ o, Executes (.mpush o) {} (fun _ => True)
    (fun s =>
      let sib := maskOf fun l => s.inG l && decide ((s.thrAt l).stack.length < 16)
      let id := s.curCrew.nextMeeting
      if sib = 0 then s
      else s.setCrew s.cur.crew { s.curCrew.onMask sib fun _ t => { t with stack := id :: t.stack } with
        meetings := s.curCrew.meetings ++ [{ id := id, addr := s.packetsOn o, sib := sib }], nextMeeting := id + 1 })
    fun s l => if 16 ≤ (s.thrAt l).stack.length then trapped causeMeetOverflow 0 else {}) ∧
  (∀ i, Executes (.mjoin i) {} (fun _ => True)
    (fun s =>
      let cycle := s.cycleOf s.cur.crew
      let ls := (lanesOf s.active).filter fun l => !(s.thrAt l).stack.isEmpty
      s.setCrew s.cur.crew ((ls.foldl (fun c l => c.arrive l (64 * i.toNat) cycle) s.curCrew).settleMeetings cycle))
    fun s l => if (s.thrAt l).stack = [] then trapped causeMeetUnderflow 0 else { pc := .kept }) ∧
  (∀ i, Executes (.mdrop i) {} (fun _ => True)
    (fun s =>
      let n := i.toNat
      let ls := (lanesOf s.active).filter fun l => decide (n ≤ (s.thrAt l).stack.length)
      let c := ls.foldl (fun c l => ((s.thrAt l).stack.take n).foldl (fun c id => c.depart id (laneMask l)) c) s.curCrew
      let c := ls.foldl (fun c l => c.setThr l { c.thr l with stack := (c.thr l).stack.drop n }) c
      s.setCrew s.cur.crew (c.settleMeetings (s.cycleOf s.cur.crew)))
    fun s l => if (s.thrAt l).stack.length < i.toNat then trapped causeMeetUnderflow 0 else {})

/-- R24, R25: once settled, no meeting of a crew has all its siblings waiting or departed, and none past its deadline has a thread waiting;
a meeting that releases sends its waiting threads, READY, to its address and off its place on their stacks. -/
def Obligations.MeetingsSettle : Prop :=
  ∀ (c : Crew) (cycle : Nat), (c.meetings.map (·.id)).Nodup →
    (∀ m ∈ (c.settleMeetings cycle).meetings, m.wait ||| m.dep ≠ m.sib ∧ (m.expired c.now = true → m.wait = 0)) ∧
    ∀ m ∈ c.meetings,
      let d := c.settleMeeting cycle m.id
      if m.wait ||| m.dep = m.sib ∨ m.expired c.now = true then
        (∀ l, l < 32 → d.thr l = if m.wait.getLsbD l then
          { (c.thr l).wake cycle with stack := (c.thr l).stack.erase m.id, pc := m.addr } else c.thr l) ∧
        ∀ x ∈ d.meetings, x.id = m.id → x.wait = 0 ∧ x.dep = m.dep ||| m.wait ∧ (m.wait ||| m.dep ≠ m.sib → x.released = true)
      else d = c

/-- R31 to R33, R257, R273, R274: every lane of G that has a herd in the slot arrives at its barrier once its writes are complete: its TID
joins those that have arrived in the phase, or those that are held for the next when it has arrived already. A BAR waits in BARRIER until
its phase completes, a BARA goes on unless it is held; a lane without a herd traps. The arrivals are recorded before the phases are tested,
which BarrierPhase speaks of. A BAR that a debugger's step stops before does not issue, and halts the threads of its group that have no unretired
instruction; that it does so in every lane of the group, whatever its guard, is the model's choice (log 45). Completes: bar, bara. -/
def Obligations.Barriers : Prop :=
  (∀ (s : State) (slot : Nat) (waits : Bool),
    let lid := s.curCrew.launch
    let herd := fun (l : Nat) => if s.inG l then (s.thrAt l).herds.getD slot none else none
    let ls := (lanesOf s.active).filter fun l => ((s.thrAt l).herd slot).isSome
    let second := fun (l : Nat) => match herd l with
      | some h => (s.curLaunch.barrier h).arrived.contains (s.thrAt l).tid
      | none => false
    (∀ l k, s.inG l = true → s.inG k = true → (s.thrAt l).tid = (s.thrAt k).tid → l = k) →
    let b := s.arriveLanes slot waits ls
    b = { s with crews := b.crews, launches := b.launches } ∧ (∀ k, k ≠ s.cur.crew → b.crew k = s.crew k) ∧
    (∀ n, n ≠ lid → b.launch n = s.launch n) ∧ b.launch lid = { s.curLaunch with barriers := (b.launch lid).barriers } ∧
    b.curCrew = { s.curCrew with threads := b.curCrew.threads } ∧
    (∀ h, (b.launch lid).barrier h = { s.curLaunch.barrier h with
      arrived := (s.curLaunch.barrier h).arrived ++ ((List.range 32).filter fun l => herd l == some h && !second l).map fun l => (s.thrAt l).tid
      held := (s.curLaunch.barrier h).held ++
        ((List.range 32).filter fun l => herd l == some h && second l).map fun l => ((s.thrAt l).tid, waits) }) ∧
    ∀ l, l < 32 → b.thrAt l = match herd l with
      | some h => if waits || second l then { s.thrAt l with state := .barrier, barrier := some h, passBar := false } else s.thrAt l
      | none => s.thrAt l) ∧
  (∀ i, ∀ s : State, s.cur.entry = false → s.curCrew.stepping ≠ none → (∃ l, s.inGroup l = true ∧ (s.thrAt l).passBar = false) →
    ∃ t, exec (.bar i) s = .next t ∧ t = { s with crews := t.crews } ∧ (∀ k, k ≠ s.cur.crew → t.crew k = s.crew k) ∧
      t.curCrew = { s.curCrew with threads := t.curCrew.threads } ∧
      ∀ l, l < 32 → t.thrAt l =
        if s.inGroup l = true ∧ (s.thrAt l).passBar = false ∧ (∀ e ∈ s.curCrew.rob, e.issue.mask.getLsbD l = false)
        then { s.thrAt l with halted := true } else s.thrAt l) ∧
  let after := fun (slot : Nat) (waits : Bool) (s : State) =>
    let ls := (lanesOf s.active).filter fun l => ((s.thrAt l).herd slot).isSome
    (ls.filterMap fun l => (s.thrAt l).herd slot).dedup.foldl (fun t h => t.settleBarrier s.curCrew.launch h 2)
      (s.arriveLanes slot waits ls)
  let fenced := fun (slot : Nat) (s : State) =>
    ∀ l, s.inG l = true → ((s.thrAt l).herd slot).isSome = true → s.fenced 1 s.cur.crew l = true
  let eff := fun (slot : Nat) (s : State) (l : Nat) => if (s.thrAt l).herd slot = none then trapped causeNoHerd 0 else ({} : Eff)
  (∀ i, Executes (.bar i) { visible := true }
    (fun s => fenced i.toNat s ∧ (s.cur.entry = true ∨ s.curCrew.stepping = none ∨ ∀ l, s.inGroup l = true → (s.thrAt l).passBar = true))
    (after i.toNat true) (eff i.toNat)) ∧
  (∀ i, Executes (.bara i) { visible := true } (fenced i.toNat) (after i.toNat false) (eff i.toNat))

/-- R31, R32: a phase is complete when as many have arrived as are live. Then the phase bit flips, every thread that waits in the barrier
is READY but for a BAR that was held over, and the held arrivals are the first of the next phase, which completes at once when every live
member was held over; and otherwise nothing happens. -/
def Obligations.BarrierPhase : Prop :=
  ∀ (s : State) (lid h : Nat),
    let b := (s.launch lid).barrier h
    let t := s.settleBarrier lid h 2
    let waits := fun (k l : Nat) => l < 32 ∧ (s.crew k).launch = lid ∧ ((s.crew k).thr l).state = .barrier ∧
      ((s.crew k).thr l).barrier = some h
    if b.arrived.length = b.live ∧ 0 < b.live then
      t.mem = s.mem ∧ t.cores = s.cores ∧
      if b.held.length = b.live then
        (t.launch lid).barrier h = { b with arrived := [], held := [] } ∧
        ∀ k l, waits k l → ((t.crew k).thr l).state = .ready
      else
        (t.launch lid).barrier h = { b with phase := !b.phase, arrived := b.held.map (·.1), held := [] } ∧
        ∀ k l, waits k l →
          ((t.crew k).thr l).state = if b.held.contains (((s.crew k).thr l).tid, true) then .barrier else .ready
    else t = s

/-- R20, R21, R27, R31, R107, R261, R302, R368: EXIT ends the lanes of G: each is EXITED with its lane clear; it counts as departed at every
meeting on its stack, and waits at none; it leaves the live and arrived counts of its herds; its local window is free. The meetings and the
phases are then settled, and nothing else of the machine changes. A crew all of whose lanes have exited leaves its core, and its record
joins its launch's trace. YIELD holds its lanes back for the 64 cycles after its own. Completes: exit, yield. -/
def Obligations.ExitAndYield : Prop :=
  (∀ s : State, s.poised {} = true → s.active ≠ 0 →
    let lid := s.curCrew.launch
    let b := s.endThreads s.cur.crew s.active
    let ts := (lanesOf s.active).map s.thrAt
    let d : Crew := { s.curCrew with
      meetings := s.curCrew.meetings.map fun x => { x with
        dep := x.dep ||| maskOf fun l => s.inG l && (s.thrAt l).stack.contains x.id
        wait := x.wait &&& maskOf fun l => !s.inG l && (s.thrAt l).isLive }
      threads := laneList.map fun l =>
        if s.inG l then { s.thrAt l with state := .exited, stack := [], halted := false, trap := none } else s.thrAt l }
    let left := fun (h : Nat) => (ts.flatMap fun u => (u.herdList.filter (· == h)).map fun _ => u.tid).foldl
      (fun (x : Barrier) tid => { x with
        live := x.live - 1, arrived := x.arrived.filter (· != tid), held := x.held.filter fun e => e.1 != tid }) (s.curLaunch.barrier h)
    let kept := fun (x y : Thread) (k : Nat) => y = x ∨ (x.state = .barrier ∧ y = x.wake (s.cycleOf k))
    (∀ l, s.inG l = true →
      ((b.crew s.cur.crew).thr l).state = .exited ∧ ∀ r, r < 64 → (b.crew s.cur.crew).rd r l = 0) ∧
    (∀ r l, r < 64 → l < 32 → s.inG l = false → (b.crew s.cur.crew).lane r l = s.curCrew.lane r l) ∧
    (b.crew s.cur.crew).meetings = (d.settleMeetings (s.cycleOf s.cur.crew)).meetings ∧
    (∀ l, l < 32 → kept ((d.settleMeetings (s.cycleOf s.cur.crew)).thr l) ((b.crew s.cur.crew).thr l) s.cur.crew) ∧
    (∀ k, k ≠ s.cur.crew → b.crew k = { s.crew k with threads := (b.crew k).threads } ∧
      ((s.crew k).launch ≠ lid → b.crew k = s.crew k) ∧ ∀ l, l < 32 → kept ((s.crew k).thr l) ((b.crew k).thr l) k) ∧
    (∀ n, n ≠ lid → b.launch n = s.launch n) ∧
    b.launch lid = { s.curLaunch with
      barriers := (b.launch lid).barriers
      windows := s.curLaunch.windows.filter fun w => !(ts.any fun u => u.window == some w) } ∧
    (∀ h, (b.launch lid).barrier h = if (ts.any fun u => u.herdList.contains h) then (left h).settled else s.curLaunch.barrier h) ∧
    (∀ n, n ≠ s.curCore → b.core n = s.core n) ∧
    b = { s with crews := b.crews, launches := b.launches, cores := b.cores } ∧
    if (b.crew s.cur.crew).allExited = true then
      ∃ t, exec .exit s = .next t ∧ (t.crew s.cur.crew).gone = true ∧ (t.crew s.cur.crew).core = none ∧
        (∀ r l, r < 64 → l < 32 → (t.crew s.cur.crew).rd r l = 0) ∧ (∀ k, k ≠ s.cur.crew → t.crew k = b.crew k) ∧
        (∀ n, n ≠ lid → t.launch n = b.launch n) ∧
        (∃ r, r.length = 128 ∧ t.launch lid = { b.launch lid with
          trace := s.curLaunch.trace ++ (if s.curCrew.admitSeq.isSome then [r] else [])
          areas := s.curCrew.area.toList ++ s.curLaunch.areas }) ∧
        t = { s with crews := t.crews, launches := t.launches, cores := t.cores, clusters := t.clusters }
    else ∃ t, exec .exit s = .next t ∧ Retires s b t {} fun _ => {}) ∧
  Executes .yield {} (fun _ => True)
    (fun s => s.setCrew s.cur.crew (s.curCrew.onMask s.active fun _ t => { t with hold := some (s.cycleOf s.cur.crew + 65) }))
    fun _ _ => {}

/-- R34 to R38, R345, R346, R355: SPAWN puts one child for each lane of G into the bin of its entry, in ascending lane order, once what the
lanes have written is complete (log 1); REGROUP moves each lane of G that has no meeting into the bin of its entry and key, and the lane is
clear afterwards. A child has the launch's next TID, its first registers from its parent's, and LSIZE in w60:61; with a regrouped thread go
its live registers, a marked key apart. A thread joins the bin of its launch, kind, entry and key, which hatches when it is the 32nd; or
opens a bin whose timer starts; or, when the cluster has 256 bins, joins the spill area of its launch, in whose memory it is written. Where no
place or no TID is left, the lane takes SPAWN_REFUSED and nothing changes. That a regrouped register's poison is dropped (log 86) and how the
spill area is laid out (log 36) are the model's choices. Completes: spawn, regroup. -/
def Obligations.SpawnAndRegroup : Prop :=
  (∀ (s : State) (cl lid timer : Nat) (spawned : Bool) (entry : Dword) (key : Word) (x : Brooded),
    let c := s.cluster cl
    let bin := c.bins.find? fun e => e.2.launch == lid && e.2.spawned == spawned && e.2.entry == entry && e.2.key == key
    let spot := (List.range 256).find? fun n => !thas c.bins n
    let fresh : Bin := { launch := lid, spawned := spawned, entry := entry, key := key, timer := c.cycle + timer, threads := [x] }
    let r := s.enterBin cl lid spawned entry key timer x
    let only := fun (t : State) (v : Cluster) => (∀ n, n ≠ cl → t.cluster n = s.cluster n) ∧ t.cluster cl = v
    (∀ i g, bin = some (i, g) →
      let g' := { g with threads := g.threads ++ [x] }
      (g.threads.length < 31 → ∃ t, r = some t ∧ t = { s with clusters := t.clusters } ∧ only t { c with bins := tset c.bins i g' }) ∧
      (g.threads.length = 31 → s.spilledOf cl = [] → (c.bins.map (·.1)).Pairwise (· < ·) →
        ∃ t, r = some t ∧ Hatches s t cl i g')) ∧
    (∀ i, bin = none → spot = some i → ∃ t, r = some t ∧ t = { s with clusters := t.clusters } ∧
      only t { c with bins := tset c.bins i fresh }) ∧
    (bin = none → spot = none →
      if (s.launch lid).spill.length < (s.launch lid).spillUnits * 256 then
        ∃ t k, r = some t ∧ t = { s with clusters := t.clusters, launches := t.launches, mem := t.mem } ∧
          only t { c with spills := c.spills + 1 } ∧ (∀ n, n ≠ lid → t.launch n = s.launch n) ∧
          t.launch lid = { s.launch lid with spill := (s.launch lid).spill ++
            [{ order := c.spills, slot := k, cluster := cl, spawned := spawned, entry := entry, key := key, timer := timer, thr := x }] } ∧
          (∀ y ∈ (s.launch lid).spill, y.slot ≠ k) ∧
          (Memory.wf s.mem = true → ∀ a, Memory.read t.mem a =
            match (s.launch lid).broodAreas[k / 128]? with
            | none => Memory.read s.mem a
            | some f => match (List.range 512).find? fun i => cellOf (f * 65536 + k % 128 * 512 + i) false == a with
              | none => Memory.read s.mem a
              | some i => x.bytes.getD i 0)
      else r = none)) ∧
  (∀ (s : State) (a n : Reg) (entry : Dword) (timer l : Nat),
    let lid := s.curCrew.launch; let x := s.curLaunch
    let child : Brooded :=
      { thr := { tid := BitVec.ofNat 32 x.nextTid, state := .brood, fcw := x.fcw }
        regs := (List.range n.toNat).map (fun i => (i + 1, s.curCrew.rd (a.toNat + i) l)) ++ [(60, BitVec.ofNat 32 (x.lsize * 256)), (61, 0)] }
    let bin := s.enterBin s.curCrew.cluster lid true entry 0 timer child
    let r := s.spawnLane a n entry timer l
    (2 ^ 32 ≤ x.nextTid ∨ bin = none → r = (s, trapped causeSpawn 0)) ∧
    ∀ b, x.nextTid < 2 ^ 32 → bin = some b → r = (b.setLaunch lid { b.launch lid with nextTid := x.nextTid + 1 }, {})) ∧
  (∀ (s : State) (key : Reg) (marked : Bool) (entry : Dword) (timer l : Nat), l < 32 →
    let c := s.curCrew; let u := s.thrAt l
    let x : Brooded :=
      { thr := { u with
          state := .brood, fence := none, got := none, waitG := 0, passBar := false
          tstat := if (c.lane key.toNat l).st = .released then u.tstat ||| 1 else u.tstat }
        regs := ((List.range 64).filter fun r => r != 0 && (c.lane r l).st == .live && !(marked && r == key.toNat)).map fun r => (r, (c.lane r l).val)
        stepping := c.stepping }
    let bin := s.enterBin c.cluster c.launch false entry (c.rd key.toNat l) timer x
    let r := s.regroupLane key marked entry timer l
    (bin = none → r = (s, trapped causeSpawn 0)) ∧
    ∀ b, bin = some b → r.2 = { pc := .kept } ∧ r.1 = { b with crews := r.1.crews } ∧ (∀ k, k ≠ s.cur.crew → r.1.crew k = b.crew k) ∧
      (r.1.crew s.cur.crew).thr l = {} ∧ (∀ w, w < 64 → (r.1.crew s.cur.crew).rd w l = 0) ∧
      ∀ k, k < 32 → k ≠ l → (r.1.crew s.cur.crew).thr k = (b.crew s.cur.crew).thr k ∧
        ∀ w, w < 64 → (r.1.crew s.cur.crew).lane w k = (b.crew s.cur.crew).lane w k) ∧
  (∀ a n entry t, LanesAct (.spawn a n entry t)
    (fun _ => { a := (List.range n.toNat).map fun i => a.toNat + i, visible := true })
    (fun s => s.fencedAll 1 ∧ s.cur.crew < s.nextCrew)
    fun s l => some (s.spawnLane a n (s.packetsOn entry) (timerCycles t) l)) ∧
  (∀ a entry t, ∀ s : State,
    let o : Operands := { a := [a.toNat], visible := true }
    s.poised o = true → s.active ≠ 0 → s.cur.crew < s.nextCrew →
    (∀ l, s.inG l = true → (s.thrAt l).stack = [] → s.curCrew.allPending l = [] ∧ s.fenced 1 s.cur.crew l = true) →
    let go := maskOf fun l => s.inG l && (s.thrAt l).stack.isEmpty
    ∃ b es, s.eachLane (fun s l => some (s.regroupLane a (s.cur.lu.getLsbD 0) (s.packetsOn entry) (timerCycles t) l))
        (lanesOf go) = some (b, es) ∧
      (∀ l, s.inG l = true → (s.thrAt l).stack = [] → ∀ e, (l, e) ∈ es → e.trap = none →
        ((b.crew s.cur.crew).thr l).state = .exited ∧ ∀ r, r < 64 → (b.crew s.cur.crew).rd r l = 0) ∧
      if (b.crew s.cur.crew).allExited = true then
        ∃ u, exec (.regroup a entry t) s = .next u ∧ (u.crew s.cur.crew).gone = true ∧ u.mem = b.mem
      else ∃ u, exec (.regroup a entry t) s = .next u ∧
        Retires s b u o fun l => if (s.thrAt l).stack = [] then tget {} es l else trapped causeRegroupMeet 0)

/-! ### Memory -/

/-- R47, R137 to R140, R320 to R325, R358 to R361: with no store on its way and nothing owned by an engine, the lanes of a load, a store or
an ATOM act in ascending order and none of them waits; a store waits for nothing unless the launch has DBGMX, and STREL waits for its fence
alone. AddressAndLoad, StoreLane and AtomLane say what one lane does. R133, R307: FENCE.core does nothing; FENCE.dev and FENCE.sys retire
when every lane of G has the completion times of its stores and DTIME has passed them, for FENCE.sys the host's acknowledgements too. Until
then those lanes stay at the fence, and the lanes outside G go on. Completes: ld, ldWide, st, stWide, lda, strel, ldnc, stnc, atom,
fenceCore, fenceDev, fenceSys. -/
def Obligations.MemoryInstructions : Prop :=
  (∀ d a b z p x, LanesAct (.ld d a b z p x) (fun _ => opsLoad d a b z p) State.quietMemory
    fun s l => s.loadLane a b z p x false 0 l) ∧
  (∀ d a b z p x off, LanesAct (.ldWide d a b z p x off) (fun _ => opsLoad d a b z p) State.quietMemory
    fun s l => s.loadLane a b z p x false off l) ∧
  (∀ d a b z p x, LanesAct (.lda d a b z p x) (fun _ => opsLoad d a b z p) State.quietMemory
    fun s l => s.loadLane a b z p x false 0 l) ∧
  (∀ d a b z p x, LanesAct (.ldnc d a b z p x) (fun _ => opsLoad d a b z p) State.quietMemory
    fun s l => s.loadLane a b z p x true 0 l) ∧
  (∀ d a b z p, LanesAct (.st d a b z p) (fun _ => opsStore d a b z p) (fun s => s.curLaunch.dbgmx = true → s.quietMemory)
    fun s l => s.storeLane d a b z p false 0 l) ∧
  (∀ d a b z p off, LanesAct (.stWide d a b z p off) (fun _ => opsStore d a b z p)
    (fun s => s.curLaunch.dbgmx = true → s.quietMemory) fun s l => s.storeLane d a b z p false off l) ∧
  (∀ d a b z p, LanesAct (.stnc d a b z p) (fun _ => opsStore d a b z p) (fun s => s.curLaunch.dbgmx = true → s.quietMemory)
    fun s l => s.storeLane d a b z p true 0 l) ∧
  (∀ d a b z p, LanesAct (.strel d a b z p) (fun _ => opsStore d a b z p)
    (fun s => s.fencedAll 1 ∧ (s.curLaunch.dbgmx = true → s.quietMemory)) fun s l => s.storeLane d a b z p false 0 l) ∧
  (∀ d a b o w p, LanesAct (.atom d a b o w p) (fun _ => opsAtom d a b o w p) State.quietMemory
    fun s l => s.atomLane d a b o w p l) ∧
  (Executes .fenceCore {} (fun _ => True) (fun s => s) (fun _ _ => {}) ∧
  Executes .fenceDev {} (fun s => s.fencedAll 1) (fun s => s) (fun _ _ => {}) ∧
  Executes .fenceSys {} (fun s => s.fencedAll 2) (fun s => s) (fun _ _ => {}) ∧
  ∀ i k, (i = .fenceDev ∧ k = 1) ∨ (i = .fenceSys ∧ k = 2) → ∀ s : State, s.poised {} = true → ¬ s.fencedAll k →
    ∃ t, exec i s = .next t ∧ t.mem = s.mem ∧ t.cores = s.cores ∧
      ∀ l, l < 32 → s.inGroup l = true →
        ((t.crew s.cur.crew).thr l).state = .ready ∧
        ((t.crew s.cur.crew).thr l).fence = (if s.inG l then some k else none) ∧
        ((t.crew s.cur.crew).thr l).pc = if s.inG l then (s.thrAt l).pc else s.nextPc)

/-- R105, R106, R110, R321, R323: where an access of n bytes goes. The address is base plus zero-extended index times n plus the signed
offset; in scratch it is tried modulo 2^32 for alignment and then against the grant, in local space against LSIZE with LBASE added, and in
global space against 2^49. R106, R112 to R114, R118, R250: a translation is that of the core's TLB, of its die's, or of a walk through two
or three entries, each valid and well formed; it serves an access that the leaf permits, to an address that the firewall grants; a failure is
PAGE_NOT_PRESENT, PROT, or PROT with the walk's mark. R108, R123, R129, R131, R322, R323, R325: what one lane of a load does. It writes no byte of memory, and its
registers take the bytes of scratch, of a valid sector of the L1 under a lease in force, or of the home, widened as X says; a fault, or
poison in the sector, is a trap in the lane. A load that the home serves for the L1 raises the line's horizon to the lease it grants. -/
def Obligations.AddressAndLoad : Prop :=
  (∀ (s : State) (l : Nat) (a b : Reg) (z : BitVec 3) (p : BitVec 2) (off : Word),
    let n := 2 ^ z.toNat
    let index : Int := if b = 0 then 0 else (s.val b l).toNat * n
    let x : Int := (if p = 1 then ((s.val a l).toNat : Int) else ((s.val2 a l).toNat : Int)) + index + off.toInt
    let w := s.accessAt l a b z p off
    (p = 1 → w =
      let o : Nat := (x % 2 ^ 32).toNat
      if o % n ≠ 0 then .trap causeMisalign (BitVec.ofNat 64 o)
      else if 0 ≤ x ∧ x < ((s.core s.curCore).window s.curCrew.launch).banks * 65536 then .scratch o
      else .trap causeScratch (BitVec.ofNat 64 o)) ∧
    (p = 2 → w =
      let va := BitVec.ofInt 64 (x + (s.thrAt l).lbase.toNat)
      if va.toNat % n ≠ 0 then .trap causeMisalign va
      else if 0 ≤ x ∧ x < s.curLaunch.lsize * 256 then .virt va.toNat
      else .trap causeProt va) ∧
    (p = 0 → w =
      let va := BitVec.ofInt 64 x
      if va.toNat % n ≠ 0 then .trap causeMisalign va
      else if va.toNat < 2 ^ 49 then .virt va.toNat
      else .trap causeProt va)) ∧
  (∀ (s : State) (root va : Nat),
    let e1 := s.readPhys (root + 8 * (va / 2 ^ 42 % 2 ^ 7))
    let e2 := s.readPhys (pteFrame e1 + 8 * (va / 2 ^ 29 % 2 ^ 13))
    let e3 := s.readPhys (pteFrame e2 + 8 * (va / 2 ^ 16 % 2 ^ 13))
    Decides (s.walk root va)
      [(e1.getLsbD 0 = false, .error 0x02), (PteBad 1 e1, .error 0x80000003), (e2.getLsbD 0 = false, .error 0x02),
       (PteBad 2 e2, .error 0x80000003), (e2.getLsbD 11 = true, .ok { va := va / 2 ^ 29 * 2 ^ 29, size := 2 ^ 29, leaf := e2 }),
       (e3.getLsbD 0 = false, .error 0x02), (PteBad 3 e3, .error 0x80000003)]
      (.ok { va := va / 2 ^ 16 * 2 ^ 16, size := 2 ^ 16, leaf := e3 })) ∧
  (∀ (s : State) (core asid va : Nat) (k : Access),
    let x := s.translate core asid k va
    let v := s.vi (s.aspace asid).vi
    let found : Except Word TlbEntry := match ((s.core core).tlb ++ (s.die (core / 32)).tlb).find? fun e => e.asid == asid && e.va ≤ va && va < e.va + e.size with
      | some e => .ok e
      | none => (s.walk (s.aspace asid).root va).map fun e => { e with asid := asid }
    (2 ^ 49 ≤ va → x = .error 0x03) ∧
    (va < 2 ^ 49 → match found with
      | .error c => x = .error c
      | .ok e =>
        let pa := pteFrame e.leaf + (va - e.va)
        let bit := fun (n : Nat) => e.leaf.getLsbD n = true
        let mailbox := bit 7 ∧ pa < 2 ^ 45 ∧ pa % 2 ^ 30 / 65536 = 0x3fff ∧ pa / 2 ^ 30 ∈ (s.vi (s.aspace e.asid).vi).pcs
        let granted := ∃ g ∈ (s.vi (s.aspace e.asid).vi).granted, g.1 ≤ pa / 65536 ∧ pa / 65536 < g.1 + g.2
        let stores := bit 2 ∧ ¬ bit 5 ∧ pa / 65536 ∉ s.locked
        let allowed := (granted ∨ mailbox) ∧ match k with
          | .read => bit 1
          | .write => stores
          | .atomic => bit 1 ∧ stores ∧ pa < 2 ^ 45
          | .fetch => bit 3
        (allowed → x = .ok e) ∧ (¬ allowed → x = .error 0x03))) ∧
  (∀ (z : BitVec 3) (x : Bool) (bs : List Byte), z.toNat ≤ 4 → bs.length = 2 ^ z.toNat →
    ∃ ws : List Word, loadLanes z x bs = ws.map live ∧ ws.length = (2 ^ z.toNat + 3) / 4 ∧
      (∀ i, i < 2 ^ z.toNat → (ws.getD (i / 4) 0).extractLsb' (8 * (i % 4)) 8 = bs.getD i 0) ∧
      ∀ n, 8 * 2 ^ z.toNat ≤ n → n < 32 → (ws.getD 0 0).getLsbD n = (x && (ws.getD 0 0).getLsbD (8 * 2 ^ z.toNat - 1))) ∧
  (∀ (s : State) (a b : Reg) (z : BitVec 3) (p : BitVec 2) (x home : Bool) (off : Word) (l : Nat) (t : State) (e : Eff),
    s.loadLane a b z p x home off l = some (t, e) →
    t.mem = s.mem ∧ t.bad = s.bad ∧ t.crews = s.crews ∧ t.flights = s.flights ∧ t.owned = s.owned ∧
    (∀ n, ((t.core n).windows, (t.core n).trig, (t.core n).slots) = ((s.core n).windows, (s.core n).trig, (s.core n).slots)) ∧
    match s.accessAt l a b z p off with
    | .trap cause va => t = s ∧ e = trapped cause va
    | .scratch o =>
      let w := (s.core s.curCore).window s.curCrew.launch
      t = s ∧ e = if w.bytes < o + 2 ^ z.toNat then trapped causeScratch (BitVec.ofNat 64 o)
        else if w.scratchBad.contains (o / 64) then trapped causePoison (BitVec.ofNat 64 o)
        else { w := loadLanes z x (Memory.readN w.scratch o (2 ^ z.toNat)) }
    | .virt va =>
      match s.translate s.curCore s.curLaunch.asid .read va with
      | .error cause => t = s ∧ e = trapped cause (BitVec.ofNat 64 va)
      | .ok m =>
        let atHome := home || m.uc
        match if atHome then none else s.hit s.curCore (m.cell va) with
        | some sec =>
          e = if sec.poison then trapped causePoison (BitVec.ofNat 64 va)
            else { w := loadLanes z x ((sec.data.drop (m.cell va % 64)).take (2 ^ z.toNat)) }
        | none =>
          let r := s.homeRead m va (2 ^ z.toNat)
          (r.2 = true → e = trapped causePoison (BitVec.ofNat 64 va)) ∧
          (r.2 = false → (s.curLaunch.dbgmx = false ∨ s.mixed (m.cell va) (2 ^ z.toNat) = false) →
            e = { w := loadLanes z x r.1 } ∧
            (atHome = false → s.dtime + (s.aspace s.curLaunch.asid).lease ≤ t.horizonOf (lineOf (m.cell va)))) ∧
          (r.2 = false → s.curLaunch.dbgmx = true → s.mixed (m.cell va) (2 ^ z.toNat) = true →
            e = trapped causeMixed (BitVec.ofNat 64 va)))

/-- R75, R114, R130, R141, R145, R358 to R360: what one lane of a store does. It takes the low bytes of its register, the lowest first, or
those of a pair or of four registers. A scratch store changes those bytes of the window and nothing
else. A store of device memory without DBGMX changes no byte of memory yet: it is on its way to its home, where StoreArrives applies it.
Under DBGMX it is applied at once, and to host memory it is written and waits for the host. Every other byte of memory reads as before. -/
def Obligations.StoreLane : Prop :=
  (∀ (c : Crew) (l : Nat) (z : BitVec 3) (d : Reg), z.toNat ≤ 4 →
    (storeBytes c l z d).length = 2 ^ z.toNat ∧
    ∀ i, i < 2 ^ z.toNat → (storeBytes c l z d).getD i 0 = (c.rd (d.toNat + i / 4) l).extractLsb' (8 * (i % 4)) 8) ∧
  ∀ (s : State) (d a b : Reg) (z : BitVec 3) (p : BitVec 2) (drop : Bool) (off : Word) (l : Nat) (t : State) (e : Eff),
    s.storeLane d a b z p drop off l = some (t, e) → Memory.wf s.mem = true →
    let bs := storeBytes s.curCrew l z d
    match s.accessAt l a b z p off with
    | .trap cause va => t = s ∧ e = trapped cause va
    | .scratch o =>
      let w := (s.core s.curCore).window s.curCrew.launch
      if w.bytes < o + bs.length then t = s ∧ e = trapped causeScratch (BitVec.ofNat 64 o)
      else e = {} ∧ t = s.setCore s.curCore ((s.core s.curCore).setWindow { w with scratch := Memory.writeN w.scratch o bs })
    | .virt va =>
      match s.translate s.curCore s.curLaunch.asid .write va with
      | .error cause => t = s ∧ e = trapped cause (BitVec.ofNat 64 va)
      | .ok m =>
        let cell := m.cell va
        (∀ x, ¬(cell ≤ x ∧ x < cell + bs.length) → Memory.read t.mem x = Memory.read s.mem x) ∧
        if isHost cell then
          e = {} ∧ (∀ i, i < bs.length → Memory.read t.mem (cell + i) = bs.getD i 0) ∧
          t.hostPending = s.hostPending ++ [⟨s.curCrew.launch, (s.thrAt l).tid, false⟩] ∧ t.crews = s.crews
        else if s.curLaunch.dbgmx = false then
          e = {} ∧ t.mem = s.mem ∧ t.crews = s.crews ∧ t.flights = s.flights ++
            [{ launch := s.curCrew.launch, tid := (s.thrAt l).tid, core := s.curCore, addr := cell, data := bs }]
        else if s.mixed cell bs.length then e = trapped causeMixed (BitVec.ofNat 64 va) ∧ t.mem = s.mem
        else e = {} ∧ ∀ i, i < bs.length → Memory.read t.mem (cell + i) = bs.getD i 0

/-- R130, R131, R139: a store reaches its home when no engine owns its cells and no older store of its core to the line is still to come;
then its bytes are in memory, every other byte reads as before, and its completion time is max(DTIME, H) of its line. The completion time
then returns, and the thread's WCT is at least that. Completes: storeHomeApply, completionTimeReturn. -/
def Obligations.StoreArrives : Prop :=
  (∀ (s : State) (k : Nat) (f : Flight), s.flights[k]? = some f → s.mayApply k = true → Memory.wf s.mem = true →
    ∃ t, exec (.storeHomeApply k) s = .next t ∧
      (∀ x, Memory.read t.mem x = if f.addr ≤ x ∧ x < f.addr + f.data.length then f.data.getD (x - f.addr) 0
        else Memory.read s.mem x) ∧
      t.flights = s.flights.set k { f with applied := true, ct := max s.dtime (s.horizonOf (lineOf f.addr)) } ∧
      t.crews = s.crews ∧ t.horizon = s.horizon ∧ t.dtime = s.dtime) ∧
  (∀ (s : State) (k : Nat) (f : Flight), s.flights[k]? = some f → f.applied = true →
    ∃ t, exec (.completionTimeReturn k) s = .next t ∧ t.flights = dropAt s.flights k ∧ t.mem = s.mem ∧
      ∀ n l, l < 32 → (s.crew n).launch = f.launch → ((s.crew n).thr l).tid = f.tid → ((s.crew n).thr l).state ≠ .exited →
        ((t.crew n).thr l).wct = BitVec.ofNat 64 (max ((s.crew n).thr l).wct.toNat f.ct))

/-- R137, R138, R141, R272: what one lane of an ATOM does. Its destination takes the old value of 32 or 64 bits, the location the new one
(ADD, signed and unsigned MIN and MAX, AND, OR, XOR, EXCH, CAS, or FP32 ADD to nearest even), and every other byte of memory reads as
before; a fault, poison, or DBGMX's mixed size is a trap and changes nothing. -/
def Obligations.AtomLane : Prop :=
  ∀ (s : State) (d a b : Reg) (o : BitVec 4) (w p : Bool) (l : Nat) (t : State) (e : Eff),
    s.atomLane d a b o w p l = some (t, e) → Memory.wf s.mem = true → o.toNat ≤ 10 → (o = 10 → w = false) →
    let n := if w then 8 else 4
    let x := s.curCrew.rdW w b.toNat l
    let k := s.curCrew.rdW w d.toNat l
    let new := fun (old : Nat) => match o.toNat with
      | 0 => (old + x) % 2 ^ (8 * n)
      | 1 => if signedNat x (8 * n) < signedNat old (8 * n) then x else old
      | 2 => if signedNat old (8 * n) < signedNat x (8 * n) then x else old
      | 3 => min old x
      | 4 => max old x
      | 5 => old &&& x
      | 6 => old ||| x
      | 7 => old ^^^ x
      | 8 => x
      | 9 => if old = k then x else old
      | _ => (fAdd fp32 { dn := true } old x).1
    let gives := fun (old : Nat) => if w then live2 (BitVec.ofNat 64 old) else [live (BitVec.ofNat 32 old)]
    match s.atomPlace l a w p with
    | .trap cause va => t = s ∧ e = trapped cause va
    | .scratch at_ =>
      let v := (s.core s.curCore).window s.curCrew.launch
      let old := leNat (Memory.readN v.scratch at_ n)
      t.mem = s.mem ∧
      if v.bytes < at_ + n then t = s ∧ e = trapped causeScratch (BitVec.ofNat 64 at_)
      else if v.scratchBad.contains (at_ / 64) then t = s ∧ e = trapped causePoison (BitVec.ofNat 64 at_)
      else e = { w := gives old } ∧ t = s.setCore s.curCore ((s.core s.curCore).setWindow
        { v with scratch := Memory.writeN v.scratch at_ (leBytes n (new old)) })
    | .virt va =>
      match s.translate s.curCore s.curLaunch.asid .atomic va with
      | .error cause => t = s ∧ e = trapped cause (BitVec.ofNat 64 va)
      | .ok m =>
        let cell := m.cell va
        let old := leNat (Memory.readN s.mem cell n)
        (∀ y, ¬(cell ≤ y ∧ y < cell + n) → Memory.read t.mem y = Memory.read s.mem y) ∧
        if s.sectorBad cell then e = trapped causePoison (BitVec.ofNat 64 va) ∧ t.mem = s.mem
        else if s.curLaunch.dbgmx && s.mixed cell n then e = trapped causeMixed (BitVec.ofNat 64 va) ∧ t.mem = s.mem
        else e = { w := gives old } ∧ leNat (Memory.readN t.mem cell n) = new old % 2 ^ (8 * n)

/-! ### Futures, engines and bags -/

/-- R150, R152, R296, R304, R310, R311, R314, R315: the instructions that test, await and cancel futures, and the trigger counters. FWANY
and FWALL go on when every lane of G has finished its own wait, for any of its slots or for all; FWANY writes the slot that ended it.
FCANCEL cancels what its lanes' futures are bound to: a command that has not started and starts after its issue completes CANCELLED, a
LAUNCH before its dependences are met. CTSET leaves the last lane's value and CTADD the sum. Completes: fwait, ftest, fcancel, fwany, fwall,
ffirst, ctset, ctadd. -/
def Obligations.FuturesAndCounters : Prop :=
  let ready := fun (s : State) (k : Nat) => ((s.core s.curCore).slot k).ready
  let first := fun (s : State) (m : Dword) => gives (BitVec.ofNat 32 (((List.range 64).find? fun k => m.getLsbD k && ready s k).getD 64))
  (∀ d a x, Computes (.fwait d a x) { a := [a.toNat], dst := [d.toNat] } fun s l =>
    if x = true ∧ 2 ^ 28 ≤ (s.val a l).toNat then trapped causeFuture 0 else gives (s.val a l)) ∧
  (∀ d a, Computes (.ftest d a) { a := [a.toNat], dst := [d.toNat], peek := true } fun s l =>
    let x := s.curCrew.lane a.toNat l
    gives (match x.slot with
      | none => 0xc0000000
      | some k => BitVec.ofNat 32 (if x.pend then k else 2 ^ 31 + k))) ∧
  (∀ d a, Computes (.ffirst d a) { a := pairRegs a, dst := [d.toNat] } fun s l => first s (s.val2 a l)) ∧
  (∀ d a, Executes (.fwany d a) { a := pairRegs a, dst := [d.toNat] }
    (fun s => ∀ l, s.inG l = true → (s.thrAt l).got.isSome = true ∨ s.val2 a l = 0 ∨
      ∃ k, k < 64 ∧ (s.val2 a l).getLsbD k = true ∧ ready s k = true)
    (fun s => s) fun s l => match (s.thrAt l).got with
      | some k => gives (BitVec.ofNat 32 k)
      | none => first s (s.val2 a l)) ∧
  (∀ a, Executes (.fwall a) { a := pairRegs a }
    (fun s => ∀ l, s.inG l = true → (s.thrAt l).got.isSome = true ∨
      ∀ k, k < 64 → (s.val2 a l).getLsbD k = true → ready s k = true)
    (fun s => s) fun _ _ => {}) ∧
  (∀ (s : State) (n k : Nat),
    let t := s.cancelSlot n k
    match (s.core n).slot k with
    | .busy id => ∀ c, s.cmd id = some c → c.core = n → c.slot = k → k < 64 →
      let closed := fun (lid : Nat) => s.setLaunch lid { s.launch lid with phase := .closing stCancelled }
      if c.phase ≠ .queued then t = s
      else match c.kind with
        | .nmarm .. | .nmdisarm .. | .scall .. => t = s
        | .launch lid =>
          ((s.launch lid).phase = .sending → t = closed lid) ∧
          ((s.launch lid).phase = .accepted → t = if ((s.launch lid).deps.all fun d => (s.judgeDep (s.launch lid) d).2 == .met) then s else closed lid) ∧
          ((s.launch lid).phase ≠ .sending → (s.launch lid).phase ≠ .accepted → t = s)
        | _ => Delivered s t c (fun _ => stCancelled) stCancelled
    | _ => t = s) ∧
  (∀ a, Executes (.fcancel a) { a := [a.toNat], peek := true } (fun _ => True)
    (fun s => ((lanesOf s.active).filterMap fun l =>
        if (s.curCrew.lane a.toNat l).pend then (s.curCrew.lane a.toNat l).slot else none).foldl
      (fun t k => t.cancelSlot t.curCore k) s)
    fun _ _ => {}) ∧
  (∀ n a, Executes (.ctset n a) { a := [a.toNat], visible := true } (fun _ => True)
    (fun s => let c := s.core s.curCore
      s.setCore s.curCore { c with trig := setAt 16 0 c.trig n.toNat (s.val a ((lanesOf s.active).getLastD 0)) })
    fun _ _ => {}) ∧
  (∀ n a, Executes (.ctadd n a) { a := [a.toNat], visible := true } (fun _ => True)
    (fun s => let c := s.core s.curCore
      s.setCore s.curCore { c with
        trig := setAt 16 0 c.trig n.toNat (c.trig.getD n.toNat 0 + ((lanesOf s.active).map fun l => s.val a l).sum) })
    fun _ _ => {})

/-- R148, R150, R310, R311, R315: a lane of G that reads a pending future does not execute its instruction, be it FWAIT or any other but FTEST and
FCANCEL, which look at the future and never wait (R304, R314); it is in FUTURE, waiting for every slot that its sources are bound to, and nothing else of the machine changes. In FWANY and FWALL each lane of G
whose own condition does not hold is in FUTURE for its mask of slots; a lane that has finished keeps the slot that ended its wait, and goes
on with its issue group. That the lanes wait one by one is the model's reading (log 57). -/
def Obligations.PendingWaits : Prop :=
  (∀ i : Instr, i.encodable = true → (∀ d a, i ≠ .ftest d a) → (∀ a, i ≠ .fcancel a) → AwaitsPending i (operandsOf i)) ∧
  ∀ (i : Instr) (o : Operands) (a : Reg) (all : Bool), (∃ d, i = .fwany d a ∧ o = { a := pairRegs a, dst := [d.toNat] } ∧ all = false) ∨
      (i = .fwall a ∧ o = { a := pairRegs a } ∧ all = true) → ∀ s : State, s.poised o = true →
    let ready := fun (k : Nat) => ((s.core s.curCore).slot k).ready
    let slots := fun (l : Nat) => (List.range 64).filter fun k => (s.val2 a l).getLsbD k
    let waits := fun (l : Nat) => s.inG l && (s.thrAt l).got.isNone && !(slots l).isEmpty && !(if all then (slots l).all ready else (slots l).any ready)
    (∃ l, l < 32 ∧ waits l = true) →
    ∃ t, exec i s = .next t ∧ t = { s with crews := t.crews } ∧ (∀ k, k ≠ s.cur.crew → t.crew k = s.crew k) ∧
      t.curCrew = { s.curCrew with threads := t.curCrew.threads, rob := t.curCrew.rob } ∧
      ∀ l, l < 32 → t.thrAt l =
        if waits l then
          { s.thrAt l with state := .future, waitMask := s.val2 a l, waitAll := all, got := none, waitG := s.active }
        else if s.inGroup l then
          { s.thrAt l with got := some ((s.thrAt l).got.getD (((slots l).find? ready).getD 64)), waitMask := 0, waitG := s.active }
        else s.thrAt l

/-- R142, R146, R149, R153, R156, R204, R206, R276, R292, R293, R308, R339: the instructions that issue one command per lane of G, and the
checks of COPY, NMARM and BDRAIN in their order, of which the first that applies decides. FETCH and NMARM read their record and their block as
they issue, once the pseudo-channels that hold them serve accesses (R209). That NMARM of a poisoned block completes POISONED (log 31) and that a
command owns the lines of its destination from its issue, those of FETCH as its record names them then (log 19), are the model's readings. Completes: copy, fetch, nmload, nmarm, nmrun,
nmdisarm, bdrain. -/
def Obligations.LaneEngines : Prop :=
  let any' := fun (_ : State) (_ : Nat) => true
  (∀ d a b dir sh n x, IssuesPerLane (.copy d a b dir sh n x) (opsCopy d a b dir) any' fun s l =>
    s.copyLane a b dir sh.toNat (if x then some n.toNat else none) l) ∧
  (∀ d a q, IssuesPerLane (.fetch d a q) (opsFuture d (pairRegs a) [])
    (fun s l => s.servesVas s.curCore s.curLaunch.asid [(s.val2 a l).toNat]) fun s l =>
    if (s.val2 a l).toNat % 32 ≠ 0 then .trap causeMisalign (s.val2 a l)
    else .cmd (.fetch q.toNat (s.val2 a l) none) .queued [] (s.fetchDst s.curCore s.curLaunch.asid q.toNat (s.val2 a l).toNat)) ∧
  (∀ d a b n, IssuesPerLane (.nmload d a b n) (opsFuture d (pairRegs a) [b.toNat]) any' fun s l =>
    if (s.val2 a l).toNat % 8 ≠ 0 then .trap causeMisalign (s.val2 a l)
    else .cmd (.nmload (s.val2 a l) (s.val b l).toNat (n.toNat + 1)) .queued [] []) ∧
  (∀ d a, IssuesPerLane (.nmarm d a) (opsFuture d (pairRegs a) [])
    (fun s l => s.servesVas s.curCore s.curLaunch.asid ((List.range 4).map fun i => (s.val2 a l).toNat + 64 * i)) fun s l => s.nmarmLane a l) ∧
  (∀ d a, IssuesPerLane (.nmrun d a) (opsFuture d (pairRegs a) []) any' fun s l => .cmd (.nmrun (s.val2 a l) {}) .queued [] []) ∧
  (∀ d a, IssuesPerLane (.nmdisarm d a) (opsFuture d (pairRegs a) []) any' fun s l => .cmd (.nmdisarm (s.val2 a l)) .queued [] []) ∧
  (∀ d a b c, IssuesPerLane (.bdrain d a b c) { opsFuture d (pairRegs a) [b.toNat] with c := [c.toNat] } any' fun s l =>
    s.drainLane a b c l) ∧
  (∀ (s : State) (core asid q va : Nat),
    s.fetchDst core asid q va = match (s.vi (s.aspace asid).vi).pair q, (s.engineLoad core asid va 32).2 with
      | some p, .ok bs =>
        let f := bs.map (·.val)
        if fetchRefused p f then [] else (List.range (field f 4 4 * p.lba / 256)).map fun i => field f 16 8 + i * 256
      | _, _ => []) ∧
  (∀ (s : State) (a b : Reg) (dir : BitVec 2) (shape : Nat) (ctr : Option Nat) (l : Nat),
    let size := s.curWindow.banks * 65536
    let src := if dir = 1 then (s.val a l).toNat else (s.val2 a l).toNat
    let dst := if dir = 0 then (s.val b l).toNat else (s.val2 b l).toNat
    let h := shapeOf (s.curWindow.read shape 32)
    let strided := fun (start : Nat) (e : Nat × Nat) => (start : Int) + h.off e.1 e.2
    let dense := fun (start : Nat) (e : Nat × Nat) => (start : Int) + ((e.1 * h.cols + e.2) * h.bytes : Nat)
    let from_ := fun e => if dir = 1 then strided src e else dense src e
    let to_ := fun e => if dir = 1 then dense dst e else strided dst e
    let side := fun e => if dir = 0 then to_ e else from_ e
    let out := h.elems.find? fun e => decide ((dir = 0 ∨ dir = 1) ∧ (side e < 0 ∨ (size : Int) < side e + h.bytes))
    let kind := fun c => CmdKind.copy dir.toNat (BitVec.ofNat 64 src) (BitVec.ofNat 64 dst) h c
    Decides (s.copyLane a b dir shape ctr l)
      [(size < shape + 32, .trap causeScratch (BitVec.ofNat 64 shape)),
       (6 < h.format ∨ h.rows = 0 ∨ h.cols = 0 ∨ h.elemStride = 0 ∨ h.elemStride % h.bytes ≠ 0 ∨
          ∃ e ∈ h.elems, from_ e % h.bytes ≠ 0 ∨ to_ e % h.bytes ≠ 0, refusedAtOnce (kind none)),
       (out ≠ none, .trap causeScratch ((out.map fun e => BitVec.ofNat 64 (side e % 2 ^ 32).toNat).getD 0))]
      (.cmd (kind ctr) .queued (if s.curWindow.bad shape then [1] else [])
        (if dir = 0 then [] else h.elems.map fun e => (to_ e % 2 ^ 64).toNat))) ∧
  (∀ (s : State) (a : Reg) (l : Nat),
    let va := s.val2 a l
    let leaf := s.armLeaf s.curCore s.curLaunch.asid
    let refused := refusedAtOnce (.nmarm {} [])
    match s.translate s.curCore s.curLaunch.asid .read va.toNat with
    | .error c => s.nmarmLane a l = .trap c va
    | .ok _ =>
      (va.toNat % 256 ≠ 0 → s.nmarmLane a l = refused) ∧
      (va.toNat % 256 = 0 → match (s.readBlock s.curCore s.curLaunch.asid va.toNat).2 with
        | .error c => s.nmarmLane a l = .trap c va
        | .ok (true, _) => s.nmarmLane a l = .cmd (.nmarm {} []) (.written 0 (stPoisoned 0)) [] []
        | .ok (false, g) =>
          let absent := fun (p : Nat × Nat) => match leaf p.1 with
            | .error c => c == causeNotPresent
            | .ok _ => false
          let prot := fun (p : Nat × Nat) => match leaf p.1 with
            | .error _ => true
            | .ok e => !pteR e.leaf || !pteBL e.leaf || (place (e.pa p.1) true).pc != p.2 || pteSeal e.leaf
          let update := fun (p : Nat × Nat) => match leaf p.1 with
            | .error _ => true
            | .ok e => g.mode == 1 && !(pteW e.leaf && pteNMW e.leaf)
          let moved := fun (v : Nat) => match leaf v with
            | .error _ => false
            | .ok e => s.movedRows.contains ((place (e.pa v) true).pc, (place (e.pa v) true).bank, (place (e.pa v) true).row)
          let page := fun (c : Word) (x : Option (Nat × Nat)) => LaneCmd.trap c (BitVec.ofNat 64 ((x.map (·.1)).getD 0))
          Decides (s.nmarmLane a l)
            [(g.ok = false, refused), (g.pages.find? absent ≠ none, page causeNotPresent (g.pages.find? absent)),
             (g.pages.find? prot ≠ none, page causeProt (g.pages.find? prot)),
             (g.pages.find? update ≠ none, page causeProt (g.pages.find? update)),
             (g.rowVas.find? moved ≠ none, .trap causeNmArm (BitVec.ofNat 64 ((g.rowVas.find? moved).getD 0 / 65536 * 65536)))]
            (.cmd (.nmarm g ((g.pages.map (·.1)).dedup)) .queued [] []))) ∧
  (∀ (s : State) (a p k : Reg) (l : Nat),
    match s.handle s.curLaunch.asid (s.val2 a l) with
    | none => s.drainLane a p k l = .trap causeBagHandle 0
    | some i =>
      let g := s.bag s.curLaunch.asid i
      let sh := (s.val p l).toNat % 512; let n := (s.val p l).toNat / 65536; let x := (s.val k l).toNat
      Decides (s.drainLane a p k l)
        [(g.count ≤ sh, .trap causeBagHandle 0), (x % g.slot ≠ 0, .trap causeMisalign (BitVec.ofNat 64 x)),
         (n ≠ 0 ∧ s.curWindow.banks * 65536 < x + n * g.slot, .trap causeScratch (BitVec.ofNat 64 x)),
         (n = 0 ∨ (s.val p l).toNat / 512 % 128 ≠ 0, refusedAtOnce (.bdrain i sh n x 0))]
        (.cmd (.bdrain i sh n x 0) .queued [] []))

/-- R121, R142, R146, R149: the commands of an instruction take free slots, one after the other; each lane that issues becomes a future of its slot,
whose command is queued as the lane asked; a lane that traps issues none; and nothing changes but the commands, the slots, what the commands own,
and what the repair of their destinations' pages takes. A command owns the lines that its destination's addresses have, once their pages are repaired.
That the slots are taken lowest first, in ascending lane order (log 84), and that ownership begins at issue (log 19), are the model's choices. -/
def Obligations.SlotsOfCommands : Prop :=
  ∀ (s : State) (mk : Nat → LaneCmd) (m : Mask), (∀ c ∈ s.cmds, c.id < s.nextCmd) →
    (lanesOf m).countP (fun l => (mk l).issues) ≤ (s.core s.curCore).freeSlots.length →
    let r := s.laneCommands mk (lanesOf m) (s.core s.curCore).freeSlots
    let issuing := (lanesOf m).filter fun l => (mk l).issues
    r.1 = (issuing.zip (s.core s.curCore).freeSlots).foldl (fun t e => match mk e.1 with
      | .trap .. => t
      | .cmd kind phase bad dst =>
        (t.accept s.curCore e.2 s.curCrew.launch s.curLaunch.asid (s.thrAt e.1).tid kind phase bad).own t.nextCmd s.curCore s.curLaunch.asid dst) s ∧
    r.1 = { s with
      cmds := r.1.cmds, nextCmd := r.1.nextCmd, owned := r.1.owned, cores := r.1.cores
      mem := r.1.mem, bad := r.1.bad, vis := r.1.vis, frames := r.1.frames, dies := r.1.dies } ∧
    (∀ n, n ≠ s.curCore → r.1.core n = { s.core n with l1 := (r.1.core n).l1 }) ∧
    r.1.core s.curCore = { s.core s.curCore with l1 := (r.1.core s.curCore).l1, slots := (r.1.core s.curCore).slots } ∧
    (∀ l, m.getLsbD l = true →
      match mk l with
      | .trap cause va => tget {} r.2 l = trapped cause va
      | .cmd kind phase bad _ =>
        let slot := (s.core s.curCore).freeSlots.getD ((lanesOf m).countP fun k => k < l && (mk k).issues) 0
        tget {} r.2 l = { w := [future slot] } ∧ (s.core s.curCore).slot slot = .free ∧
        ∃ id, (r.1.core s.curCore).slot slot = .busy id ∧
          r.1.cmd id = some { id := id, core := s.curCore, slot := slot, launch := s.curCrew.launch, tid := (s.thrAt l).tid
                              asid := s.curLaunch.asid, kind := kind, phase := phase, bad := bad }) ∧
    ∀ (s : State) (id core asid : Nat) (vas : List Nat),
      let u := s.repairWrites core asid vas
      let t := s.own id core asid vas
      t = { u with owned := t.owned } ∧ (∃ more, t.owned = s.owned ++ more) ∧
      ∀ o, o ∈ t.owned ↔ o ∈ s.owned ∨ ∃ va ∈ vas, ∃ e, va < 2 ^ 49 ∧ u.lookupDie (core / 32) asid va = .ok e ∧
        u.permitted .write e va = true ∧ o = ⟨lineOf (e.cell va) * 256, 256, id⟩

/-- R161, R163, R166, R168, R169, R295, R329, R333, R338: the matrix commands, which act for their group with the operands of its leader
lane, and the checks of MMA and MDRAIN in the order of R161. That a dimension of 0 is not valid is the model's reading (log 20). Completes: mma,
mdrain, mzero, copys. -/
def Obligations.MatrixCommands : Prop :=
  let full := fun (s : State) (k : CmdKind) => s.matrixFull s.curCore k
  (∀ d a b na nb za q x acc n thr, IssuesForGroup (.mma d a b na nb za q x acc n thr) (opsFuture d [a.toNat] [b.toNat])
    (fun s l => s.mmaLane a b na nb za q x acc n thr l) full) ∧
  (∀ d a b rs cs sat r acc, IssuesForGroup (.mdrain d a b rs cs sat r acc) (opsFuture d [a.toNat] [b.toNat])
    (fun s l => s.mdrainLane a b rs cs sat r acc l) full) ∧
  (∀ d a b, IssuesForGroup (.mzero d a b) (opsFuture d [a.toNat] [b.toNat])
    (fun s l =>
      let base := (s.val a l).toNat; let n := (s.val b l).toNat
      if n ≠ 0 ∧ s.curWindow.accUnits * 4096 < base + n then .trap causeAcc 0 else .cmd (.mzero base n) .queued [] []) full) ∧
  (∀ d a b k, IssuesForGroup (.copys d a b k) (opsFuture d [a.toNat] [b.toNat])
    (fun s l =>
      let w := s.curWindow
      let x := (s.val a l).toNat; let first := (s.val b l).toNat % 65536; let count := (s.val b l).toNat / 65536
      if k = false ∧ x % 4 ≠ 0 then .trap causeMisalign (BitVec.ofNat 64 x)
      else if count ≠ 0 ∧ w.banks * 65536 < x + count * (if k then 1 else 4) then .trap causeScratch (BitVec.ofNat 64 x)
      else if count ≠ 0 ∧ (if k then w.bsUnits * 1024 else w.dsUnits * 256) < first + count then .trap causeAcc 0
      else if count = 0 then .cmd (.copys k x first count) (.written 0 (stRefused 0)) [] []
      else .cmd (.copys k x first count) .queued [] []) full) ∧
  (∀ (s : State) (ra rb : Reg) (na nb za q x : Bool) (acc : BitVec 17) (n : BitVec 4) (thr : BitVec 11) (l : Nat),
    let w := s.curWindow
    let xa := (s.val ra l).toNat; let xb := (s.val rb l).toNat
    let A := shapeOf (w.read xa 32); let B := shapeOf (w.read xb 32)
    let eight := fun (h : Shape) => 3 ≤ h.format ∧ h.format ≤ 5
    let sixteen := fun (h : Shape) => h.format = 1 ∨ h.format = 2
    let dim := fun (m : Nat) => m % 8 = 0 ∧ 8 ≤ m ∧ m ≤ 256
    let valid := ((eight A ∧ eight B ∧ (A.format = 5 ↔ B.format = 5)) ∨
        (sixteen A ∧ sixteen B ∧ A.scaleOff = 0xffff ∧ B.scaleOff = 0xffff)) ∧
      B.rows = A.cols ∧ dim A.rows ∧ dim B.cols ∧ A.cols % (if 3 ≤ A.format then 32 else 8) = 0 ∧ 0 < A.cols ∧ A.cols ≤ 4096 ∧
      A.proper ∧ B.proper
    let kind := CmdKind.mma A B na nb za q (if x then some (n.toNat, thr.toNat) else none) acc.toNat
      ((s.thrAt l).fcw.getLsbD 2) ((s.thrAt l).fcw.getLsbD 3)
    Decides (s.mmaLane ra rb na nb za q x acc n thr l)
      [(xa % 32 ≠ 0, .trap causeMisalign (BitVec.ofNat 64 xa)), (xb % 32 ≠ 0, .trap causeMisalign (BitVec.ofNat 64 xb)),
       (w.banks * 65536 < xa + 32, .trap causeScratch (BitVec.ofNat 64 xa)),
       (w.banks * 65536 < xb + 32, .trap causeScratch (BitVec.ofNat 64 xb)), (¬ valid, refusedAtOnce kind),
       (w.firstOut A ≠ none, w.outTrap A), (w.firstOut B ≠ none, w.outTrap B),
       (w.accUnits * 4096 < acc.toNat + A.rows * B.cols, .trap causeAcc 0),
       ((A.scaleOff ≠ 0xffff ∧ w.bsUnits * 1024 < A.scaleOff + A.rows * (A.cols / 32)) ∨
          (B.scaleOff ≠ 0xffff ∧ w.bsUnits * 1024 < B.scaleOff + B.cols * (A.cols / 32)), .trap causeAcc 0)]
      (.cmd kind .queued (if w.bad xa || w.bad xb then [1] else []) [])) ∧
  (∀ (s : State) (ra rb : Reg) (rs cs sat : Bool) (r : BitVec 3) (acc : BitVec 17) (l : Nat),
    let w := s.curWindow
    let x := (s.val ra l).toNat; let row := (s.val rb l).toNat % 4096; let col := (s.val rb l).toNat / 65536 % 4096
    let D := shapeOf (w.read x 32)
    let valid := (D.format ≤ 5 ∨ D.format = 7) ∧ 1 ≤ D.rows ∧ D.rows ≤ 256 ∧ 1 ≤ D.cols ∧ D.cols ≤ 256 ∧ D.scaleOff = 0xffff ∧ D.proper
    let kind := CmdKind.mdrain D rs cs sat (s.mode l r).mode (s.mode l r).ftz row col acc.toNat
    Decides (s.mdrainLane ra rb rs cs sat r acc l)
      [(x % 32 ≠ 0, .trap causeMisalign (BitVec.ofNat 64 x)), (w.banks * 65536 < x + 32, .trap causeScratch (BitVec.ofNat 64 x)),
       (¬ valid, refusedAtOnce kind), (w.firstOut D ≠ none, w.outTrap D),
       (w.accUnits * 4096 < acc.toNat + D.rows * D.cols, .trap causeAcc 0),
       (rs = true ∧ w.dsUnits * 256 < row + D.rows, .trap causeAcc 0), (cs = true ∧ w.dsUnits * 256 < col + D.cols, .trap causeAcc 0)]
      (.cmd kind .queued (if w.bad x then [1] else []) []))

/-- R144, R184, R187, R188, R190, R191, R275, R280, R282, R285, R286: the bag instructions. BPUT never waits; BTAKE waits for its send rule
and for placements in progress, and BSCAN for the completion times of the placements that it counts. BINFO's selectors name a share's resident count,
the bag's shape, its capacity, Q and the least count. Completes: bput, btake, bscan, bcount,
binfo. -/
def Obligations.BagInstructions : Prop :=
  (∀ d a b f n, LanesAct (.bput d a b f n)
    (fun s => { a := pairRegs a, b := [b.toNat], lanes := laneList.map (s.putRegs d a), visible := true }) (fun _ => True)
    fun s l => s.putLane d a b f n l) ∧
  (∀ d a b f n, LanesAct (.btake d a b f n)
    (fun s => { a := pairRegs a, b := [b.toNat], dst := s.takeRegs d a, visible := true })
    (fun s => s.sent (lanesOf s.active) = true ∧ (∀ n, (s.pch n).computing = false) ∧
      ∀ i j, ((s.bag s.curLaunch.asid i).share j).placing = false)
    fun s l => s.takeLane d a b f n l) ∧
  (∀ d a b c, Executes (.bscan d a b c) { a := pairRegs a, b := [b.toNat], c := [c.toNat], dst := quadRegs d, visible := true }
    (fun s => s.sent (lanesOf s.active) = true ∧ ∀ i j,
      let h := (s.bag s.curLaunch.asid i).share j
      h.ct = 0 ∨ h.ct < s.dtime)
    (fun s => s) fun s l =>
      let sh := (s.val b l).toNat; let cur := (s.val c l).toNat
      match s.handle s.curLaunch.asid (s.val2 a l) with
      | none => trapped causeBagHandle 0
      | some i =>
        let g := s.bag s.curLaunch.asid i
        let n := (g.share sh).c
        let end_ := min n ((cur / (65536 / g.slot) + 1) * (65536 / g.slot))
        if g.count ≤ sh then trapped causeBagHandle 0
        else
          let va := BitVec.ofNat 64 (g.slotVa sh cur)
          { w := [live (loWord va), live (hiWord va)] ++
              if cur < n then [live (BitVec.ofNat 32 (end_ - cur)), live (BitVec.ofNat 32 end_)]
              else [live 0, live (BitVec.ofNat 32 cur)] }) ∧
  (∀ d a, Computes (.bcount d a) { a := pairRegs a, dst := [d.toNat], visible := true } fun s l =>
    match s.handle s.curLaunch.asid (s.val2 a l) with
    | none => trapped causeBagHandle 0
    | some i => gives (BitVec.ofNat 32 (s.bag s.curLaunch.asid i).resident)) ∧
  (∀ d a b, Computes (.binfo d a b) { a := pairRegs a, b := [b.toNat], dst := [d.toNat], visible := true } fun s l =>
    match s.handle s.curLaunch.asid (s.val2 a l) with
    | none => trapped causeBagHandle 0
    | some i => match (s.bag s.curLaunch.asid i).info (s.val b l).toNat with
      | none => trapped causeBagHandle 0
      | some v => gives (BitVec.ofNat 32 v)) ∧
  (∀ (g : Bag) (v : Nat),
    let shares := if g.domain = 0 then 1 else if g.domain = 1 then 64 else 512
    (v < 512 → g.info v = if v < shares then some (g.share v).c else none) ∧
    (∃ k, 2 ^ k = shares ∧ g.info 0x80000000 = some (k + g.size * 2 ^ 4 + g.domain * 2 ^ 6 + g.slack * 2 ^ 8)) ∧
    g.info 0x80000001 = some g.cap ∧
    g.info 0x80000002 = some (if shares = 1 then g.cap else (g.cap + shares - 1) / shares + g.slack) ∧
    (∃ m, g.info 0x80000003 = some m ∧ (∃ i, i < shares ∧ (g.share i).c = m) ∧ ∀ i, i < shares → m ≤ (g.share i).c) ∧
    (512 ≤ v → v ∉ [0x80000000, 0x80000001, 0x80000002, 0x80000003] → g.info v = some 0xffffffff))

/-- R182, R184, R185, R188: a reservation is granted while resident and reserved records are fewer than the capacity, and then takes its
place in the share that the decision of R185 names: the one to which the key hashes, unless that is ahead of the least by B or full, else the least
of its candidates; a granted BPUT leaves the bag that the reservation gives and changes no other bag, and a refused one changes nothing. BTAKE
delivers the newest record of a share with no trap, under F with Z clear, and clears FULL in its slot, one byte of memory; an empty share gives Z
and zeros. A record in a poisoned sector stays resident; that TRAPVA then holds the slot's address is the model's reading (log 39), and so is the
trap of a slot that cannot be reached, or that lies in a sealed page or a code-locked frame (log 64). -/
def Obligations.PutAndTake : Prop :=
  (∀ (g : Bag) (core : Nat) (owner : Option (Nat × Word)) (key : Word) (data : List Byte),
    if g.resident + g.reserved < g.cap then
      ∃ h, g.reserve core owner key data = some h ∧ h = { g with reserved := g.reserved + 1, shares := h.shares } ∧
        (h.share (g.target key)).queue = (g.share (g.target key)).queue ++ [⟨owner, key, data, core, none⟩] ∧
        h.share (g.target key) = { g.share (g.target key) with queue := (h.share (g.target key)).queue } ∧
        ∀ n, n ≠ g.target key → h.share n = g.share n
    else g.reserve core owner key data = none) ∧
  (∀ (g : Bag) (key : Word),
    let n := fun (i : Nat) => (g.share i).c + (g.share i).queue.length
    let aff := ((key &&& g.mask).toNat * 0x9e3779b1) % 2 ^ 32 * g.count / 2 ^ 32
    let cand := fun (i : Nat) => i < g.count ∧ (g.domain = 2 → i / 64 = aff / 64)
    let near := fun (lo : Nat) => n aff < lo + g.slack ∧ n aff < g.q
    let t := g.target key
    (g.count = 1 → t = 0) ∧
    (g.count ≠ 1 → ∀ lo, (∃ i, cand i ∧ n i = lo) → (∀ i, cand i → lo ≤ n i) →
      (near lo → t = aff) ∧
      (¬ near lo → (∃ i, cand i ∧ n i < g.q) → cand t ∧ n t = lo ∧ ∀ i, i < t → cand i → n i ≠ lo) ∧
      (¬ near lo → (∀ i, cand i → g.q ≤ n i) → t < g.count ∧ (∀ i, i < g.count → n t ≤ n i) ∧ ∀ i, i < t → n t < n i))) ∧
  (∀ (s : State) (d a k : Reg) (f : Bool) (n : Cc) (l : Nat) (t : State) (e : Eff), s.putLane d a k f n l = some (t, e) →
    t = { s with aspaces := t.aspaces } ∧
    match s.handle s.curLaunch.asid (s.val2 a l) with
    | none => t = s ∧ e = trapped causeBagHandle 0
    | some i =>
      let g := s.bag s.curLaunch.asid i
      let m := (g.slot - 8) / 4
      let data := (List.range m).flatMap fun j => leBytes 4 (s.curCrew.rd (d.toNat + j) l).toNat
      (64 < d.toNat + m → t = s ∧ e = trapped causeOverrun 0) ∧
      (d.toNat + m ≤ 64 →
        (∀ h, g.reserve s.curCore (some (s.curCrew.launch, (s.thrAt l).tid)) (s.val k l) data = some h →
          e = { cc := if f then some (n, { c := true }) else none } ∧ t.bag s.curLaunch.asid i = h ∧
          ∀ x j, x ≠ s.curLaunch.asid ∨ j ≠ i → t.bag x j = s.bag x j) ∧
        (g.reserve s.curCore (some (s.curCrew.launch, (s.thrAt l).tid)) (s.val k l) data = none →
          t = s ∧ e = if f then { cc := some (n, { z := true }) } else trapped causeBagCap 0))) ∧
  (∀ (s : State) (d a k : Reg) (f : Bool) (n : Cc) (l : Nat) (t : State) (e : Eff), s.takeLane d a k f n l = some (t, e) →
    Memory.wf s.mem = true →
    match s.handle s.curLaunch.asid (s.val2 a l) with
    | none => t = s ∧ e = trapped causeBagHandle 0
    | some i =>
      let g := s.bag s.curLaunch.asid i
      let sh := (s.val k l).toNat
      let h := g.share sh
      let va := g.slotVa sh (h.c - 1)
      (g.count ≤ sh → t = s ∧ e = trapped causeBagHandle 0) ∧
      (sh < g.count → 64 < d.toNat + g.slot / 4 → t = s ∧ e = trapped causeOverrun 0) ∧
      (sh < g.count → d.toNat + g.slot / 4 ≤ 64 →
        (h.c = 0 → t = s ∧ e = { w := List.replicate (g.slot / 4) (live 0), cc := if f then some (n, { z := true }) else none }) ∧
        (0 < h.c → match s.slotPlace s.curCore s.curLaunch.asid va with
          | (u, .error cause) => t = u ∧ e = trapped cause (BitVec.ofNat 64 va)
          | (u, .ok cell) =>
            (u.sectorBad cell = true ∨ u.sectorBad (cell + g.slot - 1) = true → t = u ∧ e = trapped causePoison (BitVec.ofNat 64 va)) ∧
            (u.sectorBad cell = false → u.sectorBad (cell + g.slot - 1) = false →
              e = { w := (List.range (g.slot / 4)).map fun j => live (wordOf ((Memory.readN u.mem cell g.slot).drop (4 * j)))
                    cc := if f then some (n, {}) else none } ∧
              Memory.read t.mem (cell + 6) = Memory.read u.mem (cell + 6) &&& 0xfe ∧
              (∀ x, x ≠ cell + 6 → Memory.read t.mem x = Memory.read u.mem x) ∧
              (t.bag s.curLaunch.asid i) = { g with resident := g.resident - 1, shares := (t.bag s.curLaunch.asid i).shares } ∧
              ((t.bag s.curLaunch.asid i).share sh) = { h with c := h.c - 1 } ∧
              (∀ m, m ≠ sh → (t.bag s.curLaunch.asid i).share m = g.share m) ∧
              ∀ x j, x ≠ s.curLaunch.asid ∨ j ≠ i → t.bag x j = u.bag x j))))

/-! ### System instructions -/

/-- R235, R236, R281, R363, R365, R366: SWRITE replaces FSTAT, FCW or TSTAT without its reserved bits; TRAP and BKPT take their trap in
every lane of G; TRET restores each lane from the frame at its w60:61. What TRET does in one lane: it writes no byte of memory; its checks stand in
order (the stack pointer's alignment, LSIZE, the pages of the frame, the frame's sectors, the target), and the first that fails is its trap; when
none does, it does not trap and restores the condition codes, FCW, FSTAT and TSTAT without their reserved bits, w60 to w63 and the address at which
the thread goes on. That the frame is read in four parts of 16 bytes is the model's reading (log 30). Completes: swrite, trap, bkpt, tret. -/
def Obligations.TrapsAndReturn : Prop :=
  (∀ a i, i = 0x14 ∨ i = 0x15 ∨ i = 0x16 → Computes (.swrite a i) { a := [a.toNat] } fun s l =>
    let v := s.val a l; let u := s.thrAt l
    { thr := some (if i = 0x14 then { u with fstat := v &&& 31 } else if i = 0x15 then { u with fcw := v &&& 31 }
        else { u with tstat := v &&& 1 }) }) ∧
  (∀ i, Executes (.trap i) {} (fun _ => True) (fun s => s.setCrew s.cur.crew { s.curCrew with visible := true })
    fun _ _ => trapped (BitVec.ofNat 32 (i.toNat * 256 + 0x0c)) 0) ∧
  (∀ i, Executes (.bkpt i) {} (fun _ => True) (fun s => s.setCrew s.cur.crew { s.curCrew with visible := true })
    fun _ _ => trapped (BitVec.ofNat 32 (i.toNat * 256 + 0x0d)) 0) ∧
  LanesAct .tret (fun _ => { more := [60, 61], dst := [60, 61, 62, 63] }) State.quietMemory (fun s l => s.tretLane l) ∧
  (∀ (s t : State) (l : Nat) (e : Eff), s.tretLane l = some (t, e) →
    t.mem = s.mem ∧ t.crews = s.crews ∧
    let sp := (s.curCrew.rd2 60 l).toNat
    let va := (s.thrAt l).lbase + s.curCrew.rd2 60 l
    let fault := fun (o : Nat) => match s.translate s.curCore s.curLaunch.asid .read (va.toNat + o) with
      | .error c => some c
      | .ok _ => none
    let resume := fun (f : List Byte) => BitVec.ofNat 64 (field f 0 8)
    (sp % 16 ≠ 0 → t = s ∧ e = trapped causeMisalign va) ∧
    (sp % 16 = 0 → s.curLaunch.lsize * 256 < sp + 64 → t = s ∧ e = trapped causeProt va) ∧
    (sp % 16 = 0 → sp + 64 ≤ s.curLaunch.lsize * 256 →
      (∀ c, [0, 16, 32, 48].findSome? fault = some c → t = s ∧ e = trapped c va) ∧
      ([0, 16, 32, 48].findSome? fault = none →
        (∀ c, s.readFrame va.toNat 4 [] = .trap c → t = s ∧ e = trapped c va) ∧
        (∀ u f, s.readFrame va.toNat 4 [] = .ok u f → t = u ∧
          (∀ c x, u.target u.curCore u.curLaunch.asid (resume f) = .error (c, x) → e = trapped c x) ∧
          (∀ p, u.target u.curCore u.curLaunch.asid (resume f) = .ok p →
            e = { w := [32, 36, 40, 44].map fun o => live (BitVec.ofNat 32 (field f o 4)), pc := .to (resume f)
                  thr := some { s.thrAt l with
                    cc := (List.range 4).map fun n => flagsOf (field f 28 4 / 16 ^ n % 16)
                    fcw := BitVec.ofNat 32 (field f 48 4 % 32), fstat := BitVec.ofNat 32 (field f 52 4 % 32)
                    tstat := BitVec.ofNat 32 (field f 56 4 % 2) } }))))) ∧
  (∀ (s u : State) (va : Nat) (f : List Byte), s.readFrame va 4 [] = .ok u f ↔ ∃ s1 s2 s3 b0 b1 b2 b3,
    s.loadVirt s.curCore s.curLaunch.asid false false va 16 = .ok s1 b0 ∧
    s1.loadVirt s1.curCore s1.curLaunch.asid false false (va + 16) 16 = .ok s2 b1 ∧
    s2.loadVirt s2.curCore s2.curLaunch.asid false false (va + 32) 16 = .ok s3 b2 ∧
    s3.loadVirt s3.curCore s3.curLaunch.asid false false (va + 48) 16 = .ok u b3 ∧ f = b0 ++ b1 ++ b2 ++ b3)

/-- R356, R357: SREAD delivers one register, or a pair for the registers of 64 bits, as the table names them. Completes: sread. -/
def Obligations.SpecialRegisters : Prop :=
  (∀ d i, Computes (.sread d i) { dst := if sreadPair i.toNat then pairRegs d else [d.toNat] } fun s l =>
    { w := s.special i.toNat l }) ∧
  ∀ (s : State) (l : Nat),
    let c := s.curCrew; let u := s.thrAt l; let core := s.core s.curCore
    let n := fun (v : Nat) => [live (BitVec.ofNat 32 v)]
    s.special 0x000 l = [live u.tid] ∧ s.special 0x001 l = n l ∧ s.special 0x002 l = [live c.num] ∧ s.special 0x003 l = n s.curCore ∧
    s.special 0x004 l = n (s.curCore / 16) ∧ s.special 0x005 l = n c.launch ∧ s.special 0x006 l = n s.curLaunch.nthr ∧
    (∀ k, k < 4 → s.special (8 + k) l = match u.herds.getD k none with
      | none => n 0x1ff
      | some h => n h) ∧
    s.special 0x00c l = [live u.share] ∧ s.special 0x010 l = live2 (BitVec.ofNat 64 s.dtime) ∧
    (∃ m : Dword, s.special 0x012 l = live2 m ∧ ∀ k, k < 64 → (m.getLsbD k = true ↔ ∃ r, r < 64 ∧ (c.lane r l).slot = some k)) ∧
    s.special 0x014 l = [live u.fstat] ∧ s.special 0x015 l = [live u.fcw] ∧ s.special 0x016 l = [live u.tstat] ∧
    s.special 0x017 l = n (core.poolIdle.length * 65536 + s.freeRegs s.curCore) ∧ s.special 0x018 l = live2 u.wct ∧
    s.special 0x020 l = n ((s.stackAt (s.curCore / 16)).temp % 65536 * 65536 + (s.die (s.curCore / 32)).temp % 65536) ∧
    s.special 0x021 l = n (s.capWatts * 65536 + s.power % 65536) ∧ s.special 0x030 l = [live u.cause] ∧
    s.special 0x031 l = live2 u.trapPc ∧ s.special 0x033 l = live2 u.trapVa ∧
    ∀ k, k < 16 → s.special (0x40 + k) l = [live (core.trig.getD k 0)]

/-- R218, R222, R237, R319, R350: SCALL issues one command for its group with the lanes' requests of 16 bytes; LAUNCH issues one for each
lane of G whose record is aligned to 128 bytes, without waiting for the send rule. The cause word 0 in SCALL's record head (log 67), and that the
head names the leader lane and its TID (log 23), are the model's choices. Completes: launch, scall. -/
def Obligations.CallsAndLaunches : Prop :=
  (∀ d a i, ∀ s : State, ∀ k ks, s.poised (opsFuture d (quadRegs a) []) = true → s.room (opsFuture d (quadRegs a) []) = true →
    s.active ≠ 0 → s.sent (lanesOf s.active) = true → (s.core s.curCore).freeSlots = k :: ks →
    let requests := laneList.map fun l => if s.inG l then (quadRegs a).flatMap fun r => leBytes 4 (s.curCrew.rd r l).toNat
      else List.replicate 16 0
    let lead := leaderOf s.active
    let head := recordHead s.curCrew.launch (s.thrAt lead).tid s.curCrew.num s.curCore lead 0
    ∃ t, exec (.scall d a i) s = .next t ∧
      Retires s (s.accept s.curCore k s.curCrew.launch s.curLaunch.asid (s.thrAt lead).tid
        (.scall i.toNat s.active head requests (List.replicate 32 none)) .queued []) t (opsFuture d (quadRegs a) [])
        fun _ => { w := [future k] }) ∧
  (∀ (lid core lane : Nat) (tid num cause : Word), recordHead lid tid num core lane cause =
    leBytes 8 lid ++ leBytes 4 tid.toNat ++ leBytes 4 num.toNat ++ leBytes 2 core ++ [BitVec.ofNat 8 lane, 0] ++ leBytes 4 cause.toNat) ∧
  (∀ d a, ∀ s : State, s.poised (opsFuture d (pairRegs a) []) = true → s.room (opsFuture d (pairRegs a) []) = true →
    (lanesOf s.active).countP (fun l => (s.val2 a l).toNat % 128 == 0) ≤ (s.core s.curCore).freeSlots.length →
    let r := s.launchLanes a (s.core s.curCore).slotDeps (lanesOf s.active) (s.core s.curCore).freeSlots
    ∃ t, exec (.launch d a) s = .next t ∧ Retires s r.1 t (opsFuture d (pairRegs a) []) fun l => tget {} r.2 l) ∧
  (∀ (s : State) (a : Reg) (deps : List Dep) (l slot : Nat),
    let r := s.launchLane a deps l slot
    if (s.val2 a l).toNat % 128 ≠ 0 then r = (s, trapped causeMisalign (s.val2 a l))
    else r.2 = { w := [future slot] } ∧ (r.1.core s.curCore).slot slot = (if slot < 64 then .busy s.nextCmd else .free) ∧
      r.1.mem = s.mem ∧ r.1.nextLaunch = s.nextLaunch + 1 ∧
      let x := r.1.launch s.nextLaunch
      x.phase = .sending ∧ x.record = s.val2 a l ∧ x.deps = deps ∧ x.asid = s.curLaunch.asid ∧ x.vi = s.curLaunch.vi ∧
        x.cls = s.curLaunch.cls ∧ x.parent = some (s.curCrew.launch, s.nextCmd))

/-! ### Near-memory microprogram -/

/-- R201, R202, R203: BVEC, MACB, AXPY, RED, ACTV and WMBX act in all 16 bank units at once: exact values are rounded once to nearest even,
and what comes of a poisoned value is poisoned. Each takes one step. How long a unit pauses for normal accesses after 64 steps is the model's choice
(log 78). A sum of products and terms that are finite rounds its exact value
once; FloatArithmetic says what a rounding gives. Completes: mBvec, mMacb, mAxpy, mRed, mActv, mWmbx. -/
def Obligations.UnitArithmetic : Prop :=
  (∀ (xs ys ts : List Nat) (p q z : List Rat), xs.length = ys.length → xs.map (fun x => (fp32.value x).rat) = p.map some →
    ys.map (fun x => (fp32.value x).rat) = q.map some → ts.map (fun x => (fp32.value x).rat) = z.map some →
    let v := ((p.zip q).map fun e => e.1 * e.2).sum + z.sum
    v ≠ 0 → ∀ neg m e, m ≠ 0 → ratOf neg m e = v →
      unitSum ((xs.zip ys).map (fun e => unitMul e.1 e.2) ++ ts.map unitTerm) = (fp32.round unitCtx neg m e).1) ∧
  UnitStep .mBvec (fun b p => { p with
    v := (List.range 16).map fun l => if p.vp + l < b.vecLen then p.vbuf.getD (p.vp + l) {} else {}
    vp := min (p.vp + 16) 4096 }) ∧
  UnitStep .mMacb (fun _ p => { p with
    lane := eachUnit fun u l =>
      let x := at2 p.in0 u l; let y := p.v.getD l {}; let z := at2 p.lane u l
      { w := BitVec.ofNat 32 (unitSum [unitMul x.w.toNat y.w.toNat, unitTerm z.w.toNat]), bad := x.bad || y.bad || z.bad } }) ∧
  UnitStep .mAxpy (fun b p => { p with
    in0 := eachUnit fun u l =>
      let x := at2 p.in0 u l; let y := at2 p.in1 u l
      { w := BitVec.ofNat 32 (unitSum [unitMul b.alpha.toNat x.w.toNat, unitMul b.beta.toNat y.w.toNat]), bad := x.bad || y.bad } }) ∧
  UnitStep .mRed (fun _ p => { p with
    a := (List.range 16).map fun u =>
      let x := p.a.getD u {}
      { w := BitVec.ofNat 32 (unitSum (unitTerm x.w.toNat :: (List.range 16).map fun l => unitTerm (at2 p.lane u l).w.toNat))
        bad := x.bad || (List.range 16).any fun l => (at2 p.lane u l).bad }
    lane := List.replicate 16 (List.replicate 16 {}), vp := 0 }) ∧
  UnitStep .mActv (fun b p =>
    let act := fun (x : PVal) =>
      let n := x.w.toNat
      let nan := (fp32.value n).isNan
      let v := if nan then n
        else if b.activation = 0 then n
        else if b.activation = 1 then (if x.w.getLsbD 31 then 0 else n)
        else (fMinMax fp32 {} false (fMinMax fp32 {} true n b.lo.toNat).1 b.hi.toNat).1
      { x with w := BitVec.ofNat 32 v }
    { p with in0 := p.in0.map fun xs => xs.map act, a := p.a.map act }) ∧
  UnitStep .mWmbx (fun b p => { p with
    mailbox := (List.range 16).foldl (fun t u => tset t (b.mailbox * 256 + (p.mc + u) % 256) (p.a.getD u {})) p.mailbox
    a := List.replicate 16 {}, mc := (p.mc + 16) % 256 })

/-- R121, R129, R197, R199, R201, R202, R203, R209: ROWS, COLS and WCOL move along a stream's rows and elements; they change nothing but the
unit that runs and what its accesses touch. COLS reads the column of its first element and, when its last one lies in the next, that one too. A
page that cannot be reached ends the run with a fault. The pause after 64 steps is the model's choice (log 78). Completes: mRows, mCols, mWcol. -/
def Obligations.UnitStreams : Prop :=
  (∀ sg, ∀ s : State, s.unitReady → (s.pch s.nmCur).fault = false →
    ∃ t, exec (.mRows sg) s = .next t ∧ UnitTouches s t ∧
      let i := sg.toNat; let b := s.flushStream s.nmCur i; let p := b.pch s.nmCur; let q := t.pch s.nmCur
      let str := (s.runOf (s.pch s.nmCur)).2.stream i
      let j := match p.rix.getD i none with
        | none => 0
        | some j => (j + str.rowStride) % str.rows
      t.mem = b.mem ∧ t.owned = s.owned ∧ q.rix.getD i none = some j ∧ q.ep.getD i 0 = 0 ∧ q.col.getD i none = none ∧
      q.openRow = (if q.resumeAt.isSome then none else some (rowAddr (p.base.getD i 0) j 0 / 1024)) ∧
      q.steps = p.steps + 16 ∧ q.fault = p.fault ∧
      (∀ k, k < 4 → k ≠ i → q.rix.getD k none = p.rix.getD k none ∧ q.ep.getD k 0 = p.ep.getD k 0) ∧
      q.in0 = p.in0 ∧ q.in1 = p.in1 ∧ q.lane = p.lane ∧ q.v = p.v ∧ q.a = p.a ∧ q.mailbox = p.mailbox ∧ q.pend = p.pend) ∧
  (∀ sg d, ∀ s : State, s.unitReady → (s.pch s.nmCur).fault = false →
    ∃ t, exec (.mCols sg d) s = .next t ∧ UnitTouches s t ∧
      let i := sg.toNat; let p := s.pch s.nmCur; let q := t.pch s.nmCur
      let b := (s.runOf p).2; let str := b.stream i; let e := p.ep.getD i 0
      let reads := (p.rix.getD i none).isSome = true ∧ e < str.cols * 512 / unitBits str.format
      let late := s.spare (s.runOf p).1 p i
      let r := (s.setPch s.nmCur (p.openFor i late)).readCols s.nmCur (s.runOf p).1 b i e
      (∀ u l, u < 16 → l < 16 → (reads → at2 (if d then q.in1 else q.in0) u l = at2 r.2 u l) ∧
        (¬ reads → at2 (if d then q.in1 else q.in0) u l = {})) ∧
      t.owned = s.owned ∧ (reads → t.mem = r.1.mem) ∧ (¬ reads → t = { s with pchs := t.pchs }) ∧
      (if d then q.in0 = p.in0 else q.in1 = p.in1) ∧ q.lane = p.lane ∧ q.v = p.v ∧ q.a = p.a ∧ q.mailbox = p.mailbox ∧ q.rix = p.rix ∧
      q.ep.getD i 0 = e + 16 ∧ (p.rix.getD i none = none → q.steps = p.steps + 1)) ∧
  (∀ (s : State) (n asid : Nat) (b : NmBlock) (i e : Nat),
    let str := b.stream i; let w := unitBits str.format; let total := str.cols * 512 / w
    let first := e * w / 512; let last := min (e + 15) (total - 1) * w / 512
    let s1 := s.loadColumn n asid i first
    let s2 := if str.format = 6 ∧ e % 64 = 0 then s1.takeScale n asid b i else s1
    let s3 := if last = first then s2 else s2.loadColumn n asid i last
    (s.readCols n asid b i e).1 = s3 ∧
    ∀ u l, u < 16 → l < 16 → at2 (s.readCols n asid b i e).2 u l =
      if e + l < total then
        let p := if (e + l) * w / 512 = first then s2.pch n else s3.pch n
        let c := tget {} p.cbuf (16 * i + u); let k := tget {} p.scale (16 * i + u)
        let x := leNat c.data / 2 ^ ((e + l) % (512 / w) * w) % 2 ^ w
        { w := BitVec.ofNat 32 (unitDequant str.format x k.w.toNat b.scaleF.toNat), bad := c.poison || (str.format == 6 && k.bad) }
      else {}) ∧
  (∀ (s : State) (n asid i c : Nat),
    ((s.pch n).col.getD i none = some c → s.loadColumn n asid i c = s) ∧
    ((s.pch n).col.getD i none ≠ some c →
      let b := s.flushStream n i
      let r := b.mapM (fun s u => s.unitPlace (b.runCore (b.pch n)) asid ((b.pch n).rowVa i u + c * 64) false) (List.range 16)
      let q := (s.loadColumn n asid i c).pch n
      (s.loadColumn n asid i c).mem = r.1.mem ∧
      ((∃ u, u < 16 ∧ r.2.getD u none = none) → q = (b.pch n).failed) ∧
      ((∀ u, u < 16 → r.2.getD u none ≠ none) → (i < 4 → q.col.getD i none = some c) ∧
        ∀ u, u < 16 → ∃ cell, r.2.getD u none = some cell ∧
          tget {} q.cbuf (16 * i + u) = { data := Memory.readN r.1.mem cell 64, poison := r.1.sectorBad cell }))) ∧
  ∀ sg, ∀ s : State, s.unitReady → (s.pch s.nmCur).fault = false →
    ∃ t, exec (.mWcol sg) s = .next t ∧ UnitTouches s t ∧ t = { s with pchs := t.pchs } ∧
      let i := sg.toNat; let p := s.pch s.nmCur; let q := t.pch s.nmCur
      let b := (s.runOf p).2; let str := b.stream i; let e := p.ep.getD i 0
      let size := fmtBytes str.format
      let writes := ((List.range 16).flatMap fun u => (List.range 16).filterMap fun l =>
        if e - 16 + l < str.cols * 512 / unitBits str.format then
          let x := at2 p.in0 u l
          some ({ stream := i, addr := p.rowVa i u + (e - 16 + l) * size
                  data := leBytes size (if str.format = 0 then x.w.toNat else (convert unitCtx 0 str.format x.w.toNat).1)
                  bad := x.bad } : ColWrite)
        else none)
      let idle := e = 0 ∨ p.rix.getD i none = none
      let openRow := fun (r : Option Nat) => q.openRow = if q.resumeAt.isSome then none else r
      (idle → q.pend = p.pend ∧ openRow p.openRow ∧ q.steps = p.steps + 1) ∧
      (¬ idle → q.pend = p.pend ++ writes ∧ openRow (some (p.rowVa i 0 / 1024)) ∧
        q.steps = p.steps + 1 + (if p.openRow = some (p.rowVa i 0 / 1024) then 0 else 16)) ∧
      q.in0 = p.in0 ∧ q.in1 = p.in1 ∧ q.lane = p.lane ∧ q.v = p.v ∧ q.a = p.a ∧ q.mailbox = p.mailbox ∧ q.rix = p.rix ∧ q.ep = p.ep

/-- R201, R143, R203: LOOP counts in its own word and takes no step; END writes the pending columns of every stream, releases what its run
owns on its pseudo-channel, and ends the run there. Completes: mLoop, mEnd. -/
def Obligations.UnitControl : Prop :=
  (∀ n target, ∀ s : State, s.unitReady →
    ∃ t, exec (.mLoop n target) s = .next t ∧ t = { s with pchs := t.pchs } ∧ (∀ k, k ≠ s.nmCur → t.pch k = s.pch k) ∧
      let p := s.pch s.nmCur
      let c := tget n.toNat p.counters p.mpc
      t.pch s.nmCur =
        if 1 < c then { p with counters := tset p.counters p.mpc (c - 1), mpc := target.toNat }
        else { p with counters := tset p.counters p.mpc n.toNat, mpc := p.mpc + 1 }) ∧
  ∀ s : State, s.unitReady → (s.pch s.nmCur).fault = false →
    ∃ t, exec .mEnd s = .next t ∧ UnitTouches s t ∧
      let p := s.pch s.nmCur; let q := t.pch s.nmCur; let b := s.flushAll s.nmCur
      let mine := fun (o : Owned) => o.cmd == p.run.getD 0 && pchOf o.addr == s.nmCur
      t.mem = b.mem ∧ t.bad = b.bad ∧ q.ended = true ∧
      (q.fault = false → q.pend = p.pend.filter (fun w => 4 ≤ w.stream)) ∧
      t.owned = s.owned.filter (fun o => !mine o) ∧
      (∀ o, o ∈ s.owned → mine o = true → s.dtime ≤ q.maxCt ∧ s.horizonOf (lineOf o.addr) ≤ q.maxCt) ∧
      q.mailbox = p.mailbox ∧ q.a = p.a

/-! ### The machine -/

/-- R54, R55, R152, R249: after reset the boot path stands in the ROM; no crew, launch, address space, virtual interface or command exists,
and memory lists no byte; every core's pool has 2 banks, all of whose 1024 registers are free, and its trigger counters are 0. That DTIME
is 0, that memory lists no byte and that every completion slot is free, which no rule says, are the model's choices (logs 5 and 4). Its memory is
canonical and no crew has a number (the canonical form and the numbering are the model's own: logs 4 and 6). -/
def Obligations.ResetState : Prop :=
  (let s := State.reset
  s.boot = .rom ∧ s.tripped = false ∧ s.dtime = 0 ∧ s.mem = [] ∧ s.bad = [] ∧ s.crews = [] ∧ s.launches = [] ∧ s.aspaces = [] ∧
  s.vis = [] ∧ s.cmds = [] ∧ s.traps = [] ∧ s.frames = [] ∧ s.sealed = [] ∧ s.setpoint = none ∧ s.inbox = [] ∧
  ∀ n, (s.core n).poolBanks = 2 ∧ s.freeRegs n = 1024 ∧ (s.core n).windows = [] ∧ (∀ k, k < 16 → (s.core n).trig.getD k 1 = 0) ∧
    ∀ k, k < 64 → (s.core n).slot k = .free) ∧
  Memory.wf State.reset.mem = true ∧ State.reset.numbered

/-- R59, R65, R77, R225: a step takes, in this order, an event of the environment that the module lets happen; an event of its own; the oldest entry
of a reorder buffer of the core whose turn it is, which exec runs as it was decoded; a younger entry that can go on, likewise; or the instruction at the address of the group that a port
of that core takes, which the decoder reads from the packet there and exec runs, with the guard, the last-use bits and the width of its slot; or the
trap that the fetch gives. With nothing left to issue the core's cycle ends. The order and the cores' turns are the model's choice (logs 2
and 3), and so is the refusal of a packet that the scanner refuses (log 12). -/
def Obligations.StepRunsDecoded : Prop :=
  (∀ (s : State) e rest, s.inbox = e :: rest → isEvent e = true → s.lets e = true → step s = exec e { s with inbox := rest }) ∧
  ∀ s : State, s.inbox = [] → s.tripped = false →
    (∀ e p, s.agenda = some (e, p) → step s = exec e { s with nmCur := p }) ∧
    (s.agenda = none → s.nextCore = none → step s = .next s.round) ∧
    ∀ n, s.agenda = none → s.nextCore = some n →
      (∀ k e es, s.nextHead n = some k → (s.crew k).rob = e :: es → ∃ u : State,
        u = { s with cores := u.cores, turn := n } ∧ (∀ m, m ≠ n → u.core m = s.core m) ∧
        u.core n = { s.core n with tried := k :: (s.core n).tried } ∧
        step s = exec e.issue.instr { u with cur := { e.issue with entry := true } }) ∧
      (∀ k j e, s.nextHead n = none → s.nextEarly n = some (k, j) → (s.crew k).rob[j]? = some e →
        step s = exec e.issue.instr { s with cur := { e.issue with early := some j }, turn := n }) ∧
      (s.nextHead n = none → s.nextEarly n = none →
        (s.best n = none → step s = .next (s.tick n)) ∧
        ∀ g, s.best n = some g →
          let c := s.charge n g
          let asid := c.asidOf g.crew
          match c.target n asid g.pc with
          | .error (cause, va) => step s = exec (.takeTrap cause va) { c with cur := { crew := g.crew, mask := g.mask, pc := g.pc } }
          | .ok p =>
            match p.fetch (slotIdx g.pc) with
            | .error r => step s = .refused (.illegalEncoding r)
            | .ok i =>
              step s = exec i.instr { c.holdFetch n asid g.pc with
                cur := { crew := g.crew, mask := g.mask, pc := g.pc, guard := i.guard, lu := i.lu, wide := i.wide
                         instr := i.instr, entry := false, pays := g.pays } })

/-- R74, R77, R251: every step goes on, but for two: a module that has tripped stands still until its environment resets it, and a group
that meets a packet which the scanner refuses, which no executable page holds (R75), is refused by the packet's reason (log 12). No
instruction, operation or event is refused. -/
def Obligations.StepOutcomes : Prop :=
  (∀ (i : Instr) (s : State), ∃ t, exec i s = .next t) ∧
  ∀ s : State,
    match step s with
    | .next _ => True
    | .fault f => f = .thermalTrip ∧ s.tripped = true
    | .refused r => ∃ n g p k, s.nextCore = some n ∧ s.nextHead n = none ∧ s.nextEarly n = none ∧ s.best n = some g ∧
        (s.charge n g).target n ((s.charge n g).asidOf g.crew) g.pc = .ok p ∧ p.fetch (slotIdx g.pc) = .error k ∧
        r = .illegalEncoding k

/-- R68, R69, R71 to R73: an instruction within its limits, encoded, decodes to itself with every operand; and a word that decodes is the
encoding of what it decodes to, so that no bit of it is dropped. R200, R205: a microprogram word within its limits decodes to its
operation, whose word it is, and every other word is refused. -/
def Obligations.EncodeDecode : Prop :=
  ((∀ i : Instr, i.encodable = true → i.wf = true →
    decode ((encode i).getD 0 0) ((encode i).getD 1 0) = .ok i ∧ wideOpcode ((encode i).getD 0 0) = i.isWide ∧
    (encode i).length = if i.isWide then 2 else 1) ∧
  ∀ w x i, decode w x = .ok i → encodeWord i = w ∧ (i.isWide = true → encodeExt i = x)) ∧
  (∀ i : Instr, i.isMicro = true → i.wf = true → decodeMicro (encodeMicro i) = some i) ∧
  (∀ w i, decodeMicro w = some i → encodeMicro i = w ∧ i.isMicro = true ∧ i.wf = true) ∧
  ∀ w, decodeMicro w = none → ∀ i : Instr, i.isMicro = true → i.wf = true → encodeMicro i ≠ w

/-- R69, R71, R72, R80, R344, R341, R348: words that the specification writes out decode to the instructions that it gives them for. -/
def Obligations.DecodeWords : Prop :=
  decode 0x01105186 0 = .ok (.add 4 5 6 true 2) ∧
  decode 0x211c7fff 0 = .ok (.addI 7 7 0xfff) ∧
  decode 0x16658000 0 = .ok (.popc 25 24) ∧
  decode 0x3a100003 0x40000000 = .ok (.movi 4 3 0x40000000) ∧
  decode 0x401461c3 0 = .ok (.fadd 5 6 7 3) ∧
  decode 0x701461c2 0 = .ok (.shfl 5 6 7 false 2) ∧
  decode 0x84348010 0 = .ok (.lda 13 8 0 2 0 false) ∧
  decode 0x85308010 0 = .ok (.strel 12 8 0 2 0) ∧
  decode 0xa303e000 0 = .ok (.ret 62) ∧
  decode 0xa8000002 0 = .ok (.bar 2) ∧
  decode 0xc264c340 0 = .ok (.mzero 25 12 13) ∧
  decode 0xd050828f 0 = .ok (.nmload 20 8 10 15) ∧
  decode 0xd8508010 0 = .ok (.scall 20 8 0x10) ∧
  decode 0xdb040000 0 = .ok (.sread 1 0) ∧
  decode 0xdc005015 0 = .ok (.swrite 5 0x15) ∧
  decode 0 0 = .ok .nop

/-- R47, R66, R68, R70, R74, R76: the decoder delivers the instruction of a slot exactly when the control word, the slot's word, its guard
and its last-use bits pass every check; otherwise the reason that it gives is one of those that fail, with the lowest number. -/
def Obligations.SlotChecks : Prop :=
  ∀ (p : Packet) (n : Nat), p.isExtension n = false →
    (∀ x, p.fetch n = .ok x ↔
      p.ctl.extractLsb' 30 2 = 0 ∧ p.ctl.getLsbD 0 = false ∧ p.ext ≠ 3 ∧ wideOpcode (p.slot n) = p.marksWide n ∧
      decode (p.slot n) (p.slot (n + 1)) = .ok x.instr ∧ x.instr.wf = true ∧ lastUseOk x.instr (p.lu n) = true ∧
      ((p.guard n).extractLsb' 0 4 = 0 ∨ (p.guard n).extractLsb' 0 4 = 15 → (p.guard n).extractLsb' 4 2 = 0) ∧
      x.guard = p.guard n ∧ x.lu = p.lu n ∧ x.wide = p.marksWide n) ∧
    ∀ r, p.fetch n = .error r →
      r ∈ p.ctlReasons ++ p.slotReasons n ∧ ∀ q ∈ p.ctlReasons ++ p.slotReasons n, r.number ≤ q.number

/-- R47, R263: an instruction whose guard is false in every issuing lane retires without effect. -/
def Obligations.GuardFalse : Prop :=
  (∀ (g : BitVec 6) (t : Thread), guardTrue g t =
    let f := t.cc.getD (g.extractLsb' 4 2).toNat {}
    (match (g.extractLsb' 0 4).toNat with
      | 0 => true | 1 => f.z | 2 => !f.z | 3 => f.n != f.v | 4 => f.n == f.v | 5 => !f.z && (f.n == f.v) | 6 => f.z || (f.n != f.v)
      | 7 => !f.c | 8 => f.c | 9 => f.c && !f.z | 10 => !f.c || f.z | 11 => f.n | 12 => !f.n | 13 => f.v | 14 => !f.v | _ => false)) ∧
  ∀ (i : Instr), i.encodable = true → ∀ s : State, s.standing = true → s.active = 0 → s.notStepped → s.cur.early = none → s.headResult = none →
    s.cur.entry = true ∨ ((s.core s.curCore).clash = [] ∧ s.curCrew.rob = []) →
    ∃ t, exec i s = .next t ∧ Retires s s t {} fun _ => {}

/-- R44, R52, R123, R125: w0 reads as zero and takes no write. A lane of G that reads a poisoned half takes POISON, and under the launch's
option a lane that reads a released lane takes RELEASED_READ with RLSD set; the other lanes retire with their results. So it is with every
instruction: where no lane of G can read its sources, all of them trap and nothing is executed; where some can, the instruction either waits, and then
nothing retires or traps, or every lane that cannot read traps. That POISON comes before RELEASED_READ (log 22), and that the trap of the leader
lane's sources is that of every lane of a matrix command (log 23), are the model's choices. -/
def Obligations.SourceTraps : Prop :=
  (∀ (c : Crew) (l : Nat), c.rd 0 l = 0) ∧
  (∀ (c : Crew) (g : Mask) (v : Nat → Lane) (b y : Nat), c.write 0 g v b y = c) ∧
  (∀ d a b, ∀ s : State, s.unblocked (opsRR d a b) = true → s.room (opsRR d a b) = true → s.curLaunch.control.getLsbD 7 = false →
    ∃ t, exec (.mul d a b) s = .next t ∧
      Retires s s t (opsRR d a b) fun l =>
        if s.readable (opsRR d a b) l = true then gives (BitVec.ofNat 32 ((s.val a l).toNat * (s.val b l).toNat))
        else trapped causePoison 0) ∧
  (∀ d a, ∀ s : State, s.unblocked (opsR d a) = true → s.room (opsR d a) = true → s.curLaunch.control.getLsbD 7 = true →
    ∃ t, exec (.mov d a) s = .next t ∧ t.mem = s.mem ∧
      ∀ l, s.inG l = true → (s.curCrew.lane a.toNat l).st = .released → s.curCrew.readTrap false [a.toNat] l = none →
        (t.thrAt l).state = .trapped ∧ (t.thrAt l).trap = some ⟨causeReleased, s.cur.pc, s.nextPc, 0⟩ ∧
        (t.thrAt l).tstat.getLsbD 0 = true ∧ (t.thrAt l).pc = (s.thrAt l).pc ∧ ∀ r, r < 64 → t.val (BitVec.ofNat 6 r) l = s.val (BitVec.ofNat 6 r) l) ∧
  (∀ (c : Crew) (debug : Bool) (rs : List Nat) (l : Nat),
    Decides (c.readTrap debug rs l)
      [(∃ r ∈ rs, ∃ q, c.reg r = some q ∧ (if l < 16 then q.poisonLo else q.poisonHi) = true, some (causePoison, 0)),
       (debug = true ∧ ∃ r ∈ rs, (c.lane r l).st = .released, some (causeReleased, 0))] none) ∧
  ∀ i : Instr, i.encodable = true → ∀ s : State, s.unblocked (operandsOf i s) = true → s.notStepped →
    let o := operandsOf i s
    let cause := fun l => s.curCrew.readTrap (s.curLaunch.control.getLsbD 7) (o.srcsAt l) (o.laneOf l)
    (s.active ≠ 0 → (∀ l, s.inG l = true → cause l ≠ none) →
      ∃ t, exec i s = .next t ∧ Retires s s t o fun l => { trap := cause l }) ∧
    ∃ t, exec i s = .next t ∧
      ((t.curCrew.retired = s.curCrew.retired ∧ t.traps = s.traps) ∨
        ∀ l c va, s.inG l = true → cause l = some (c, va) →
          (t.thrAt l).state = .trapped ∧ (t.thrAt l).trap = some ⟨c, s.cur.pc, s.nextPc, va⟩ ∧ (t.thrAt l).pc = (s.thrAt l).pc)

/-- R49, R51, R56, R59, R60, R62, R225, R260, R304, R314: the oldest crew allocates while FREE is above zero and every other while it is above 96
and no other crew has waited for longer; a crew waits since the first of its entries has. An instruction that cannot allocate waits at the head of
its crew with its result unwritten; every statement of a result says so of its own instruction, through Computes, Executes, LanesAct, IssuesPerLane
and IssuesForGroup. An instruction that needs a bank from which another has read in the cycle loses its port and nothing else. One that issues
behind unretired entries of its crew becomes the youngest of them, unless a lane whose sources are ready reads a pending future, or waits in FWANY
or FWALL, and enters FUTURE. Younger entries execute as soon as what they read is ready, with the registers and flags that older ones leave;
FCANCEL then cancels, and FTEST looks. Executed entries retire in order, with their results. That a register read back from a spill slot comes
behind the results for which other crews wait is the model's choice (log 81), and so is which instructions wait for the head (log 1). -/
def Obligations.AllocationAndBanks : Prop :=
  (∀ (s : State) (k n : Nat), (s.crew k).core = some n →
    (s.mayAllocate k 1 = true ↔ if s.isOldest n k then 0 < s.freeRegs n else 96 < s.freeRegs n ∧
      ∀ e ∈ s.crewsOn n, e.1 ≠ k → s.isOldest n e.1 = false → ∀ x, e.2.waitsSince = some x →
        ∃ y, (s.crew k).waitsSince = some y ∧ y ≤ x)) ∧
  (∀ (c : Crew) (x : Nat), c.waitsSince = some x ↔
    (∃ e ∈ c.rob, e.why = some 0 ∧ e.since = x) ∧ ∀ e ∈ c.rob, e.why = some 0 → x ≤ e.since) ∧
  (∀ d a b, ∀ s : State, s.poised (opsRR d a b) = true → s.active ≠ 0 → s.room (opsRR d a b) = false →
    ∃ t, exec (.mul d a b) s = .next t ∧ Waits s t (opsRR d a b) 0) ∧
  (∀ i : Instr, i.encodable = true → ∀ s : State, s.standing = true → s.cur.early = none → s.cur.entry = false → s.notStepped →
    let o := operandsOf i s
    (o.banks s.curCrew).any (s.core s.curCore).clash.contains = true →
    ∃ t, exec i s = .next t ∧ t = { s with crews := t.crews, cores := t.cores } ∧ (∀ k, k ≠ s.cur.crew → t.crew k = s.crew k) ∧
      (∀ n, n ≠ s.curCore → t.core n = s.core n) ∧
      t.core s.curCore = { s.core s.curCore with counted := s.cur.crew :: (s.core s.curCore).counted } ∧
      t.curCrew = { s.curCrew with stalls := t.curCrew.stalls } ∧
      t.curCrew.stalls.getD 10 0 = min (s.curCrew.stalls.getD 10 0 + 1) 0xffffffff ∧
      ∀ k, k < 16 → k ≠ 10 → t.curCrew.stalls.getD k 0 = s.curCrew.stalls.getD k 0) ∧
  (∀ i : Instr, i.encodable = true → ∀ s : State, s.issuesBehind (operandsOf i s) →
    let o := operandsOf i s
    let c := s.curCrew
    let k := c.rob.length
    let v := c.seen k
    let g := v.guarded s.cur
    let all := o.srcs ++ o.lanes.flatten
    let pends := fun (l : Nat) (r : Nat) => (v.lane r (o.laneOf l)).pend
    let waits := fun (l : Nat) => g.getLsbD l && c.ready k (laneMask l) (o.srcsAt l) s.cur.ccs && !o.peek && (o.srcsAt l).any (pends l)
    let busy := fun (j : Nat) => !((s.core s.curCore).slot j).ready
    let mask := fun (l : Nat) => match i with
      | .fwany _ a | .fwall a => (List.range 64).filter fun j => (v.rd2 a.toNat l).getLsbD j
      | _ => []
    let any' := match i with
      | .fwany .. => true
      | _ => false
    let stays := fun (l : Nat) => g.getLsbD l && (s.thrAt l).got.isNone && !(mask l).isEmpty && (if any' then (mask l).all busy else (mask l).any busy)
    let ready := c.ready k s.cur.mask all s.cur.ccs
    ((∃ l, l < 32 ∧ waits l = true) → ∃ t, exec i s = .next t ∧ Behind s t ∧ t.cores = s.cores ∧
      t.curCrew = { c with threads := t.curCrew.threads } ∧
      ∀ l, l < 32 → t.thrAt l = if waits l then
        { s.thrAt l with state := .future, waitAll := true
                         waitMask := slotMask ((o.srcsAt l).filterMap fun r => if pends l r then (v.lane r (o.laneOf l)).slot else none) }
        else s.thrAt l) ∧
    ((∀ l, l < 32 → waits l = false) → ready = true → (∃ l, l < 32 ∧ stays l = true) → ∃ t, exec i s = .next t ∧ Behind s t ∧ t.cores = s.cores ∧
      t.curCrew = { c with threads := t.curCrew.threads } ∧
      ∀ l, l < 32 → t.thrAt l =
        if stays l then { s.thrAt l with state := .future, waitMask := v.rd2 (o.a.getD 0 0) l, waitAll := !any', got := none, waitG := g }
        else if s.inGroup l then { s.thrAt l with got := some ((s.thrAt l).got.getD (((mask l).find? fun j => !busy j).getD 64)), waitMask := 0, waitG := g }
        else s.thrAt l) ∧
    ((∀ l, l < 32 → waits l = false) → ready = false ∨ (∀ l, l < 32 → stays l = false) →
      let y : RobEntry := { issue := s.cur, srcs := all, dst := o.dst, ends := o.released s.cur.lu, since := s.cycleOf s.cur.crew }
      (executesEarly i = false ∨ ready = false → ∃ t, exec i s = .next t ∧ Behind s t ∧
        t.core s.curCore = { s.core s.curCore with
          clash := o.banks c ++ (s.core s.curCore).clash, counted := s.cur.crew :: (s.core s.curCore).counted
          portUse := (t.core s.curCore).portUse } ∧
        t.curCrew = { c with threads := t.curCrew.threads, issued := c.issued + 1, rob := c.rob ++ [y] } ∧
        ∀ l, l < 32 → t.thrAt l = if s.inGroup l then { s.thrAt l with readySince := s.cycleOf s.cur.crew } else s.thrAt l) ∧
      (executesEarly i = true → ready = true → (∀ a, i ≠ .fcancel a) → v.clears o g → ∃ t, exec i s = .next t ∧ Behind s t ∧
        t.curCrew.issued = c.issued + 1 ∧
        (∃ z, t.curCrew.rob = c.rob ++ [z] ∧ z = { y with res := z.res, why := z.why, since := z.since, banks := z.banks } ∧ z.res.map (·.go) = some g) ∧
        ∀ l, l < 32 → t.thrAt l = if s.inGroup l then { s.thrAt l with readySince := s.cycleOf s.cur.crew } else s.thrAt l))) ∧
  (∀ d a b f n, ComputesEarly (.add d a b f n) (opsRR d a b) fun s l =>
    { gives (s.val a l + s.val b l) with cc := if f then some (n, sumFlags (s.val a l) (s.val b l) false) else none }) ∧
  (∀ d a b, ComputesEarly (.mul d a b) (opsRR d a b) fun s l => gives (BitVec.ofNat 32 ((s.val a l).toNat * (s.val b l).toNat))) ∧
  (∀ o, ComputesEarly (.br o) {} fun s _ => { pc := .to (s.packetsOn o) }) ∧
  (∀ d a, ComputesEarly (.ftest d a) { a := [a.toNat], dst := [d.toNat], peek := true } fun s l =>
    let x := s.curCrew.lane a.toNat l
    gives (match x.slot with
      | none => 0xc0000000
      | some k => BitVec.ofNat 32 (if x.pend then k else 2 ^ 31 + k))) ∧
  (∀ (a : Reg) (s : State) (k : Nat) (e : RobEntry),
    let o : Operands := { a := [a.toNat], peek := true }
    (s.cur.early = some k ∧ s.curCrew.rob[k]? = some e ∧ e.res = none) ∨
      (s.issuesBehind o ∧ k = s.curCrew.rob.length ∧ e.issue = s.cur ∧ s.curCrew.ready k s.cur.mask o.srcs s.cur.ccs = true) →
    let v := s.curCrew.seen k
    let g := v.guarded e.issue
    v.clears o g → (∀ l, g.getLsbD l = true → v.readTrap (s.curLaunch.control.getLsbD 7) [a.toNat] l = none ∧
      v.lane a.toNat l = s.curCrew.lane a.toNat l) →
    let b := ((lanesOf g).filterMap fun l =>
        if (s.curCrew.lane a.toNat l).pend then (s.curCrew.lane a.toNat l).slot else none).foldl (fun t k => t.cancelSlot t.curCore k) s
    ∃ t y, exec (.fcancel a) s = .next t ∧ t.cmds = b.cmds ∧ t.launches = b.launches ∧ t.curCrew.rob[k]? = some y ∧ y.res.map (·.go) = some g) ∧
  (∀ (c : Crew) (k : Nat) (e : RobEntry) (r : Result) (d : Nat), c.rob[k]? = some e → e.res = some r → e.dst = [d] → d ∉ e.ends →
    ∀ l, l < 32 →
      let own := e.issue.mask.getLsbD l && r.go.getLsbD l && (r.eff.getD l {}).trap.isNone
      (∀ x xs, own = true → d ≠ 0 → d < 64 → (r.eff.getD l {}).w = x :: xs → (c.seen (k + 1)).lane d l = x) ∧
      (∀ w, w < 64 → own = false ∨ w ≠ d ∨ (r.eff.getD l {}).w = [] → (c.seen (k + 1)).rd w l =
        if own = true ∧ w ∈ e.ends then 0 else (c.seen k).rd w l) ∧
      ((c.seen (k + 1)).thr l).cc = match if own then (r.eff.getD l {}).cc else none with
        | none => ((c.seen k).thr l).cc
        | some (n, f) => setAt 4 {} ((c.seen k).thr l).cc n.toNat f) ∧
  ∀ i : Instr, i.encodable = true → ∀ (s : State) (e : RobEntry) (es : List RobEntry) (r : Result),
    s.standing = true → s.cur.early = none → s.cur.entry = true → s.curCrew.rob = e :: es → e.res = some r → e.lacks = 0 →
    let o := operandsOf i s
    let eff := fun (l : Nat) => r.eff.getD l {}
    r.go &&& s.cur.mask = s.active → (∀ l, l < 32 → r.dead.getLsbD l = s.readsDead o l ∧ (eff l).thr = none) →
    ∃ t, exec i s = .next t ∧ (s.cur.fresh = false → Retires s s t o eff) ∧
      t.curCrew.rob = (if s.traps1 eff then [] else es) ∧
      ∀ l, l < 32 → s.inG l = true → (eff l).trap = none → (t.thrAt l).pc = match (eff l).pc with
        | .seq => s.nextPc
        | .to a => a
        | .kept => (s.thrAt l).pc

/-- R264: the flags that the integer entries compute, of a sum, and of a difference as the sum with the complement and a carry that stands
for no borrow. -/
def Obligations.FlagRule : Prop :=
  (∀ n, n = 32 ∨ n = 64 → ∀ (x y : BitVec n) (cin : Bool),
    let sum := x.toNat + y.toNat + cin.toNat
    let v : Int := x.toInt + y.toInt + (cin.toNat : Int)
    addFlags x.toNat y.toNat cin.toNat n =
      (sum % 2 ^ n, { n := (BitVec.ofNat n sum).getLsbD (n - 1), z := decide (sum % 2 ^ n = 0), c := decide (2 ^ n ≤ sum)
                      v := decide (v < -(2 ^ (n - 1)) ∨ 2 ^ (n - 1) - 1 < v) }) ∧
    subFlags x.toNat y.toNat cin.toNat n = addFlags x.toNat (~~~ y).toNat cin.toNat n ∧
    (subFlags x.toNat y.toNat cin.toNat n).2.c = decide (y.toNat + 1 ≤ x.toNat + cin.toNat) ∧
    (addFlags x.toNat y.toNat cin.toNat n).2 = sumFlags x y cin) ∧
  (∀ d a b f n, Computes (.sub d a b f n) (opsRR d a b) fun s l =>
    let r := addFlags (s.val a l).toNat (~~~ s.val b l).toNat 1 32
    { gives (BitVec.ofNat 32 r.1) with cc := if f then some (n, r.2) else none }) ∧
  (∀ d a b f n, Computes (.subb d a b f n) (opsRR d a b) fun s l =>
    let r := addFlags (s.val a l).toNat (~~~ s.val b l).toNat ((s.thrAt l).flags n).c.toNat 32
    { gives (BitVec.ofNat 32 r.1) with cc := if f then some (n, r.2) else none }) ∧
  (∀ n a b, Computes (.cmp n a b) { a := [a.toNat], b := [b.toNat] } fun s l =>
    { cc := some (n, (addFlags (s.val a l).toNat (~~~ s.val b l).toNat 1 32).2) }) ∧
  (∀ n a i, Computes (.cmpI n a i) { a := [a.toNat] } fun s l =>
    { cc := some (n, (addFlags (s.val a l).toNat (~~~ i.signExtend 32 : Word).toNat 1 32).2) }) ∧
  (∀ n a b, Computes (.cmp64 n a b) { a := pairRegs a, b := pairRegs b } fun s l =>
    { cc := some (n, (addFlags (s.val2 a l).toNat (~~~ s.val2 b l).toNat 1 64).2) }) ∧
  (∀ d a b f n, Computes (.add d a b f n) (opsRR d a b) fun s l =>
    let r := addFlags (s.val a l).toNat (s.val b l).toNat 0 32
    { gives (BitVec.ofNat 32 r.1) with cc := if f then some (n, r.2) else none }) ∧
  (∀ d a b f n, Computes (.addc d a b f n) (opsRR d a b) fun s l =>
    let r := addFlags (s.val a l).toNat (s.val b l).toNat ((s.thrAt l).flags n).c.toNat 32
    { gives (BitVec.ofNat 32 r.1) with cc := if f then some (n, r.2) else none }) ∧
  ∀ d a b f n, Computes (.add64 d a b f n) { a := pairRegs a, b := pairRegs b, dst := pairRegs d } fun s l =>
    let r := addFlags (s.val2 a l).toNat (s.val2 b l).toNat 0 64
    { gives2 (BitVec.ofNat 64 r.1) with cc := if f then some (n, r.2) else none }

/-- R266, R284, R289, R344: ABS, BREV, CLZ and POPC, with their encodings. Completes: abs, clz, popc, brev. -/
def Obligations.UnaryRules : Prop :=
  (∀ (d a : Reg) (x : Word), decode (0x0c#8 ++ d ++ a ++ 0#6 ++ 0#6) x = .ok (.abs d a) ∧
    decode (0x17#8 ++ d ++ a ++ 0#6 ++ 0#6) x = .ok (.brev d a) ∧ decode (0x15#8 ++ d ++ a ++ 0#6 ++ 0#6) x = .ok (.clz d a) ∧
    decode (0x16#8 ++ d ++ a ++ 0#6 ++ 0#6) x = .ok (.popc d a)) ∧
  decode 0x0c146000 0 = .ok (.abs 5 6) ∧ decode 0x170c4000 0 = .ok (.brev 3 4) ∧ decode 0x150c4000 0 = .ok (.clz 3 4) ∧
  decode 0x16658000 0 = .ok (.popc 25 24) ∧
  (∀ d a, Computes (.abs d a) (opsR d a) fun s l =>
    gives (if (s.val a l).getLsbD 31 = false then s.val a l else BitVec.ofNat 32 ((2 ^ 32 - (s.val a l).toNat) % 2 ^ 32))) ∧
  (∀ d a, Computes (.brev d a) (opsR d a) fun s l => gives (wordOfBits fun i => (s.val a l).getLsbD (31 - i))) ∧
  (∀ d a, Computes (.clz d a) (opsR d a) fun s l =>
    gives (BitVec.ofNat 32 (((List.range 32).find? fun i => (s.val a l).getLsbD (31 - i)).getD 32))) ∧
  ∀ d a, Computes (.popc d a) (opsR d a) fun s l =>
    gives (BitVec.ofNat 32 ((List.range 32).countP fun i => (s.val a l).getLsbD i))

/-- R100, R305: FCLASS writes the one-hot class of its operand's encoding, never flushed, and no flag. Completes: fclass. -/
def Obligations.FloatClass : Prop :=
  (∀ (d a : Reg) (x : Word), decode (0x47#8 ++ d ++ a ++ 0#6 ++ 0#6) x = .ok (.fclass d a)) ∧
  decode 0x47146000 0 = .ok (.fclass 5 6) ∧
  ∀ d a, Computes (.fclass d a) (opsR d a) fun s l =>
    let v := s.val a l
    let neg := v.getLsbD 31
    let e := v.extractLsb' 23 8
    let f := v.extractLsb' 0 23
    gives (if e = 0xff ∧ f ≠ 0 then (if v.getLsbD 22 then 0x200 else 0x100)
      else if e = 0xff then (if neg then 0x1 else 0x80)
      else if e ≠ 0 then (if neg then 0x2 else 0x40)
      else if f ≠ 0 then (if neg then 0x4 else 0x20)
      else if neg then 0x8 else 0x10)

/-- R115: where a byte of device memory lies, by its physical address and the layout of its page. Memory keeps it under a number whose
parts are the pseudo-channel, the bank, the row, the column and the place in the column. -/
def Obligations.CellPlacement : Prop :=
  (∀ pa, pa < 2 ^ 39 → ∀ bl,
    let c := cellOf pa bl
    let stack := pa / 2 ^ 36
    let row := c / 2 ^ 10 % 2 ^ 16
    let col := c / 2 ^ 6 % 16
    let bank := c / 2 ^ 26 % 16
    c < 2 ^ 39 ∧ c % 2 ^ 6 = pa % 2 ^ 6 ∧ col % 4 = pa / 2 ^ 6 % 4 ∧
    if bl then
      pchOf c = 64 * stack + pa / 2 ^ 30 % 64 ∧ bank = pa / 2 ^ 12 % 16 ∧ row = 4 * (pa / 2 ^ 16 % 2 ^ 14) + pa / 2 ^ 10 % 4 ∧
      col / 4 = pa / 2 ^ 8 % 4
    else
      pchOf c = 64 * stack + Nat.xor (pa / 2 ^ 8 % 64) (pa / 2 ^ 14 % 64) ∧ bank = pa / 2 ^ 14 % 16 ∧ row = pa / 2 ^ 20 % 2 ^ 16 ∧
      col / 4 = pa / 2 ^ 18 % 4) ∧
  (∀ pa pb bl, pa < 2 ^ 39 → pb < 2 ^ 39 → cellOf pa bl = cellOf pb bl → pa = pb) ∧
  (∀ pa a, pa < 2 ^ 39 → pa % 256 = 0 → a < 256 → ∀ bl, cellOf (pa + a) bl = cellOf pa bl + a) ∧
  (∀ pa k, pa < 2 ^ 39 → pa % 2 ^ 16 = 0 → k < 64 →
    ((List.range 256).countP fun i => pchOf (cellOf (pa + 256 * i) false) == 64 * (pa / 2 ^ 36) + k) = 4) ∧
  ∀ pa, pa < 2 ^ 39 → pa % 2 ^ 16 = 0 →
    ∀ b r, b < 16 → r < 4 →
      ((List.range 256).countP fun i =>
        let c := cellOf (pa + 256 * i) true
        pchOf c == pchOf (cellOf pa true) && c / 2 ^ 26 % 16 == b && c / 2 ^ 10 % 2 ^ 16 == cellOf pa true / 2 ^ 10 % 2 ^ 16 + r) = 4

/-- R4 and log 4: every step, whatever it runs, leaves memory in its canonical form, so that equal memories are equal data. -/
def Obligations.MemoryCanonical : Prop := Kept fun s => Memory.wf s.mem = true

/-- R127: DTIME never goes back, but for a reset. -/
def Obligations.TimeForward : Prop :=
  ∀ s t : State, step s = .next t → (∃ image rest, s.inbox = .resetBoot image :: rest) ∨ s.dtime ≤ t.dtime

/-- Log 6: every step keeps the numbers of crews below the next one to be given, so that a new crew takes no other's place. -/
def Obligations.CrewsNumbered : Prop := Kept State.numbered

/-! ### Events: each has its effect when it can happen, and changes nothing else than what is named -/

/-- R63, R230, R371: the lanes of an issue group whose fetch traps are TRAPPED at their instruction, each with a record to the service.
R119, R232: a repaired thread replays its instruction. R231, R233, R234: the launch's policy kills the launch, once the cycle of the record is
over and no record of the launch comes before it, or kills the thread, holds it, or delivers it, READY, to the user trap entry with w60:61 at its
frame. What kills a launch is KILL_LAUNCH, and USER when the frame lies outside the local window or its store traps. R258: a breakpoint under a debugger lets its halt set run on. A debugger kills a held thread or lets it go on; that it goes on behind a TRAP
or BKPT is the model's reading (log 44), and so are the four stores of the frame and the wait for its registers (log 30). Completes: takeTrap,
pageRepair, trapPolicy, debuggerRelease. -/
def Obligations.TrapEvents : Prop :=
  (∀ (s : State) (cause : Word) (va : Dword), s.curCrew.running = true → s.curCrew.rob = [] → s.cur.mask ≠ 0 →
    (∀ l, s.inGroup l = true → (s.thrAt l).eligible = true ∧ (s.thrAt l).pc = s.cur.pc) →
    s.target s.curCore s.curLaunch.asid s.cur.pc = .error (cause, va) →
    ∃ t, exec (.takeTrap cause va) s = .next t ∧ t = { s with crews := t.crews, traps := t.traps } ∧
      (∀ k, k ≠ s.cur.crew → t.crew k = s.crew k) ∧ t.curCrew.map = s.curCrew.map ∧
      (∀ l, l < 32 → t.thrAt l = if s.inGroup l then
        { s.thrAt l with state := .trapped, trap := some ⟨cause, s.cur.pc, s.cur.pc, va⟩ } else s.thrAt l) ∧
      t.traps = s.traps ++ (lanesOf s.cur.mask).map fun l =>
        { name := s.nameOf s.curCrew.launch (s.thrAt l).tid, launch := s.curCrew.launch, tid := (s.thrAt l).tid, crew := s.cur.crew
          num := s.curCrew.num, core := s.curCore, lane := l
          info := ⟨cause, s.cur.pc, s.cur.pc, va⟩, dtime := s.dtime, vi := s.curLaunch.vi, asid := s.curLaunch.asid }) ∧
  (∀ (s b : State) (k : Nat) (r : TrapRec), s.traps[k]? = some r → causeCode r.info.cause = 2 → (s.trapThread r).isSome = true →
    s.repairFor r = some b → r.lane < 32 →
    ∃ t, exec (.pageRepair k) s = .next t ∧ t = { b with crews := t.crews, traps := dropAt b.traps k } ∧
      (∀ n, n ≠ r.crew → t.crew n = b.crew n) ∧ (t.crew r.crew).map = (b.crew r.crew).map ∧
      ∀ l, l < 32 → (t.crew r.crew).thr l = if l = r.lane then
        { ((b.crew r.crew).thr l).wake (b.cycleOf r.crew) with pc := r.info.pc, trap := none } else (b.crew r.crew).thr l) ∧
  (∀ (s : State) (k : Nat) (r : TrapRec), s.traps[k]? = some r → (s.trapThread r).isSome = true →
    (causeCode r.info.cause = 2 → s.repairFor r = none) → r.lane < 32 →
    let x := s.launch r.launch
    let b := s.dropTrap k
    let mayKill := r.dtime < s.dtime ∧ ∀ q ∈ s.traps, q.launch = r.launch → q.comesBefore r = true → s.kills q = false
    (causeCode r.info.cause = 0x0d → x.debugger = false) →
    (s.kills r = true → ¬mayKill → exec (.trapPolicy k) s = .next s) ∧
    (x.policy = 0 → s.kills r = true ∧ (mayKill → exec (.trapPolicy k) s = .next (b.killLaunch r.launch (causeCode r.info.cause)))) ∧
    (x.policy = 1 → s.kills r = false ∧ exec (.trapPolicy k) s = .next (b.killThread r.crew r.lane)) ∧
    (x.policy = 3 → s.kills r = false ∧ exec (.trapPolicy k) s = .next b) ∧
    (x.policy = 2 → x.phase = .running → x.killCause = none → ∀ b1, s.unspill r.crew [60, 61, 62, 63] = some b1 →
      let c := b1.crew r.crew
      let f := (c.rd2 60 r.lane &&& ~~~ 15) - 64
      (s.kills r = true ↔ x.localBytes < f.toNat + 64 ∨ ∃ cause, b1.storeFrame c.lastCore x.asid r.launch r.tid
        ((c.thr r.lane).lbase.toNat + f.toNat) (chunks 16 4 (trapFrame c r.lane r.info)) = .trap cause)) ∧
    (x.policy = 2 → (s.kills r = true → mayKill) → ∀ b1, b.unspill r.crew [60, 61, 62, 63] = some b1 →
      let c := b1.crew r.crew
      let f := (c.rd2 60 r.lane &&& ~~~ 15) - 64
      let frame := b1.storeFrame c.lastCore x.asid r.launch r.tid ((c.thr r.lane).lbase.toNat + f.toNat) (chunks 16 4 (trapFrame c r.lane r.info))
      (c.core.isSome = true → b1.mayAllocate r.crew c.framesRegs.length = true) →
      (x.localBytes < f.toNat + 64 → exec (.trapPolicy k) s = .next (b1.killLaunch r.launch (causeCode r.info.cause))) ∧
      (f.toNat + 64 ≤ x.localBytes →
        (∀ cause, frame = .trap cause → exec (.trapPolicy k) s = .next (b1.killLaunch r.launch (causeCode r.info.cause))) ∧
        ∀ b2 bs, frame = .ok b2 bs →
          let cell := fun (y : Nat) => c.evictCell (256 * y)
          ∃ t, exec (.trapPolicy k) s = .next t ∧ (c.core.isSome = true → t.mem = b2.mem) ∧
            (c.core = none → Memory.wf s.mem = true →
              (∀ a, ¬(cell 60 ≤ a ∧ a < cell 60 + 256) → ¬(cell 61 ≤ a ∧ a < cell 61 + 256) → Memory.read t.mem a = Memory.read b2.mem a) ∧
              (c.area.isSome = true → ∀ y, y = 60 ∨ y = 61 → ∀ l, l < 32 → ((t.crew r.crew).lane y l).st = .live →
                Memory.readN t.mem (cell y + 4 * l) 4 = leBytes 4 ((t.crew r.crew).lane y l).val.toNat)) ∧
            t.traps = b2.traps ∧ (∀ n, n ≠ r.crew → t.crew n = b2.crew n) ∧
            (t.crew r.crew).visible = true ∧ (t.crew r.crew).rd2 60 r.lane = f ∧
            (∀ y l, y < 64 → l < 32 → (l = r.lane → y ≠ 60 ∧ y ≠ 61) → (t.crew r.crew).rd y l = (b2.crew r.crew).rd y l) ∧
            (∀ l, l < 32 → l ≠ r.lane → (t.crew r.crew).thr l = (b2.crew r.crew).thr l) ∧
            (t.crew r.crew).thr r.lane = { ((b2.crew r.crew).thr r.lane).wake (b2.cycleOf r.crew) with
              pc := x.trapEntry, trap := none, cause := r.info.cause, trapPc := r.info.pc, trapVa := r.info.va }))) ∧
  (∀ (s : State) (k : Nat) (r : TrapRec), s.traps[k]? = some r → (s.trapThread r).isSome = true → causeCode r.info.cause = 0x0d →
    (s.launch r.launch).debugger = true →
    ∃ t, exec (.trapPolicy k) s = .next t ∧
      t = { s with crews := t.crews, clusters := t.clusters, launches := t.launches, traps := dropAt s.traps k } ∧
      (∀ n, t.cluster n = { s.cluster n with bins := (t.cluster n).bins }) ∧
      (∀ n, t.launch n = { s.launch n with spill := (t.launch n).spill }) ∧
      (∀ n ∈ s.threadCrews r.crew r.lane, (s.crew n).halted = false → (t.crew n).stepping.isSome = true ∧ (t.crew n).halted = false) ∧
      ∀ n, (t.crew n).map = (s.crew n).map) ∧
  ∀ (s : State) (lid : Nat) (tid : Word) (n l : Nat) (i : TrapInfo), (s.launch lid).debugger = true → s.findThread lid tid = some (n, l) →
    ((s.crew n).thr l).trap = some i → (∀ r ∈ s.traps, ¬(r.launch = lid ∧ r.tid = tid)) →
    exec (.debuggerRelease lid tid true) s = .next (s.killThread n l) ∧
    ∃ t, exec (.debuggerRelease lid tid false) s = .next t ∧ t = { s with crews := t.crews } ∧ (∀ k, k ≠ n → t.crew k = s.crew k) ∧
      (t.crew n).map = (s.crew n).map ∧
      ∀ k, k < 32 → (t.crew n).thr k = if k = l then
        { ((s.crew n).thr k).wake (s.cycleOf n) with
          pc := if i.cause.toNat % 256 = 0x0c ∨ i.cause.toNat % 256 = 0x0d then i.next else i.pc, trap := none }
        else (s.crew n).thr k

/-- R24, R21, R34, R35, R17: a meeting's deadline releases its waiting threads once its cycle is over; the hold of a YIELD ends, counted by the clock
of the crew's core, or of its cluster while it has none; a bin whose
timer has expired becomes a crew of its threads in the order of their entry, which starts at the bin's entry and joins its cluster's queue, and
threads that have spilled take its place. Completes: meetDeadline, yieldExpiry, binTimerExpiry. -/
def Obligations.TimedReleases : Prop :=
  (∀ (s : State) (k id d : Nat) (m : Meeting), (s.crew k).meeting id = some m → m.deadline = some d → d < (s.crew k).now → m.wait ≠ 0 →
    ∃ t, exec (.meetDeadline k id) s = .next t ∧ t = { s with crews := t.crews } ∧ (∀ n, n ≠ k → t.crew n = s.crew n) ∧
      (t.crew k).map = (s.crew k).map ∧
      ∀ l, l < 32 → (t.crew k).thr l = if m.wait.getLsbD l then
        { ((s.crew k).thr l).wake (s.cycleOf k) with stack := ((s.crew k).thr l).stack.erase m.id, pc := m.addr }
        else (s.crew k).thr l) ∧
  (∀ (s : State) (k l y : Nat), ((s.crew k).thr l).hold = some y → y ≤ s.holdClock k → l < 32 →
    ∃ t, exec (.yieldExpiry k l) s = .next t ∧ t = { s with crews := t.crews } ∧ (∀ n, n ≠ k → t.crew n = s.crew n) ∧
      (t.crew k).map = (s.crew k).map ∧
      ∀ j, j < 32 → (t.crew k).thr j =
        if j = l then { (s.crew k).thr l with hold := none, readySince := s.cycleOf k } else (s.crew k).thr j) ∧
  ∀ (s : State) (cl i : Nat), thas (s.cluster cl).bins i = true → (tget {} (s.cluster cl).bins i).timer < (s.cluster cl).cycle →
    ∃ t u, exec (.binTimerExpiry cl i) s = .next t ∧ Hatches s u cl i (tget {} (s.cluster cl).bins i) ∧
      (s.spilledOf cl = [] → t = u) ∧
      ((tget {} ((u.refillBin cl i).cluster cl).bins i).threads.length < 32 → t = u.refillBin cl i)

/-- R54, R57, R58, R108, R225: the pool takes a bank from the L1 and gives it 64 cycles later to the pool, an idle one goes back, and
neither changes what a register holds. A pool exhausted for 4096 cycles spills cold registers, of the youngest crew first and never of the
oldest, until FREE is 192 or none is left: their bank is free, and their slot holds their 128 bytes, their lane states and the poison of their
halves; where no cold one is left the youngest crew loses its unretired entries, and its threads go on from their own program counters. The pool starves while some
crew's result waits for a register. A refill reads a slot back. A bank of scratch joins its window
after 64 cycles, and a port's ballast window begins anew. Which lines the L1 loses, which of several registers spills first, the layout of a
slot, and that the banks of a grant come one after the other are the model's choices (logs 60, 63, 36, 76). Completes: poolGrow, poolBankJoin,
poolBankReturn, poolSpill, registerRefill, scratchBankJoin, ballastWindow. -/
def Obligations.PoolAndWindows : Prop :=
  let one := fun (s t : State) (n : Nat) => t = { s with cores := t.cores } ∧ ∀ k, k ≠ n → t.core k = s.core k
  let same := fun (s t : State) => ∀ k r l, r < 64 → l < 32 → (t.crew k).lane r l = (s.crew k).lane r l
  (∀ (s : State) (n : Nat), s.crewsOn n ≠ [] → (s.core n).poolBanks < 16 → 4 < (s.core n).l1Banks → (s.core n).grow = none →
    (s.starving n = true ∨ (s.cluster (clusterOf n)).queue ≠ []) →
    ∃ t, exec (.poolGrow n) s = .next t ∧ one s t n ∧ t.core n = { s.core n with
      grow := some ((s.core n).cycle + 64), l1 := (s.core n).l1.take (((s.core n).l1Banks - 1) * 256) }) ∧
  (∀ (s : State) (n : Nat), ((∃ e ∈ s.crewsOn n, ∃ y ∈ e.2.rob, y.why = some 0) → s.starving n = true) ∧
    ((∀ e ∈ s.crewsOn n, ∀ y ∈ e.2.rob, y.why ≠ some 0 ∧ y.why ≠ some 14) → s.starving n = false)) ∧
  (∀ (s : State) (n y : Nat), (s.core n).grow = some y → y ≤ (s.core n).cycle →
    ∃ t, exec (.poolBankJoin n) s = .next t ∧ one s t n ∧ (t.core n).poolBanks = (s.core n).poolBanks + 1 ∧
      t.core n = { s.core n with grow := none, poolIdle := (s.core n).poolIdle ++ [some (s.core n).cycle] }) ∧
  (∀ (s : State) (n b : Nat), (s.core n).staleBank = some b →
    ∃ t, exec (.poolBankReturn n) s = .next t ∧ t = { s with cores := t.cores, crews := t.crews } ∧
      2 < (s.core n).poolBanks ∧ (t.core n).poolBanks + 1 = (s.core n).poolBanks ∧ same s t ∧
      ∀ k, t.crew k = { s.crew k with map := (t.crew k).map, rob := (t.crew k).rob } ∧
        (t.crew k).rob.map (fun y => { y with banks := [] }) = (s.crew k).rob.map fun y => { y with banks := [] }) ∧
  (∀ (s : State) (n y : Nat), (s.core n).exhausted = some y → y + 4096 ≤ (s.core n).cycle →
    ∃ t, exec (.poolSpill n) s = .next t ∧ t = { s with cores := t.cores, crews := t.crews, mem := t.mem, bad := t.bad } ∧ same s t ∧
      (∀ k, s.isOldest n k = true → t.crew k = s.crew k) ∧ (∀ k, (s.crew k).core ≠ some n → t.crew k = s.crew k) ∧
      (∀ k, t.crew k = { s.crew k with map := (t.crew k).map, rob := (t.crew k).rob, threads := (t.crew k).threads }) ∧
      (∀ k, ((t.crew k).rob = (s.crew k).rob ∧ (t.crew k).threads = (s.crew k).threads) ∨ ((t.crew k).rob = [] ∧
        ∀ l, l < 32 → (t.crew k).thr l =
          if ((s.crew k).thr l).state = .future ∧ (∃ e ∈ (s.crew k).rob, e.issue.mask.getLsbD l = true) then ((s.crew k).thr l).wake (s.cycleOf k)
          else (s.crew k).thr l)) ∧
      (∀ k r, r < 64 → (t.crew k).reg r = (s.crew k).reg r ∨
        ∃ p, (s.crew k).reg r = some p ∧ p.bank.isSome = true ∧ (∀ l, l < 32 → (p.lane l).pend = false) ∧
          (t.crew k).reg r = some { p with bank := none, spilled := true }) ∧
      (s.freeRegs n < 192 → ∀ k r p, s.nextSpill n = some (k, r) → (s.crew k).reg r = some p →
        (t.crew k).reg r = some { p with bank := none, spilled := true }) ∧
      (s.freeRegs n < 192 → s.nextSpill n = none → ∀ k, s.youngestBusy n = some k → (t.crew k).rob = [])) ∧
  (∀ (s : State) (k r : Nat) (p : PReg), Memory.wf s.mem = true → (s.crew k).reg r = some p → r < 64 →
    let t := s.spillReg k r
    let cell := (s.crew k).slotCell r
    let bytes := (laneList.flatMap fun l => leBytes 4 (p.lane l).val.toNat) ++ (laneList.map fun l => BitVec.ofNat 8 (p.lane l).st.code) ++
      List.replicate 96 0
    (t.crew k).reg r = some { p with bank := none, spilled := true } ∧
    (∀ a, Memory.read t.mem a = if cell ≤ a ∧ a < cell + 256 then bytes.getD (a - cell) 0 else Memory.read s.mem a) ∧
    t.sectorBad cell = p.poisonLo ∧ t.sectorBad (cell + 64) = p.poisonHi) ∧
  (∀ (s : State) (k r n : Nat) (p : PReg), (s.crew k).reg r = some p → p.spilled = true → (s.crew k).core = some n → r < 64 →
    s.mayAllocate k 1 = true →
    let cell := (s.crew k).slotCell r
    ∃ t q, exec (.registerRefill k r) s = .next t ∧ t = { s with cores := t.cores, crews := t.crews } ∧
      (∀ j, j ≠ k → t.crew j = s.crew j) ∧ (t.crew k).threads = (s.crew k).threads ∧
      (∀ x, x < 64 → x ≠ r → (t.crew k).reg x = (s.crew k).reg x) ∧ (t.crew k).reg r = some q ∧
      q = { p with spilled := false, bank := some (s.pickBank n), touched := s.cycleOf k, lanes := q.lanes
                   poisonLo := s.sectorBad cell, poisonHi := s.sectorBad (cell + 64) } ∧
      ∀ l, l < 32 → q.lane l =
        if (p.lane l).st = .live then { p.lane l with val := wordOf (Memory.readN s.mem (cell + 4 * l) 4) } else p.lane l) ∧
  (∀ (s : State) (n lid y : Nat) (w : Window), (s.core n).windows.find? (fun v => v.launch == lid) = some w → w.joinAt = some y →
    y ≤ (s.core n).cycle →
    ∃ t, exec (.scratchBankJoin n lid) s = .next t ∧ one s t n ∧
      (t.core n).window lid = { w with
        joined := w.joined + 1, joinAt := if w.joined + 1 < w.banks then some ((s.core n).cycle + 64) else none }) ∧
  ∀ (s : State) (n p : Nat), (s.core n).cycle % 256 = 0 → (s.core n).ports = [] → p < 4 → (s.core n).portUse.getD p 0 ≠ 0 →
    ∃ t, exec (.ballastWindow n p) s = .next t ∧ one s t n ∧ (t.core n).portUse.getD p 1 = 0 ∧
      ∀ q, q < 4 → q ≠ p → (t.core n).portUse.getD q 0 = (s.core n).portUse.getD q 0

/-- R118, R127, R129, R133, R137: DTIME passes and acknowledges the outside writes that it has passed, and the packets that stand at Supex ports
leave them (R248; that they stand there until then is log 79); a host acknowledgement arrives; a
walk leaves its leaf in its die's TLB; a fill leaves its sector, as the home holds it, with a lease in the L1 and raises the line's horizon; an
ATOM acts at its home. R122, R123: an uncorrectable error poisons its word of DRAM, its sector of a window or its half of a register, and
invalidates its sector of an L1; one that was corrected changes nothing; either is reported. Completes: dtimePassed, hostGloballyObservedAck,
tableWalkComplete, loadFill, atomHome, eccUncorrectable, storeEccError. -/
def Obligations.HomeEvents : Prop :=
  (∀ (s : State) (n : Nat), ∃ t, exec (.dtimePassed n) s = .next t ∧ t.dtime = max s.dtime n ∧
    t.acks = s.acks.filter (fun a => max s.dtime n ≤ a.ct) ∧
    t.posts = s.posts ++ s.peerOut.map (·.2) ++ (s.acks.filter fun a => decide (a.ct < max s.dtime n)).map (fun a => .writeAck a.pa true) ∧
    (∀ p, t.port p = if s.peerOut.any (fun r => r.1 == p) then { s.port p with retries := 0 } else s.port p) ∧
    t = { s with dtime := t.dtime, acks := t.acks, posts := t.posts, peerOut := [], supex := t.supex }) ∧
  (∀ (s : State) (k : Nat), exec (.hostGloballyObservedAck k) s = .next { s with hostPending := dropAt s.hostPending k }) ∧
  (∀ (s : State) (die asid : Nat) (va : Dword) (e : TlbEntry), va.toNat < 2 ^ 49 → die < 4 → (s.aspace asid).live = true →
    s.lookupDie die asid va.toNat = .ok e →
    ∃ t, exec (.tableWalkComplete die asid va) s = .next t ∧ t = { s with dies := t.dies } ∧ e ∈ (t.die die).tlb ∧
      ∀ d, d ≠ die → t.die d = s.die d) ∧
  (∀ (s : State) (n asid : Nat) (va : Dword) (e : TlbEntry), s.translate n asid .read va.toNat = .ok e → e.uc = false → n < 128 →
    s.inFlight n (e.cell va.toNat) = false → s.ownedBy (e.cell va.toNat / 64 * 64) 64 = false → s.serves (e.cell va.toNat) = true →
    0 < (s.core n).l1Usable →
    let cell := e.cell va.toNat
    let lease := (s.aspace asid).lease
    let home := s.homeRead e (va.toNat / 64 * 64) 64
    ∃ t x, exec (.loadFill n asid va) s = .next t ∧ t = { s with cores := t.cores, dies := t.dies, horizon := t.horizon } ∧
      t.horizonOf (lineOf cell) = max (s.horizonOf (lineOf cell)) (s.dtime + lease) ∧
      (∀ y, y ≠ lineOf cell → t.horizonOf y = s.horizonOf y) ∧ (∀ k, k ≠ n → t.core k = s.core k) ∧
      (t.core n).l1Line (lineOf cell) = some x ∧ x.expiry = s.dtime + lease ∧ x.homeWrote = false ∧
      x.sectors.getD (cell / 64 % 4) none = some { data := home.1, poison := home.2 } ∧
      ∀ i, i < 4 → i ≠ cell / 64 % 4 → x.sectors.getD i none = match (s.core n).l1Line (lineOf cell) with
        | none => none
        | some y => if y.homeWrote then none else y.sectors.getD i none) ∧
  (∀ (s u : State) (n asid : Nat) (va : Dword) (o : BitVec 4) (w : Bool) (x y : Dword) (bs : List Byte), Memory.wf s.mem = true →
    va.toNat % (if w then 8 else 4) = 0 → n < 128 → o.toNat ≤ 10 → (o = 10 → w = false) →
    s.atomVirt n asid s.nextLaunch 0 false o.toNat w va.toNat (x.toNat % 2 ^ atomBits w) (y.toNat % 2 ^ atomBits w) = .ok u bs →
    ∃ t e, exec (.atomHome n asid va o w x y) s = .next t ∧ s.translate n asid .atomic va.toNat = .ok e ∧
      let cell := e.cell va.toNat
      let size := atomBits w / 8
      let new := atomNew o.toNat w (leNat (Memory.readN s.mem cell size)) (x.toNat % 2 ^ atomBits w) (y.toNat % 2 ^ atomBits w)
      (∀ a, Memory.read t.mem a =
        if cell ≤ a ∧ a < cell + size then (leBytes size new).getD (a - cell) 0 else Memory.read s.mem a) ∧
      ∀ k, (t.crew k).map = (s.crew k).map) ∧
  (∀ (s : State) (cell : Nat), cell < 2 ^ 39 →
    exec (.eccUncorrectable ⟨cell, true⟩) s = .next { s with posts := s.posts ++ [.ecc cell false] } ∧
    ∃ t, exec (.eccUncorrectable ⟨cell, false⟩) s = .next t ∧ t = { s with bad := t.bad, posts := s.posts ++ [.ecc cell true] } ∧
      t.sectorBad cell = true ∧ ∀ a, a / 64 ≠ cell / 64 → t.sectorBad a = s.sectorBad a) ∧
  (∀ (s : State) (n : Nat) (x : EccPlace),
    exec (.storeEccError n ⟨x, true⟩) s = .next { s with posts := s.posts ++ [.storeEcc n x false] }) ∧
  (∀ (s : State) (n line sector : Nat),
    let cell := line * 256 + sector % 4 * 64
    ∃ t, exec (.storeEccError n ⟨.l1 line sector, false⟩) s = .next t ∧
      t = { s with cores := t.cores, posts := s.posts ++ [.storeEcc n (.l1 line sector) true] } ∧ (t.core n).sector cell = none ∧
      (∀ c, c / 64 ≠ cell / 64 → (t.core n).sector c = (s.core n).sector c) ∧
      t.core n = { s.core n with l1 := (t.core n).l1 } ∧ ∀ k, k ≠ n → t.core k = s.core k) ∧
  (∀ (s : State) (n lid k : Nat) (w : Window), (s.core n).windows.find? (fun v => v.launch == lid) = some w →
    let strikes := fun (x : EccPlace) (v : Window) => ∃ t, exec (.storeEccError n ⟨x, false⟩) s = .next t ∧
      t = { s with cores := t.cores, posts := s.posts ++ [.storeEcc n x true] } ∧ (t.core n).window lid = v ∧
      (∀ l, l ≠ lid → (t.core n).window l = (s.core n).window l) ∧ ∀ m, m ≠ n → t.core m = s.core m
    let more := fun (ks : List Nat) (i : Nat) => if i ∈ ks then ks else ks ++ [i]
    strikes (.scratch lid k) { w with scratchBad := more w.scratchBad (k / 64) } ∧
    strikes (.acc lid k) { w with accBad := more w.accBad (k / 16) } ∧
    strikes (.drainScale lid k) { w with dsBad := more w.dsBad (k / 16) } ∧
    strikes (.blockScale lid k) { w with bsBad := more w.bsBad (k / 64) }) ∧
  ∀ (s : State) (n k r half : Nat) (p : PReg), (s.crew k).core = some n → (s.crew k).reg r = some p → r < 64 →
    ∃ t, exec (.storeEccError n ⟨.preg k r half, false⟩) s = .next t ∧
      t = { s with crews := t.crews, posts := s.posts ++ [.storeEcc n (.preg k r half) true] } ∧
      (t.crew k).reg r = some (if half = 0 then { p with poisonLo := true } else { p with poisonHi := true }) ∧
      (∀ x, x < 64 → x ≠ r → (t.crew k).reg x = (s.crew k).reg x) ∧ ∀ j, j ≠ k → t.crew j = s.crew j

/-- R121, R142, R147, R152 to R156, R293, R294, R308: a copy, in its turn at the homes, writes every element at its place in row-major order; of one
that faults, only such rows as can be written whole, and nothing outside its destination. Each byte is that of its element's source, but for one that the
same command reads; that every source is read before any write is the model's choice (log 85). No pseudo-channel that the accesses reach computes then.
A fetch begins by the checks of R308 in their order, then owns the lines of its destination that it did not own and submits Reads that cover its blocks; when the controller has delivered them it writes every block, or of one that faults only
whole blocks of its destination. Their status is DONE with the count of rows or blocks, POISONED, REFUSED, or FAULTED with the least row that faults or
the controller's status. Once DTIME has passed the completion time, the counter that a copy names is bumped, when it is DONE or POISONED, and the
status is delivered. Which of the writable rows and blocks a faulted transfer writes is free (log 15), and so is the controller's limit for one Read
(log 66). Completes: copyComplete, fetchComplete. -/
def Obligations.CopyAndFetch : Prop :=
  let store := fun (m : List Host.Cell) (ws : List EByte) => ws.foldl (fun m w => Memory.write m w.addr w.val) m
  (∀ (s : State) (c : Cmd) (dir : Nat) (src dst : Dword) (h : Shape) (n : Option Nat), s.cmd c.id = some c →
    c.kind = .copy dir src dst h n → c.phase = .queued → s.mayWrite c.id = true → s.servesCmd c = true →
    let r := s.mapM (fun s e => s.copyElem c dir (copySize h.format) e) (copyElems dir src.toNat dst.toNat h)
    let ws := r.2.flatMap fun e => elemBytes (c.bad != []) (e.src.getD []) (e.dst.getD [])
    let reads := r.2.flatMap fun e => (e.src.getD []).map (·.addr)
    let good := ∀ e ∈ r.2, e.src.isSome = true ∧ e.dst.isSome = true
    ∃ t ct st, exec (.copyComplete c.id) s = .next t ∧ t.cmd c.id = some { c with phase := .written ct st } ∧ t.crews = r.1.crews ∧
      t.owned = r.1.owned.filter (fun o => o.cmd != c.id) ∧
      (∀ row, (List.range h.rows).find? (fun i => r.2.any fun e => e.row == i && !e.sound) = some row → st = stFaulted row) ∧
      (good → st = if ws.any (·.bad) then stPoisoned h.rows else stDone h.rows) ∧
      (dir = 0 → t.mem = r.1.mem ∧ ∀ w, (r.1.core c.core).windows.find? (fun v => v.launch == c.launch) = some w →
        ∃ us, us.Sublist ws ∧ (good → us = ws) ∧
          ((t.core c.core).window c.launch) = { w with scratch := store w.scratch us, scratchBad := remark 64 w.scratchBad us }) ∧
      (dir ≠ 0 → (t.core c.core).windows = (r.1.core c.core).windows ∧
        ∃ us, (us.map (·.addr)).Sublist (ws.map (·.addr)) ∧ t.mem = store r.1.mem us ∧ t.bad = remark 8 r.1.bad us ∧
          (∀ w ∈ us, (dir = 2 → w.addr ∉ reads) → w ∈ ws) ∧ (good → (dir = 2 → ∀ w ∈ ws, w.addr ∉ reads) → us = ws))) ∧
  (∀ (s : State) (c : Cmd) (dir : Nat) (src dst : Dword) (h : Shape) (n : Option Nat) (st : Word), s.awaits c st →
    c.kind = .copy dir src dst h n →
    let k := s.core c.core
    let b := match n with
      | some i => if codeOf st = 0 ∨ codeOf st = 3 then
          s.setCore c.core { k with trig := setAt 16 0 k.trig i (k.trig.getD i 0 + BitVec.ofNat 32 h.rows) } else s
      | none => s
    ∃ t, exec (.copyComplete c.id) s = .next t ∧ Delivered b t c (fun _ => st) st) ∧
  (∀ (s : State) (c : Cmd) (q : Nat) (record : Dword) (x : Option FetchReq) (data : List Byte) (status : BitVec 11), s.cmd c.id = some c →
    c.kind = .fetch q record x → c.phase = .queued → s.fetchBehind c q = false → s.servesCmd c = true →
    let ends := fun (u : State) (st : Word) => ∃ t, exec (.fetchComplete c.id data status) s = .next t ∧ t.mem = u.mem ∧ t.crews = u.crews ∧
      t.cmd c.id = some { c with phase := .written 0 st }
    match (s.vi (s.cmdVi c)).pair q with
    | none => ends s (stRefused 0)
    | some p =>
      let r := s.engineLoad c.core c.asid record.toNat 32
      match r.2 with
      | .error _ => ends r.1 (stFaulted 0)
      | .ok bs =>
        let f := bs.map (·.val)
        let count := field f 4 4; let dst := field f 16 8
        let refused := field f 0 4 ≠ p.nsid ∨ count = 0 ∨ 65536 < count ∨ dst % 256 ≠ 0 ∨ ∃ b ∈ f.drop 24, b ≠ 0
        (refused → ends r.1 (stRefused 0)) ∧
        (¬ refused →
          let req : FetchReq := { count := count, first := field f 8 8, size := p.lba, dst := dst, bad := bs.any (·.bad) }
          let vas := (List.range (count * p.lba / 256)).map fun i => dst + i * 256
          let u := r.1.repairWrites c.core c.asid vas
          let m := max 1 (Config.maxBlocks p.ctrl)
          let reads := (List.range ((count + m - 1) / m)).map fun i =>
            ({ nsid := p.nsid, slba := field f 8 8 + i * m, blocks := min m (count - i * m), cmd := c.id } : NvmeRead)
          let old := tget {} (u.vi (u.cmdVi c)).qps q
          let mine := fun (a : Nat) => r.1.owned.any fun p => p.cmd == c.id && p.addr == a
          ∃ t, exec (.fetchComplete c.id data status) s = .next t ∧ t.mem = u.mem ∧ t.crews = u.crews ∧
            t.cmd c.id = some { c with kind := .fetch q record (some req), phase := .started } ∧
            t.owned = u.owned ++ ((u.lines c.core c.asid vas).filter fun o => !mine o.addr).map (fun o => { o with cmd := c.id }) ∧
            tget {} (t.vi (u.cmdVi c)).qps q = { old with sq := old.sq ++ reads, sqTail := old.sqTail + reads.length })) ∧
  (∀ (s : State) (c : Cmd) (q : Nat) (record : Dword) (r : FetchReq) (data : List Byte) (status : BitVec 11), s.cmd c.id = some c →
    c.kind = .fetch q record (some r) → c.phase = .started → data.length = r.count * r.size → s.mayWrite c.id = true →
    s.servesCmd c = true →
    let w := s.fetchCells c r
    let faults := w.2.any fun x => x.isNone
    let st := if faults then stFaulted 0 else if status ≠ 0 then stFaulted status.toNat
      else if r.bad then stPoisoned r.count else stDone r.count
    let old := tget {} (w.1.vi (w.1.cmdVi c)).qps q
    ∃ t ct us, ∃ chosen : Nat → Bool, exec (.fetchComplete c.id data status) s = .next t ∧ t.crews = w.1.crews ∧
      t.cmd c.id = some { c with phase := .written ct st } ∧ t.mem = store w.1.mem us ∧ t.bad = remark 8 w.1.bad us ∧
      t.owned = w.1.owned.filter (fun o => o.cmd != c.id) ∧
      us.map (·.addr) = (w.2.zipIdx.flatMap fun b => if chosen b.2 then b.1.getD [] else []) ∧
      (status = 0 → us = w.2.zipIdx.flatMap fun b =>
        if chosen b.2 then (b.1.getD []).zipIdx.map fun e => ⟨e.1, data.getD (b.2 * r.size + e.2) 0, r.bad⟩ else []) ∧
      (faults = false → status = 0 → ∀ i, chosen i = true) ∧
      tget {} (t.vi (w.1.cmdVi c)).qps q = { old with
        sq := old.sq.filter fun e => e.cmd != c.id, cqHead := old.cqHead + old.sq.countP fun e => e.cmd == c.id }) ∧
  ∀ (s : State) (c : Cmd) (q : Nat) (record : Dword) (x : Option FetchReq) (data : List Byte) (status : BitVec 11) (st : Word), s.awaits c st →
    c.kind = .fetch q record x → ∃ t, exec (.fetchComplete c.id data status) s = .next t ∧ Delivered s t c (fun _ => st) st

/-- R123, R142, R161, R164, R166, R168 to R171, R173, R174, R241, R242: the array starts the head of Q0, else of Q1, whose counter has
reached its threshold and which no older command of the drain stage holds back, and the drain stage starts its next command when no older
MMA shares its cells or block scales; a command that completes has written its cells, its bytes of scratch or its scale entries, and its
status is delivered; one that was refused delivers only that, while another of its kind may run. That an MMA reads its tiles when it starts (log 11), how an engine's write
marks poison (log 25) and that an accumulated poisoned cell poisons the result (log 26) are the model's readings. Completes: mmaStart, mmaComplete, drainStageStart, mdrainComplete,
mzeroComplete, copysComplete. -/
def Obligations.MatrixEvents : Prop :=
  let setPhase := fun (s t : State) (c d : Cmd) => t = { s with cmds := s.cmds.map fun x => if x.id = c.id then d else x }
  (∀ (s : State) (n : Nat) (c : Cmd), (∀ d ∈ s.cmds, d.core = n → d.kind.isMma = true → d.phase ≠ .started) →
    (s.startable n false = some c ∨ s.startable n false = none ∧ s.startable n true = some c) →
    let out := ((s.core n).window c.launch).mmaOut c
    ∃ t, exec (.mmaStart n) s = .next t ∧ setPhase s t c { c with
      phase := .started, out := out.map fun e => (e.1, e.2.1), bad := (out.filter fun e => e.2.2).map (·.1) }) ∧
  (∀ (s : State) (n : Nat) (c : Cmd), s.completing n CmdKind.isMma = some c → s.cmd c.id = some c → c.slot < 64 → c.phase = .started →
    let w := (s.core n).window c.launch
    let st := if c.bad = [] then stDone 0 else stPoisoned 0
    ∃ t, exec (.mmaComplete n) s = .next t ∧ Delivered (s.setWindow n (w.setCells c.out c.bad)) t c (fun _ => st) st) ∧
  (∀ (s : State) (n : Nat) (c : Cmd), (∀ d ∈ s.cmds, d.core = n → d.kind.isDrain = true → d.phase ≠ .started) →
    (s.cmdsOf n).find? (fun d => d.kind.isDrain && d.phase == .queued) = some c →
    (∀ d ∈ s.cmds, d.core = n → d.kind.isMma = true → d.alive = true → d.id < c.id → c.overlaps d = false) →
    ∃ t, exec (.drainStageStart n) s = .next t ∧ setPhase s t c { c with phase := .started }) ∧
  (∀ (s : State) (n : Nat) (c : Cmd) (d : Shape) (rs cs sat ftz : Bool) (mode row col acc : Nat),
    c.kind = .mdrain d rs cs sat mode ftz row col acc →
    s.completing n (fun k => match k with | .mdrain .. => true | _ => false) = some c → s.cmd c.id = some c → c.slot < 64 →
    c.phase = .started →
    let w := (s.core n).window c.launch
    let ws := d.elems.flatMap fun e =>
      let k := acc + e.1 * d.cols + e.2
      let x := drainValue (drainCtx mode ftz sat) d.format (tget 0 w.acc k).toNat
        (if rs then some (tget 0 w.ds (row + e.1)).toNat else none) (if cs then some (tget 0 w.ds (col + e.2)).toNat else none)
      (leBytes (fmtBytes d.format) x).zipIdx.map fun b => (⟨(d.off e.1 e.2).toNat + b.2, b.1,
        c.bad != [] || w.accBad.contains (k / 16) || (rs && w.dsBad.contains ((row + e.1) / 16)) ||
          (cs && w.dsBad.contains ((col + e.2) / 16))⟩ : EByte)
    let st := if ws.any (·.bad) then stPoisoned d.rows else stDone d.rows
    ∃ t, exec (.mdrainComplete n) s = .next t ∧ Delivered (s.setWindow n (w.engineScratch ws)) t c (fun _ => st) st) ∧
  (∀ (s : State) (n base count : Nat) (c : Cmd), c.kind = .mzero base count →
    s.completing n (fun k => match k with | .mzero .. => true | _ => false) = some c → s.cmd c.id = some c → c.slot < 64 →
    c.phase = .started →
    let w := (s.core n).window c.launch
    ∃ t v, exec (.mzeroComplete n) s = .next t ∧ Delivered (s.setWindow n v) t c (fun _ => stDone count) (stDone count) ∧
      v = { w with acc := v.acc, accBad := v.accBad } ∧
      ∀ k, tget 0 v.acc k = if base ≤ k ∧ k < base + count then 0 else tget 0 w.acc k) ∧
  (∀ (s : State) (n addr first count : Nat) (k : Bool) (c : Cmd), c.kind = .copys k addr first count →
    s.completing n (fun k => match k with | .copys .. => true | _ => false) = some c → s.cmd c.id = some c → c.slot < 64 →
    c.phase = .started →
    let w := (s.core n).window c.launch
    let poison := (List.range count).any fun i => w.bad (addr + (if k then i else 4 * i))
    let st := if poison then stPoisoned count else stDone count
    ∃ t v, exec (.copysComplete n) s = .next t ∧ Delivered (s.setWindow n v) t c (fun _ => st) st ∧
      v = { w with bs := v.bs, bsBad := v.bsBad, ds := v.ds, dsBad := v.dsBad } ∧
      (∀ i, tget 0 v.bs i = if k ∧ first ≤ i ∧ i < first + count then Memory.read w.scratch (addr + (i - first)) else tget 0 w.bs i) ∧
      ∀ i, tget 0 v.ds i = if k = false ∧ first ≤ i ∧ i < first + count then wordOf (w.read (addr + 4 * (i - first)) 4)
        else tget 0 w.ds i) ∧
  ∀ (s : State) (n : Nat) (c : Cmd) (st : Word), s.awaits c st →
    let first := fun (kind : CmdKind → Bool) =>
      (s.cmdsOf n).find? fun d => kind d.kind && d.phase != .queued && d.phase != .started
    (first CmdKind.isMma = some c → ∃ t, exec (.mmaComplete n) s = .next t ∧ Delivered s t c (fun _ => st) st) ∧
    (first (fun k => match k with | .mdrain .. => true | _ => false) = some c →
      ∃ t, exec (.mdrainComplete n) s = .next t ∧ Delivered s t c (fun _ => st) st) ∧
    (first (fun k => match k with | .mzero .. => true | _ => false) = some c →
      ∃ t, exec (.mzeroComplete n) s = .next t ∧ Delivered s t c (fun _ => st) st) ∧
    (first (fun k => match k with | .copys .. => true | _ => false) = some c →
      ∃ t, exec (.copysComplete n) s = .next t ∧ Delivered s t c (fun _ => st) st)

/-- R121, R144, R180 to R182, R185, R187, R189, R247: the count cell serves a remote client's reservation and answers; a share's controller
writes the placements that wait, one after the other, each into the next slot from c on with the next sequence number, and drops one whose slot
cannot be written (log 64); a placement that completes counts and its completion time reaches its thread; a drain takes at most 1024 bytes of
the newest slots a round, newest first: each slot's bytes go to scratch and its FULL falls in memory, and a slot that cannot be reached ends it
FAULTED; at its end the resident count falls and its status waits for its completion time. Completes: reservationServe, placementBatch,
placementComplete, drainRound. -/
def Obligations.BagEvents : Prop :=
  (∀ (s : State) (k port asid idx gen : Nat) (key : Word) (record : List Byte),
    s.reservations[k]? = some ⟨port, .put asid idx gen key record⟩ →
    let g := s.bag asid idx
    ∃ t, exec (.reservationServe k) s = .next t ∧ t.reservations = dropAt s.reservations k ∧ t.posts = s.posts ++ [.ueAnswer port] ∧
      t = { s with aspaces := t.aspaces, reservations := t.reservations, posts := t.posts } ∧
      if g.live = true ∧ g.gen = gen ∧ record.length + 8 = 16 * 2 ^ g.size ∧ g.resident + g.reserved < g.cap then
        g.reserve 0 none key record = some (t.bag asid idx)
      else t.aspaces = s.aspaces) ∧
  (∀ (s : State) (asid idx n : Nat), ((s.bag asid idx).share n).queue ≠ [] → ((s.bag asid idx).share n).placing = false →
    s.opens ((s.bag asid idx).pch n) = true → Memory.wf s.mem = true →
    let g := s.bag asid idx
    let h := g.share n
    ∃ t, exec (.placementBatch asid idx n) s = .next t ∧ t.crews = s.crews ∧ (∀ m, m ≠ n → (t.bag asid idx).share m = g.share m) ∧
    ∃ (at' : Nat → State) (j : Nat → Nat) (q : Nat → List Placement), at' 0 = s ∧ j 0 = 0 ∧ q 0 = [] ∧
      t.mem = (at' h.queue.length).mem ∧ (t.bag asid idx).share n = { h with
        seq := (h.seq + j h.queue.length) % 65536, queue := q h.queue.length } ∧
      t.bag asid idx = { g with reserved := g.reserved - (h.queue.length - j h.queue.length), shares := (t.bag asid idx).shares } ∧
      ∀ (i : Nat) (p : Placement), h.queue[i]? = some p →
        let r := (at' i).slotPlace p.core asid (g.slotVa n (h.c + j i))
        match r.2 with
        | .error _ => at' (i + 1) = r.1 ∧ j (i + 1) = j i ∧ q (i + 1) = q i
        | .ok cell =>
          let bs := leBytes 4 p.key.toNat ++ leBytes 2 ((h.seq + j i) % 65536) ++ leBytes 2 1 ++ p.data
          j (i + 1) = j i + 1 ∧ (∃ ct, q (i + 1) = q i ++ [{ p with written := some (h.c + j i, ct) }]) ∧
          ∀ a, Memory.read (at' (i + 1)).mem a =
            if cell ≤ a ∧ a < cell + bs.length then bs.getD (a - cell) 0 else Memory.read r.1.mem a) ∧
  (∀ (s : State) (asid idx n j ct : Nat) (p : Placement) (q : List Placement), ((s.bag asid idx).share n).queue = p :: q →
    p.written = some (j, ct) →
    let g := s.bag asid idx
    let h := g.share n
    ∃ t, exec (.placementComplete asid idx n) s = .next t ∧ t.mem = s.mem ∧
      t.bag asid idx = { g with reserved := g.reserved - 1, resident := g.resident + 1, shares := (t.bag asid idx).shares } ∧
      (t.bag asid idx).share n = { h with c := h.c + 1, ct := max h.ct ct, queue := q } ∧
      (∀ m, m ≠ n → (t.bag asid idx).share m = g.share m) ∧
      ∀ k l, (t.crew k).thr l = match p.owner with
        | some (launch, tid) =>
          let x := (s.crew k).thr l
          if (s.crew k).launch = launch ∧ x.tid = tid ∧ x.state ≠ .exited then { x with wct := BitVec.ofNat 64 (max x.wct.toNat ct) } else x
        | none => (s.crew k).thr l) ∧
  (∀ (s : State) (c : Cmd) (idx sh n addr removed : Nat) (w : Window), s.cmd c.id = some c → c.kind = .bdrain idx sh n addr removed →
    (c.phase = .queued ∨ c.phase = .started) → ((s.bag c.asid idx).share sh).placing = false →
    Memory.wf s.mem = true → Memory.wf w.scratch = true → (s.core c.core).windows.find? (fun v => v.launch == c.launch) = some w →
    let g := s.bag c.asid idx
    let h := g.share sh
    let z := 16 * 2 ^ g.size
    let off := addr + removed * z
    if removed < n ∧ 0 < h.c then s.opens (g.pch sh) = true →
      let k := min (min (1024 / z) (n - removed)) h.c
      ∃ (t : State) (d : Cmd) (m : Nat), exec (.drainRound c.id) s = .next t ∧ m ≤ k ∧ (∀ i, i ≠ sh → (t.bag c.asid idx).share i = g.share i) ∧
        (t.bag c.asid idx).share sh = { h with c := h.c - m } ∧
        t.bag c.asid idx = { g with
          resident := if m = k then g.resident else g.resident - (removed + m), shares := (t.bag c.asid idx).shares } ∧
        d.kind = .bdrain idx sh n addr (removed + m) ∧ c.ct ≤ d.ct ∧
        t.cmd c.id = some { d with phase := if m = k then .started else .written d.ct (stFaulted 0) } ∧
      ∃ (at' : Nat → State) (cell : Nat → Nat), at' 0 = s ∧ t.mem = (at' m).mem ∧
        (∀ i, i < m → ∃ b, (at' i).slotPlace c.core c.asid (g.slotVa sh (h.c - i - 1)) = (b, .ok (cell i)) ∧
          (∀ a, Memory.read (at' (i + 1)).mem a =
            if a = cell i + 6 then Memory.read b.mem a &&& 0xfe else Memory.read b.mem a) ∧
          ∀ x, x < z →
            Memory.read ((t.core c.core).window c.launch).scratch (off + i * z + x) = Memory.read b.mem (cell i + x) ∧
            (b.sectorBad (cell i + x) = true → (off + i * z + x) / 64 ∈ d.bad)) ∧
        (∀ a, ¬ (off ≤ a ∧ a < off + m * z) →
          Memory.read ((t.core c.core).window c.launch).scratch a = Memory.read w.scratch a) ∧
        (∀ u ∈ w.scratchBad, 64 * u + 64 ≤ off → u ∈ ((t.core c.core).window c.launch).scratchBad) ∧
        (m < k → ∃ b e, (at' m).slotPlace c.core c.asid (g.slotVa sh (h.c - m - 1)) = (b, .error e))
    else
      ∃ t, exec (.drainRound c.id) s = .next t ∧ t.mem = s.mem ∧ (t.bag c.asid idx).resident = g.resident - removed ∧
        t.cmd c.id = some { c with phase := .written c.ct (if c.bad = [] then stDone removed else stPoisoned removed) }) ∧
  (∀ (s b : State) (core asid va cell : Nat), s.slotPlace core asid va = (b, .ok cell) →
    ∃ e, s.translateRepair core asid .read va = (b, .ok e) ∧ cell = e.cell va ∧ pteSeal e.leaf = false ∧ b.codeLocked (e.pa va) = false) ∧
  ∀ (s : State) (c : Cmd) (idx sh n addr removed : Nat) (st : Word), s.awaits c st → c.kind = .bdrain idx sh n addr removed →
    ∃ t, exec (.drainRound c.id) s = .next t ∧ Delivered s t c (fun _ => st) st

/-- R143, R197, R204 to R208, R211, R212, R339, R340: the near-memory commands, each in its turn at its pseudo-channels. NMLOAD fills the
store, or leaves it alone; NMARM, once no access to its pages is under way, seals every page or none; a run starts with its run state, its pages
sealed, its divider within reach and its sectors owned, sets the divider only on a stack that computes nothing else, and completes when every
pseudo-channel has ended; NMDISARM clears the seals. A refresh writes the pending columns, as END does, closes the row and makes a run pause for
360 ns, and the accesses that wait for the pseudo-channel are served before it goes on (R209, log 78); the tier follows the temperature, and a schedule
moves with the interval, at once when the new interval is already past. Every schedule keeps its own place in the stagger (log 77). A write of a unit that
fails ends the run on all its pseudo-channels. That a block which holds poison completes POISONED is the model's reading (log 31). Completes: nmloadComplete, nmarmSeal, nmrunStart, nmrunComplete, nmdisarmComplete, refresh, computeResume, refreshTierChange. -/
def Obligations.NearMemoryEvents : Prop :=
  let done := fun (e : Instr) (s b : State) (c : Cmd) (st : Word) => ∃ t, exec e s = .next t ∧ Delivered b t c (fun _ => st) st
  (∀ (s : State) (c : Cmd) (va : Dword) (p n : Nat), s.cmd c.id = some c → c.kind = .nmload va p n → s.nmFirst c = true →
    s.servesCmd c = true → c.slot < 64 →
    let e := Instr.nmloadComplete c.id
    let r := s.engineRecord c.core c.asid va.toNat n
    if 511 < p ∨ p ∉ (s.vi (s.aspace c.asid).vi).pcs then done e s s c (stRefused 64)
    else match r.2 with
      | .error _ => done e s r.1 c (stFaulted 0)
      | .ok bs =>
        let word := fun (i : Nat) => BitVec.ofNat 64 (field (bs.map (·.val)) (8 * i) 8)
        if bs.any (·.bad) then done e s r.1 c (stPoisoned 0)
        else match (List.range n).find? fun i => !microOk i (word i) with
          | some i => done e s r.1 c (stRefused i)
          | none => ∃ v, done e s (r.1.setPch p v) c (stDone n) ∧ v = { r.1.pch p with store := v.store, tag := some c.asid } ∧
              ∀ i, tget 0 v.store i = if i < n then word i else tget 0 (r.1.pch p).store i) ∧
  (∀ (s : State) (c : Cmd) (b : NmBlock) (pages : List Nat), s.cmd c.id = some c → c.kind = .nmarm b pages → c.slot < 64 →
    c.phase = .queued →
    if pages.any fun va => (s.sealOf c.asid va).isSome then done (.nmarmSeal c.id) s s c (stRefused 0)
    else (∀ va ∈ pages, s.pageQuiet c.asid va = true) → ∃ t, exec (.nmarmSeal c.id) s = .next t ∧
      Delivered (s.sealPages c.asid b.mode pages) t c (fun _ => stDone pages.length) (stDone pages.length) ∧
      t.sealed = s.sealed ++ pages.map fun va => { asid := c.asid, va := va, pch := s.pageHome c.asid va, mode := b.mode }) ∧
  (∀ (s : State) (c : Cmd) (b : NmBlock) (pages : List Nat) (st : Word), s.awaits c st → c.kind = .nmarm b pages →
    done (.nmarmSeal c.id) s s c st) ∧
  (∀ (s : State) (stack : Nat) (c : Cmd) (va : Dword), s.firstRun stack = some (c, va) → s.cmd c.id = some c → s.nmFirst c = true →
    c.slot < 64 →
    let e := Instr.nmrunStart stack
    let r := s.readBlock c.core c.asid va.toNat
    if va.toNat % 256 ≠ 0 then done e s s c (stRefused 0)
    else s.servesVas c.core c.asid ((List.range 4).map fun i => va.toNat + 64 * i) = true → match r.2 with
      | .error _ => done e s r.1 c (stFaulted 0)
      | .ok (bad, b) =>
        if bad then done e s r.1 c (stPoisoned 0)
        else if r.1.runOk c.asid b = false then done e s r.1 c (stRefused 0)
        else let vas := (List.range b.vecLen).map fun i => b.vecSrc + 4 * i
          ∀ k, r.1.admitsRun b = some k → r.1.servesVas c.core c.asid vas = true →
          let v := r.1.mapM (fun s va => s.engineLoad c.core c.asid va 4) vas
          if v.2.any fun x => x.toOption.isNone then done e s v.1 c (stFaulted 0)
          else
            let vec := v.2.map fun x => ({ w := wordOf ((x.toOption.getD []).map (·.val)), bad := (x.toOption.getD []).any (·.bad) } : PVal)
            ∃ t, exec e s = .next t ∧ t = { v.1 with pchs := t.pchs, cmds := t.cmds, hbm := t.hbm, owned := t.owned } ∧
              t.cmd c.id = some { c with phase := .started, kind := .nmrun va b } ∧
              t.owned = v.1.owned ++ v.1.runOwns c b ∧
              (t.stackAt b.stack).divider = (if v.1.computingOn b.stack ≠ 0 then (v.1.stackAt b.stack).divider
                else if (v.1.stackAt b.stack).tier = 3 then 8 else max 1 (max v.1.floor k)) ∧
              (∀ n, n ∉ b.pchs → t.pch n = v.1.pch n) ∧
              ∀ i n, b.pchs[i]? = some n → t.pch n = {
                store := (v.1.pch n).store, tag := (v.1.pch n).tag, mailbox := (v.1.pch n).mailbox, nextRefresh := v.1.nextRefresh n
                vbuf := vec ++ (v.1.pch n).vbuf.drop vec.length, run := some c.id, index := i
                base := (List.range 4).map fun j => b.baseOf j i, mpc := b.entry }) ∧
  (∀ (s : State) (c : Cmd) (va : Dword) (b : NmBlock), s.cmd c.id = some c → c.kind = .nmrun va b → c.phase = .started →
    (∀ n ∈ b.pchs, (s.pch n).run = some c.id ∧ (s.pch n).ended = true ∧ (s.pch n).ready s.dtime = true) →
    ∃ t ct st, exec (.nmrunComplete c.id) s = .next t ∧ t.cmd c.id = some { c with phase := .written ct st } ∧ t.mem = s.mem ∧
      t.crews = s.crews ∧ (∀ o ∈ t.owned, o.cmd ≠ c.id) ∧
      (∀ n, n ∈ b.pchs → t.pch n = { s.pch n with run := none } ∧ (s.pch n).maxCt ≤ ct) ∧ (∀ n, n ∉ b.pchs → t.pch n = s.pch n) ∧
      codeOf st = if ∃ n ∈ b.pchs, (s.pch n).fault = true then 2
        else if ∀ n ∈ b.pchs, (s.pch n).badElems = [] ∧ ((s.pch n).vbuf.take b.vecLen).any (·.bad) = false then 0 else 3) ∧
  (∀ (s : State) (c : Cmd) (va : Dword) (b : NmBlock) (st : Word), s.awaits c st → c.kind = .nmrun va b →
    done (.nmrunComplete c.id) s s c st) ∧
  (∀ (s : State) (c : Cmd) (va : Dword), s.cmd c.id = some c → c.kind = .nmdisarm va → s.nmFirst c = true →
    s.servesCmd c = true → c.slot < 64 →
    let e := Instr.nmdisarmComplete c.id
    let r := s.readBlock c.core c.asid va.toNat
    if va.toNat % 256 ≠ 0 then done e s s c (stRefused 0)
    else match r.2 with
      | .error _ => done e s r.1 c (stFaulted 0)
      | .ok (bad, b) =>
        let pages := (b.pages.map (·.1)).dedup
        if bad then done e s r.1 c (stPoisoned 0)
        else if b.ok = true ∧ r.1.allSealed c.asid b = true then
          ∃ t, exec e s = .next t ∧
            Delivered (r.1.unseal c.asid pages) t c (fun _ => stDone pages.length) (stDone pages.length) ∧
            ∀ va ∈ pages, t.sealOf c.asid va = none
        else done e s r.1 c (stRefused 0)) ∧
  (∀ (s : State) (n : Nat), n < 512 → (s.pch n).resumeAt = none → ((s.pch n).computing = true → (s.pch n).ready s.dtime = true) →
    ∃ t, exec (.refresh n) s = .next t ∧ (t.pch n).openRow = none ∧ (∀ w ∈ (t.pch n).pend, 4 ≤ w.stream) ∧
      (let next := s.dtime + match (s.stackAt (n / 64)).tier with | 0 => 3900 | 1 => 1950 | _ => 975
        (t.pch n).nextRefresh ≤ next ∧ next < (t.pch n).nextRefresh + 512 ∧ (t.pch n).nextRefresh % 512 = n) ∧
      (t.pch n).resumeAt = (if (s.pch n).computing = true then some (((t.pch n).due + 1) / 2 + 360) else none) ∧
      t.mem = (s.flushAll n).mem ∧ t.bad = (s.flushAll n).bad ∧ (t.pch n).fault = ((s.flushAll n).pch n).fault ∧
      t.crews = s.crews ∧ ((s.pch n).pend = [] → t.mem = s.mem) ∧
      ∀ m, m ≠ n → t.pch m = s.pch m ∨ (t.pch n).fault = true ∧ (s.pch n).run.isSome = true ∧ (s.pch m).run = (s.pch n).run ∧
        t.pch m = { s.pch m with fault := true, pend := [], mpc := 64 }) ∧
  (∀ (s : State) (n y : Nat), (s.pch n).resumeAt = some y → y ≤ s.dtime → (∀ c ∈ s.cmds, s.accesses c = true → s.reaches n c = false) →
    exec (.computeResume n) s = .next (s.setPch n { s.pch n with resumeAt := none })) ∧
  ∀ (s : State) (k temp : Nat), k < 8 →
    let tier := if temp ≤ 1360 then 0 else if temp ≤ 1520 then 1 else if temp ≤ 1680 then 2 else 3
    ∃ t, exec (.refreshTierChange k temp) s = .next t ∧ t = { s with pchs := t.pchs, hbm := t.hbm } ∧
      (t.stackAt k).temp = temp ∧ (t.stackAt k).tier = tier ∧ (tier = 3 → (t.stackAt k).divider = 8) ∧
      (∀ m, m ≠ k → t.stackAt m = s.stackAt m) ∧
      ∀ n,
        let old := refreshInterval (s.stackAt k).tier
        let new := refreshInterval tier
        let next := min (s.nextRefresh n) (s.nextRefresh n + new / 512 * 512 - old / 512 * 512)
        t.pch n = if old = new ∨ n / 64 ≠ k then s.pch n
          else { s.pch n with nextRefresh :=
            if s.dtime < next then next else if (s.pch n).computing then s.dtime else staggered n (s.dtime + new) }

/-- R151, R177 to R179, R237, R238, R369: the service answers a call lane by lane, in ascending order: ALLOC reserves pages within the quota
and writes their address, FREE unmaps an allocation, BAGNEW makes a bag as its record says and writes its handle, BAGFREE raises the generation at
once and discards the bag when nothing is under way on it, PRINT appends a string; pages of the thread's operands are repaired whatever the reply.
The call completes once every lane has its word and DTIME has passed what the service wrote; an unknown number is REFUSED, a killed launch's call
CANCELLED. The range that the service reserves (log 10), the order of ALLOC's checks and what it charges (log 50), that a poisoned string cannot be
read (log 51) and the reply to a second doubleword that is not zero (log 52) are the model's. Completes: serviceReply, allocSvc, freeSvc,
bagnewSvc, bagfreeSvc, printSvc. -/
def Obligations.ServiceEvents : Prop :=
  let wrote := fun (s t : State) (cell : Nat) (bs : List Byte) => Memory.wf s.mem = true → ∀ a, Memory.read t.mem a =
    if cell ≤ a ∧ a < cell + bs.length then bs.getD (a - cell) 0 else Memory.read s.mem a
  (∀ (s : State) (c : Cmd) (n : Nat) (g : Mask) (head : List Byte) (reqs : List (List Byte)) (replies : List (Option Word)),
    s.cmd c.id = some c → c.kind = .scall n g head reqs replies → c.slot < 64 →
    if (s.launch c.launch).killCause.isSome then
      ∃ t, exec (.serviceReply c.id) s = .next t ∧ Delivered s t c (fun _ => stCancelled) stCancelled
    else if n ≠ 1 ∧ n ≠ 2 ∧ n ≠ 0x10 ∧ n ≠ 0x11 ∧ n ≠ 0x20 then
      ∃ t, exec (.serviceReply c.id) s = .next t ∧ Delivered s t c (fun l => (replies.getD l none).getD (stRefused 0)) (stRefused 0)
    else (∀ l, g.getLsbD l = true → (replies.getD l none).isSome = true) → (c.ct = 0 ∨ c.ct < s.dtime) →
      ∃ t, exec (.serviceReply c.id) s = .next t ∧ Delivered s t c (fun l => (replies.getD l none).getD (stDone 0)) (stDone 0)) ∧
  (∀ (s : State) (id lane : Nat) (c : Cmd) (f : List Byte), s.request id lane 1 = some (c, f) → s.serviceHeld c (field f 8 8) 8 = false →
    let size := field f 0 4; let home := field f 4 1; let out := field f 8 8
    let p := s.servicePlace c out
    let a := p.1.aspace c.asid
    if size = 0 ∨ 8 ≤ home ∧ home ≠ 0xff ∨ field f 5 3 ≠ 0 ∨ out % 8 ≠ 0 then exec (.allocSvc id lane) s = .next (s.reply c lane 1 0)
    else match p.2, p.1.reserve c.asid size with
      | some cell, some base =>
        if (p.1.vi a.vi).memQuota < (p.1.vi a.vi).memUsed + size ∨ p.1.spareFrames a.vi < size then
          exec (.allocSvc id lane) s = .next (p.1.reply c lane 3 0)
        else
          let w := p.1.serviceStore cell (leBytes 8 base)
          ∃ d : State, exec (.allocSvc id lane) s = .next (d.reply c lane 0 w.2) ∧ d = { w.1 with aspaces := d.aspaces, vis := d.vis } ∧
            wrote p.1 d cell (leBytes 8 base) ∧
            d.aspace c.asid = { a with
              nextVa := base + size * 65536
              allocs := a.allocs ++ [⟨base, size, some (if home = 0xff then clusterOf c.core else home)⟩] } ∧
            (d.vi a.vi).memUsed = (p.1.vi a.vi).memUsed + size
      | _, _ => exec (.allocSvc id lane) s = .next (p.1.reply c lane 1 0)) ∧
  (∀ (s : State) (id lane : Nat) (c : Cmd) (f : List Byte), s.request id lane 2 = some (c, f) →
    let a := s.aspace c.asid
    match a.allocs.find? fun r => r.base == field f 0 8 with
    | none => exec (.freeSvc id lane) s = .next (s.reply c lane 1 0)
    | some r =>
      if field f 8 8 ≠ 0 then exec (.freeSvc id lane) s = .next (s.reply c lane 1 0)
      else s.rangeQuiet c.asid r.base r.pages = true →
        let b := s.unmapRange c.asid r.base r.pages
        ∃ d : State, exec (.freeSvc id lane) s = .next (d.reply c lane 0 0) ∧ d = { b with aspaces := d.aspaces, vis := d.vis } ∧
          d.aspace c.asid = { a with allocs := a.allocs.filter fun x => x.base != r.base } ∧
          d.vi a.vi = { b.vi a.vi with memUsed := (b.vi a.vi).memUsed - r.pages }) ∧
  (∀ (s : State) (id lane : Nat) (c : Cmd) (f : List Byte), s.request id lane 0x10 = some (c, f) →
    s.serviceHeld c (field f 0 8 + 24) 8 = false →
    if field f 0 8 % 32 ≠ 0 ∨ field f 8 8 ≠ 0 then exec (.bagnewSvc id lane) s = .next (s.reply c lane 1 0)
    else
      let r := s.engineRecord c.core c.asid (field f 0 8) 4
      let p := r.1.servicePlace c (field f 0 8 + 24)
      let refused := fun w => exec (.bagnewSvc id lane) s = .next (p.1.reply c lane w 0)
      match cleanBytes r.2, p.2 with
      | some h, some cell =>
        let v : Bag := {
          cap := field h 0 4, mask := BitVec.ofNat 32 (field h 4 4), size := field h 8 1, domain := field h 9 1
          slack := field h 10 1, place := field h 12 2 }
        let a := p.1.aspace c.asid
        let pages := v.count * v.sharePages
        if v.cap = 0 ∨ 2 ^ 24 < v.cap ∨ 3 < v.size ∨ 3 < v.domain ∨ v.slack = 0 ∨ field h 11 1 ≠ 0 ∨
            (v.domain = 0 ∧ 511 < v.place ∨ v.domain = 1 ∧ 7 < v.place ∨ 1 < v.domain ∧ v.place ≠ 0) ∨ field h 14 8 ≠ 0 ∨
            field h 22 2 ≠ 0 then refused 1
        else match a.freeBag with
          | none => refused 2
          | some idx =>
            if (p.1.vi a.vi).memQuota < (p.1.vi a.vi).memUsed + pages then refused 3
            else match p.1.reserve c.asid pages with
              | none => refused 3
              | some base =>
                let g := { v with live := true, gen := (p.1.bag c.asid idx).gen, base := base }
                let b := (p.1.setAspace c.asid { a with nextVa := base + pages * 65536, bags := tset a.bags idx g }).setVi a.vi
                  { p.1.vi a.vi with memUsed := (p.1.vi a.vi).memUsed + pages }
                match b.mapBag a.vi c.asid g (List.range v.count) with
                | none => refused 3
                | some t => ∃ d ct, exec (.bagnewSvc id lane) s = .next (d.reply c lane 0 ct) ∧ d.bag c.asid idx = g ∧
                    (d.vi a.vi).memUsed = (p.1.vi a.vi).memUsed + pages ∧ d.frames = t.frames ∧
                    p.1.frames.length + pages ≤ t.frames.length ∧
                    wrote t d cell (leBytes 8 (g.gen * 4096 + idx + c.asid * 2 ^ 32))
      | _, _ => refused 1) ∧
  (∀ (s : State) (id lane : Nat) (c : Cmd) (f : List Byte), s.request id lane 0x11 = some (c, f) → s.freeing id lane = none →
    match s.handle c.asid (BitVec.ofNat 64 (field f 0 8)) with
    | none => exec (.bagfreeSvc id lane) s = .next (s.reply c lane 1 0)
    | some idx =>
      let g := s.bag c.asid idx
      if field f 8 8 ≠ 0 then exec (.bagfreeSvc id lane) s = .next (s.reply c lane 1 0)
      else
        let b := (s.setBag c.asid idx { g with gen := (g.gen + 1) % 2 ^ 20, live := false, freeing := some (id, lane) }).setCmd
          { c with phase := .started }
        if b.bagBusy c.asid idx = true ∨ b.rangeQuiet c.asid g.base (g.count * g.sharePages) = false then
          exec (.bagfreeSvc id lane) s = .next b
        else ∃ d : State, exec (.bagfreeSvc id lane) s = .next (d.reply c lane 0 0) ∧
          d.bag c.asid idx = { gen := (g.gen + 1) % 2 ^ 20 }) ∧
  (∀ (s : State) (id lane asid idx : Nat), s.freeing id lane = some (asid, idx) → s.bagBusy asid idx = false →
    let g := s.bag asid idx
    s.rangeQuiet asid g.base (g.count * g.sharePages) = true →
    ∃ t d : State, exec (.bagfreeSvc id lane) s = .next t ∧ d.bag asid idx = { gen := g.gen } ∧
      (d.vi (s.aspace asid).vi).memUsed = (s.vi (s.aspace asid).vi).memUsed - g.count * g.sharePages ∧
      t = match s.request id lane 0x11 with
        | some q => d.reply q.1 lane 0 0
        | none => d) ∧
  (∀ (s : State) (id lane : Nat) (c : Cmd) (f : List Byte), s.request id lane 0x20 = some (c, f) →
    s.servesVas c.core c.asid ((List.range 256).map fun i => field f 0 8 + i) = true →
    exec (.printSvc id lane) s = .next (match s.readString c (field f 0 8) 256 with
      | (b, none) => b.reply c lane 1 0
      | (b, some bs) =>
        let x := b.launch c.launch
        (b.setLaunch c.launch { x with prints := x.prints ++ [(bs, BitVec.ofNat 64 (field f 8 8))] }).reply c lane 0 0)) ∧
  ∀ (s : State) (c : Cmd) (lane w ct n : Nat) (g : Mask) (head : List Byte) (reqs : List (List Byte)) (replies : List (Option Word)),
    s.cmd c.id = some c → c.kind = .scall n g head reqs replies →
    let d := { c with
      kind := .scall n g head reqs (setAt 32 none replies lane (some (BitVec.ofNat 32 w))), phase := .started, ct := max c.ct ct }
    s.reply c lane w ct = { s with cmds := s.cmds.map fun x => if x.id = c.id then d else x } ∧ (s.reply c lane w ct).cmd c.id = some d

/-- R20, R57, R107, R194, R216 to R224, R226, R245: a doorbell moves a queue's tail; the next record of a queue is accepted in ring order,
and a LAUNCH's once it may be sent; a record is judged; a launch starts once its dependences are met and DTIME has passed what its launcher
had written, with a READY thread for every index at its entry; it completes with its event word written and its future and dependants
told. The frames of its brood spill area are charged to its interface as it is accepted. A crew that its cluster admits takes its core, and one that was
evicted reads its registers back from its eviction area; a victim leaves its core once its entries have retired, its registers, poison, and all else that
is live of it written to that area (the area's layout is log 36); pre-emption takes at least one crew
of a higher class number, each such crew stops or leaves its core, and no other crew changes. The model's readings: the windows' place (log 10), a
poisoned record (log 31), the order of victims (log 33), dependence fields (log 38), the queue's address space (log 40), the TLB of a queue's
launch (log 41), which crew is admitted (log 42), its process and service-thread numbers (log 73). Completes: doorbellWrite, launchRecordAccept,
launchStart, launchCompletion, crewAdmit, preempt. -/
def Obligations.LaunchEvents : Prop :=
  (∀ (s : State) (vi queue : Nat) (tail : Word), queue < 8 → thas (s.vi vi).queues queue = true →
    tail.toNat < 2 ^ (tget {} (s.vi vi).queues queue).log2 →
    ∃ t, exec (.doorbellWrite vi (8 * queue) tail) s = .next t ∧ t = { s with vis := t.vis } ∧
      t.vi vi = { s.vi vi with queues := (t.vi vi).queues } ∧
      tget {} (t.vi vi).queues queue = { tget {} (s.vi vi).queues queue with tail := tail.toNat } ∧
      (∀ q, q ≠ queue → tget {} (t.vi vi).queues q = tget {} (s.vi vi).queues q) ∧ ∀ v, v ≠ vi → t.vi v = s.vi v) ∧
  (∀ (s : State) (vi queue : Nat), thas (s.vi vi).queues queue = true →
    let q := tget {} (s.vi vi).queues queue
    q.head ≠ q.tail → s.servesVas 0 q.asid (s.recordVas { asid := q.asid } (q.base + 128 * q.head)) = true →
    ∃ b : State, exec (.launchRecordAccept vi queue) s = .next (b.acceptRecord s.nextLaunch false (q.base + 128 * q.head)) ∧
      b = { s with vis := b.vis, launches := b.launches, nextLaunch := s.nextLaunch + 1 } ∧
      tget {} (b.vi vi).queues queue = { q with head := (q.head + 1) % 2 ^ q.log2 } ∧
      b.launch s.nextLaunch =
        { vi := vi, asid := q.asid, process := BitVec.ofNat 32 vi, sthread := BitVec.ofNat 32 queue }) ∧
  (∀ (s : State) (lid p id : Nat), thas s.launches lid = true → (s.launch lid).phase = .sending → (s.launch lid).parent = some (p, id) →
    s.outstanding p (((s.cmd id).map (·.tid)).getD 0) = false →
    s.servesVas (s.launchCore (s.launch lid)) (s.launch lid).asid (s.recordVas (s.launch lid) (s.launch lid).record.toNat) = true →
    exec (.launchStart lid) s = .next
      ((s.setLaunch lid { s.launch lid with startAfter := (s.launch p).maxCt }).acceptRecord lid true (s.launch lid).record.toNat)) ∧
  (∀ (s : State) (lid va : Nat) (own : Bool),
    let x := s.launch lid
    let r := s.engineRecord (s.launchCore x) x.asid va 16
    let t := s.acceptRecord lid own va
    (∀ n, n ≠ lid → t.launch n = s.launch n) ∧
    match cleanBytes r.2 with
    | none => (t.launch lid).phase = .closing (stFaulted 0)
    | some f =>
      if recordBad own f then (t.launch lid).phase = .closing (stRefused 0)
      else
        let b := r.1.setLaunch lid (recordLaunch { x with deps := recordDeps x.deps f } f)
        let h := b.engineRecord (s.launchCore x) x.asid (field f 24 8) (2 * field f 32 2)
        match cleanBytes h.2 with
        | none => (t.launch lid).phase = .closing (stFaulted 0)
        | some g =>
          let herds := (chunks 16 (field f 32 2) g).map fun e => (⟨field e 0 4, field e 4 4, field e 8 4, field e 12 4⟩ : HerdEntry)
          if herds.any fun e => e.width == 0 || e.count == 0 || (1 < e.count && e.stride < e.width) then
            (t.launch lid).phase = .closing (stRefused 0x14)
          else if field f 12 4 / 4 % 4 = 2 ∧ h.1.handle x.asid (BitVec.ofNat 64 (field f 96 8)) = none then
            (t.launch lid).phase = .closing (stRefused 0x06)
          else
            let y := t.launch lid
            y.phase = .accepted ∧ y.herds = herds ∧ y.entry = BitVec.ofNat 64 (field f 0 8) ∧ y.count = field f 8 4 ∧
            y.control = BitVec.ofNat 32 (field f 12 4) ∧ y.countPtr = field f 16 8 ∧ y.lsize = field f 34 2 ∧
            y.scratch = field f 36 1 ∧ y.acc = field f 37 1 ∧ y.dscale = field f 38 1 ∧ y.bscale = field f 39 1 ∧
            y.fcw = BitVec.ofNat 32 (field f 40 4 % 32) ∧ y.perShare = field f 44 2 ∧ y.spillUnits = field f 46 2 ∧
            y.trapEntry = BitVec.ofNat 64 (field f 48 8) ∧ y.event = field f 56 8 ∧ y.cls = max x.cls (field f 12 4 / 16 % 4) ∧
            y.broodAreas.length ≤ 2 * field f 46 2 ∧
            (t.vi x.vi).memUsed = (h.1.vi x.vi).memUsed + y.broodAreas.length + (y.areas.length - x.areas.length)) ∧
  (∀ (s : State) (lid : Nat), thas s.launches lid = true → (s.launch lid).phase = .accepted →
    let x := s.launch lid
    let r := s.mapM (fun s d => s.judgeDep x d) x.deps
    if r.2.contains .faulted then
      ∃ t, exec (.launchStart lid) s = .next t ∧ t = r.1.setLaunch lid { r.1.launch lid with phase := .closing (stFaulted 0) }
    else if r.2.contains .other then
      ∃ t, exec (.launchStart lid) s = .next t ∧ t = r.1.setLaunch lid { r.1.launch lid with phase := .closing stCancelled }
    else (∀ d ∈ r.2, d = .met) → (x.startAfter = 0 ∨ x.startAfter < s.dtime) →
      ∃ t, exec (.launchStart lid) s = .next t ∧
        (∀ base, x.deps = [] → x.aff ≠ 2 → x.cp = false → x.herdsBad x.count = false → 0 < x.count →
          (if x.windowBytes < 65536 then base = 0
            else s.reserve x.asid ((x.count + 65536) * (x.windowBytes / 65536)) = some base) →
          (t.launch lid).phase = .running ∧ (t.launch lid).nthr = x.count ∧ (t.launch lid).localBase = base ∧
          t.nextCrew = s.nextCrew + (x.count + 31) / 32 ∧ t.mem = s.mem ∧
          ∀ k l, l < 32 → k < (x.count + 31) / 32 →
            let c := t.crew (s.nextCrew + k)
            c.launch = lid ∧ c.core = none ∧ s.nextCrew + k ∈ (t.cluster c.cluster).queue ∧
            if 32 * k + l < x.count then
              (c.thr l).state = .ready ∧ (c.thr l).tid = BitVec.ofNat 32 (32 * k + l) ∧ (c.thr l).pc = x.entry ∧
              (c.thr l).fcw = x.fcw ∧ c.rd 60 l = BitVec.ofNat 32 x.localBytes ∧ c.rd 61 l = 0 ∧
              ∀ w, w ≠ 60 → w ≠ 61 → c.lane w l = {}
            else (c.thr l).state = .exited)) ∧
  (∀ (s b : State) (lid : Nat) (st : Word), thas s.launches lid = true → s.launchOutcome lid = some st → s.writeEvent lid st = some b →
    let y := b.launch lid
    let d := if y.localArea.pages = 0 then b else b.releaseArea lid
    let d := ({ d with crews := d.crews.filter fun e => e.2.launch != lid } : State).giveAreas lid
    let d := d.setLaunch lid { d.launch lid with phase := .done st, deps := [] }
    match y.parent with
    | none => exec (.launchCompletion lid) s = .next d
    | some p => ∀ c, d.cmd p.2 = some c → c.slot < 64 → (∀ n g h q r, c.kind ≠ .scall n g h q r) →
      ∃ t, exec (.launchCompletion lid) s = .next t ∧ Delivered d t c (fun _ => st) st) ∧
  (∀ (s : State) (lid : Nat) (st : Word),
    let x := s.launch lid
    (x.event = 0 → s.writeEvent lid st = some s) ∧
    (x.event ≠ 0 → x.event % 8 = 0 →
      let r := s.translateRepair (s.launchCore x) x.asid .write x.event
      match r.2 with
      | .error _ => s.writeEvent lid st = some { r.1 with posts := r.1.posts ++ [.eventError lid x.event] }
      | .ok e => Memory.wf r.1.mem = true → r.1.ownedBy (e.cell x.event) 8 = false → r.1.serves (e.cell x.event) = true →
        ∃ b, s.writeEvent lid st = some b ∧ ∀ a, Memory.read b.mem a =
          if e.cell x.event ≤ a ∧ a < e.cell x.event + 8 then (leBytes 8 (st.toNat + 2 ^ 63)).getD (a - e.cell x.event) 0
          else Memory.read r.1.mem a)) ∧
  (∀ (s : State) (cl v k n : Nat), s.admitNext cl = some (v, k, n) →
    let c := s.crew k
    let back := fun (r l : Nat) => c.evicted = true ∧ c.area.isSome = true ∧ (c.lane r l).st = .live ∧ (c.lane r l).slot = none ∧
      ∃ p, c.reg r = some p ∧ p.bank = none ∧ p.spilled = false
    ∃ t, exec (.crewAdmit cl) s = .next t ∧ t.mem = s.mem ∧
      (∀ m, m ≠ n → t.core m = s.core m) ∧
      if ((s.core n).grant c.launch (s.launch c.launch)).ready c.launch then
        (∀ r l, r < 64 → l < 32 → (¬ back r l → (t.crew k).lane r l = c.lane r l) ∧
          (back r l → (t.crew k).lane r l =
            { c.lane r l with val := wordOf (Memory.readN s.mem (c.evictCell (256 * r) + 4 * l) 4) })) ∧
        (t.crew k).core = some n ∧ (t.crew k).lastCore = n ∧ (t.crew k).chosen = none ∧
        (t.cluster cl).queue = (s.cluster cl).queue.filter (fun j => j != k) ∧
        ∀ l, l < 32 → ((t.crew k).thr l).pc = (c.thr l).pc ∧ ((t.crew k).thr l).tid = (c.thr l).tid ∧
          ((c.thr l).state ≠ .future → ((t.crew k).thr l).state = if (c.thr l).state = .brood then .ready else (c.thr l).state)
      else (t.crew k).chosen = some n ∧ (t.crew k).map = c.map ∧ t.clusters = s.clusters) ∧
  (∀ (s : State) (cl k : Nat), s.readyVictim cl = some k → Memory.wf s.mem = true → (s.crew k).saved.length ≤ 32768 →
    let c := s.crew k
    ∃ t, exec (.preempt cl) s = .next t ∧ (∀ j, j ≠ k → t.crew j = s.crew j) ∧ (c.area = none → t.mem = s.mem) ∧
      (∀ f, c.area = some f → (∀ a, inFrame f false a = false → Memory.read t.mem a = Memory.read s.mem a) ∧
        (∀ r p, r < 64 → c.reg r = some p → p.bank.isSome = true →
          (∀ l, l < 32 → (p.lane l).st = .live →
            Memory.readN t.mem (c.evictCell (256 * r) + 4 * l) 4 = leBytes 4 (p.lane l).val.toNat) ∧
          t.sectorBad (c.evictCell (256 * r)) = p.poisonLo ∧ t.sectorBad (c.evictCell (256 * r) + 64) = p.poisonHi) ∧
        ∀ i, i < c.saved.length → Memory.read t.mem (c.evictCell (16384 + i)) = c.saved.getD i 0) ∧
      (t.crew k).core = none ∧ (t.crew k).evicted = true ∧ (t.crew k).evictions = c.evictions + 1 ∧
      (t.cluster c.cluster).queue = k :: (s.cluster c.cluster).queue ∧
      (∀ r l, r < 64 → l < 32 → (t.crew k).lane r l = c.lane r l) ∧
      ∀ l, l < 32 → ((t.crew k).thr l).pc = (c.thr l).pc ∧ ((t.crew k).thr l).state = (c.thr l).state) ∧
  ∀ (s : State) (cl v k : Nat), (s.crews.map (·.1)).Pairwise (· < ·) → s.readyVictim cl = none →
    (s.cluster cl).preempted < (s.cluster cl).cycle → v ∈ s.viOrder cl → k ∈ s.waitingOf cl v →
    let cls := fun j => (s.launch (s.crew j).launch).cls
    let needy := fun k =>
      let need := 96 * (s.cluster cl).queue.countP fun n =>
        (s.crew n).launch == (s.crew k).launch && (s.crew n).herdSet == (s.crew k).herdSet
      s.admitCore k = none ∧ (∀ n, n < 16 → s.freeSoon (16 * cl + n) < need) ∧
        ∃ n, n < 16 ∧ (s.victimOn (16 * cl + n) (cls k)).isSome = true
    needy k →
    ∃ t k', exec (.preempt cl) s = .next t ∧ (t.cluster cl).preempted = (s.cluster cl).cycle ∧
      (∃ v ∈ s.viOrder cl, k' ∈ s.waitingOf cl v) ∧ needy k' ∧
      (Memory.wf s.mem = true → (∀ j, (s.crew j).saved.length ≤ 32768) → ∀ a,
        (∀ j f, (s.crew j).area = some f → inFrame f false a = false) → Memory.read t.mem a = Memory.read s.mem a) ∧
      let taken := fun j => cls k' < cls j ∧ (∃ n, n < 16 ∧ (s.crew j).core = some (16 * cl + n)) ∧
        (((s.crew j).rob ≠ [] ∧ t.crew j = { s.crew j with leaving := true }) ∨
          (t.crew j).core = none ∧ j ∈ (t.cluster (s.crew j).cluster).queue)
      (∃ j, taken j) ∧ ∀ j, taken j ∨ t.crew j = s.crew j

/-- R74 to R76, R120, R145, R245 to R250, R254: accesses of the host and of Supex ports in the name of an interface, checked against what it was
granted and against locked frames, held while a checkpoint streams, acknowledged once DTIME has passed them; the ports' packets of four sectors, their
retries and failures; requests of remote clients; the link, which trains at the highest common rate; the boot path, which runs an image whose
signature verifies; checkpoints, which pre-empt every crew, stream when nothing is under way, and then apply what they held; code pages, all mapped
and locked or every refused one reported; shootdowns of an entry of any level. The layout of an access by physical address (log 7), the
signature's place and arithmetic (log 16), the interface named by an access (log 43), code only by MAP_EXECUTABLE (log 47), the form of its request
(log 54), a packet as one line, which stands at its port until time passes (log 79), and what a reset of the boot path leaves, with DTIME 0 and no record of
any core (log 5), are the model's. Completes: hostWrite, hostRead, supexWriteIn, supexReadIn, peerTransfer,
supexPortDown, flitRetry, ueFrameReceive, ueLinkDown, linkTrain, resetBoot, recoveryLoad, checkpoint, checkpointComplete, mapExecutable,
shootdown. -/
def Obligations.HostAndFabric : Prop :=
  let written := fun (s t : State) (cell : Nat) (data : List Byte) => Memory.wf s.mem = true → ∀ a, Memory.read t.mem a =
    if cell ≤ a ∧ a < cell + data.length then data.getD (a - cell) 0 else Memory.read s.mem a
  let outside := fun (s : State) (e : Instr) (vi : Nat) (port : Option Nat) (pa : Nat) (data : List Byte) (bad : List Bool) =>
    if (s.vi vi).grants pa = false ∨ s.codeLocked pa = true then
      ∃ t, exec e s = .next t ∧ t = { s with supex := t.supex, posts := s.posts ++ [.writeAck pa false] }
    else if s.ckpt = .streaming ∨ s.held ≠ [] then
      ∃ t, exec e s = .next t ∧ t = { s with supex := t.supex, held := s.held ++ [⟨some vi, port, pa, data, bad, false⟩] }
    else s.ownedBy (cellOf pa false) data.length = false → s.serves (cellOf pa false) = true →
      ∃ t, exec e s = .next t ∧ written s t (cellOf pa false) data ∧ t.crews = s.crews ∧
        t.acks = s.acks ++ [⟨port, pa, max s.dtime (s.horizonOf (lineOf (cellOf pa false)))⟩] ∧
        ∀ i, bad[i]? = some true → t.sectorBad (cellOf pa false + 64 * i) = true
  let reply := fun (s : State) (vi pa n : Nat) =>
    if (s.vi vi).grants pa then Post.readReply (Memory.readN s.mem (cellOf pa false) n) (s.poisonOf (cellOf pa false) n) else .readError pa
  let verifies := fun (image : List Byte) => decide (2820 ≤ image.length) &&
    Config.xmssVerifies Config.fusedRoot (image.take (image.length - 2820)) (image.drop (image.length - 2820))
  (∀ (s : State) (vi pa : Nat) (data : List Byte),
    (isHost pa = true → pa + data.length ≤ 2 ^ 46 →
      ∃ t, exec (.hostWrite ⟨vi, pa⟩ data) s = .next t ∧ t = { s with mem := t.mem, bad := t.bad } ∧ written s t pa data) ∧
    (isHost pa = false → physForm pa data.length = true → outside s (.hostWrite ⟨vi, pa⟩ data) vi none pa data [])) ∧
  (∀ (s : State) (vi pa n : Nat), physForm pa n = true → s.ownedBy (cellOf pa false) n = false → s.serves (cellOf pa false) = true →
    exec (.hostRead ⟨vi, pa⟩ n) s = .next { s with posts := s.posts ++ [reply s vi pa n] }) ∧
  (∀ (s : State) (p : Nat), p < 48 → (tget {} s.supex p).down = false →
    (∀ (vi pa : Nat) (data : List Byte) (bad : List Bool), pa % 256 = 0 → pa + 256 ≤ 2 ^ 39 → data.length = 256 → bad.length = 4 →
      outside s (.supexWriteIn p ⟨vi, pa⟩ data bad) vi (some p) pa data bad) ∧
    (∀ (vi pa : Nat), pa % 256 = 0 → pa + 256 ≤ 2 ^ 39 → s.ownedBy (cellOf pa false) 256 = false → s.serves (cellOf pa false) = true →
      ∃ t, exec (.supexReadIn p ⟨vi, pa⟩ none) s = .next t ∧ t = { s with supex := t.supex, posts := s.posts ++ [reply s vi pa 256] }) ∧
    (∀ (dest : PortAddr) (r : Nat × Nat) (data : List Byte) (bad : List Bool), s.peerReads.find? (fun r => r.1 == p) = some r →
      data.length = 256 → bad.length = 4 →
      if s.codeLocked r.2 = true then
        ∃ t, exec (.supexReadIn p dest (some (data, bad))) s = .next t ∧
          t = { s with supex := t.supex, peerReads := s.peerReads.erase r, posts := s.posts ++ [.writeAck r.2 false] }
      else if s.ckpt = .streaming ∨ s.held ≠ [] then
        ∃ t, exec (.supexReadIn p dest (some (data, bad))) s = .next t ∧
          t = { s with supex := t.supex, peerReads := s.peerReads.erase r, held := s.held ++ [⟨none, some p, r.2, data, bad, true⟩] }
      else s.ownedBy (cellOf r.2 false) 256 = false → s.serves (cellOf r.2 false) = true →
        ∃ t, exec (.supexReadIn p dest (some (data, bad))) s = .next t ∧ written s t (cellOf r.2 false) data ∧
          t.peerReads = s.peerReads.erase r ∧ ∀ i, bad[i]? = some true → t.sectorBad (cellOf r.2 false + 64 * i) = true) ∧
    (∀ (pa n : Nat), 0 < n → n % 256 = 0 → pa % 256 = 0 → pa + n ≤ 2 ^ 39 →
      let lines := (List.range (n / 256)).map fun i => pa + 256 * i
      exec (.peerTransfer p pa ⟨n, true⟩) s = .next { s with peerReads := s.peerReads ++ lines.map fun a => (p, a) } ∧
      ((∀ a ∈ lines, s.ownedBy (cellOf a false) 256 = false ∧ s.serves (cellOf a false) = true) →
        let packet := fun a => Post.streamed p a (Memory.readN s.mem (cellOf a false) 256) (s.poisonOf (cellOf a false) 256)
        exec (.peerTransfer p pa ⟨n, false⟩) s = .next { s with peerOut := s.peerOut ++ lines.map fun a => (p, packet a) })) ∧
    (∃ t, exec (.supexPortDown p) s = .next t ∧ (tget {} t.supex p).down = true ∧ t.mem = s.mem ∧
      t.acks = s.acks.filter (fun a => a.port != some p) ∧ t.peerReads = s.peerReads.filter (fun r => r.1 != p) ∧
      t.peerOut = s.peerOut.filter (fun r => r.1 != p) ∧
      (∀ h ∈ t.held, h.port = some p → h.lost = true) ∧
      t.posts = s.posts ++ [.portError p (s.acks.countP (fun a => a.port == some p) +
        s.held.countP (fun h => h.port == some p && !h.lost) + s.peerReads.countP (fun r => r.1 == p) +
        s.peerOut.countP fun r => r.1 == p)]) ∧
    ((tget {} s.supex p).retries + 1 ≠ 16 → ∃ t, exec (.flitRetry p) s = .next t ∧ t = { s with supex := t.supex } ∧
      (tget {} t.supex p).retries = (tget {} s.supex p).retries + 1 ∧ (tget {} t.supex p).down = false) ∧
    ((tget {} s.supex p).retries + 1 = 16 → exec (.flitRetry p) s = exec (.supexPortDown p) s)) ∧
  (∀ (s : State) (p : Nat) (q : UeRequest), p < 2 → s.ueDown.contains p = false →
    let kept := exec (.ueFrameReceive p q) s = .next { s with ueFlights := s.ueFlights ++ [⟨p, q⟩] }
    if s.ckpt = .idle ∧ s.ueFlights = [] then match q with
      | .put .. => exec (.ueFrameReceive p q) s = .next { s with reservations := s.reservations ++ [⟨p, q⟩] }
      | .launch vi queue record => match s.queueRecord vi queue record with
        | none => kept
        | some b => exec (.ueFrameReceive p q) s = .next { b with posts := b.posts ++ [.ueAnswer p] }
      | .other _ => exec (.ueFrameReceive p q) s = .next { s with posts := s.posts ++ [.ueAnswer p] }
    else kept) ∧
  (∀ (s : State) (vi queue : Nat) (record : List Byte),
    let q := tget {} (s.vi vi).queues queue
    thas (s.vi vi).queues queue = true → record.length = 128 → (q.tail + 1) % 2 ^ q.log2 ≠ q.head →
    let va := q.base + 128 * q.tail
    let r := s.translateRepair 0 q.asid .write va
    match r.2 with
    | .error _ => s.queueRecord vi queue record = some r.1
    | .ok e => if r.1.ownedBy (e.cell va) 128 = true ∨ r.1.serves (e.cell va) = false then s.queueRecord vi queue record = none
      else ∃ b, s.queueRecord vi queue record = some b ∧ written r.1 b (e.cell va) record ∧
        tget {} (b.vi vi).queues queue = { q with tail := (q.tail + 1) % 2 ^ q.log2 }) ∧
  (∀ (s : State) (p : Nat), p < 2 → ∃ t, exec (.ueLinkDown p) s = .next t ∧ t.ueDown.contains p = true ∧
    t = { s with
      ueDown := t.ueDown, ueFlights := s.ueFlights.filter fun u => u.port != p
      reservations := s.reservations.filter fun u => u.port != p }) ∧
  (∀ (s : State) (rates : List Nat) (gen width : Nat), 5 ≤ gen → gen ≤ 7 → gen ∈ rates → (∀ g ∈ rates, g ≤ gen ∨ 7 < g) →
    width = 4 ∨ width = 8 ∨ width = 16 → exec (.linkTrain rates width) s = .next { s with linkGen := gen, linkWidth := width }) ∧
  (∀ (s : State) (image : List Byte), ∃ t, exec (.resetBoot image) s = .next t ∧
    t.boot = (if verifies image then .running else .recovery) ∧ t.tripped = false ∧ t.dtime = 0 ∧ t.crews = [] ∧
    t.launches = [] ∧ t.aspaces = [] ∧ t.vis = [] ∧ t.cores = [] ∧ t.cmds = [] ∧ ∀ e ∈ t.mem, isHost e.1 = true) ∧
  (∀ (s : State) (p : Bool) (image : List Byte), s.boot = .recovery →
    exec (.recoveryLoad p image) s = .next { s with boot := if verifies image then .running else .recovery }) ∧
  (∀ (s : State),
    (s.ckpt = .idle → ∃ t, exec .checkpoint s = .next t ∧ t.ckpt = .quiescing ∧
      (Memory.wf s.mem = true → (∀ k, (s.crew k).saved.length ≤ 32768) → ∀ a,
        (∀ k f, (s.crew k).area = some f → inFrame f false a = false) → Memory.read t.mem a = Memory.read s.mem a) ∧
      ((s.crews.map (·.1)).Pairwise (· < ·) → ∀ k, (t.crew k).core = none ∨ (t.crew k).leaving = true ∧ (t.crew k).rob ≠ [])) ∧
    (s.ckpt = .quiescing → s.unsettled = false → exec .checkpoint s = .next { s with ckpt := .streaming }) ∧
    (s.ckpt = .streaming → ∃ t, exec .checkpointComplete s = .next t ∧ t.ckpt = .idle ∧
      (s.owned = [] → (∀ n, s.opens n = true) → t.held = [] ∧ t.ueFlights = []) ∧
      (∃ ps, t.posts = s.posts ++ .checkpointDone true (s.mem.filter fun e => !isHost e.1) s.bad :: ps) ∧
      ∀ h, s.held = [h] → s.ueFlights = [] →
        let refused := s.codeLocked h.pa = true ∨ ∃ v, h.vi = some v ∧ (s.vi v).grants h.pa = false
        (refused → t.held = [] ∧ t.mem = s.mem) ∧
        (¬ refused → s.ownedBy (cellOf h.pa false) h.data.length = false → s.serves (cellOf h.pa false) = true →
          t.held = [] ∧ written s t (cellOf h.pa false) h.data))) ∧
  (∀ (s : State) (asid : Nat) (pages : List (Dword × Dword × Bool)), (s.aspace asid).live = true →
    (pages.map fun p => p.1.toNat).Pairwise (· < ·) → (∀ p ∈ pages, s.pageAsked asid p.1 p.2.1 p.2.2 = true) →
    ∃ t, exec (.mapExecutable asid pages) s = .next t ∧
    if ∃ p ∈ pages, (s.scanPage p.2.1 p.2.2).isSome = true then
      t = { s with posts := s.posts ++ pages.filterMap fun p => (s.scanPage p.2.1 p.2.2).map fun r => .mapRefused p.1.toNat r.1 r.2.1 r.2.2 }
    else
      (∀ p ∈ pages, ∀ f ∈ pageFrames p.2.1 p.2.2, t.codeLocked (f * 65536) = true) ∧
      (∃ at' : Nat → State, at' 0 = s ∧ t = at' pages.length ∧ ∀ i va e large, pages[i]? = some (va, e, large) →
        let u := { at' i with
          locked := pageFrames e large ++ (at' i).locked
          frames := (pageFrames e large).map (frameKey · (pteBL e)) ++ (at' i).frames }
        let n := u.nextTable ((u.aspace asid).root + 8 * bitsOf va.toNat 42 7)
        let r := if large then (n.1, n.2 + 8 * bitsOf va.toNat 29 13) else u.leafSlot asid va.toNat
        written r.1 (at' (i + 1)) (cellOf r.2 false) (leBytes 8 e.toNat) ∧ 
        at' (i + 1) = { r.1 with mem := (at' (i + 1)).mem, bad := (at' (i + 1)).bad, cores := (at' (i + 1)).cores }) ∧
      ∀ va e pa, pages = [(va, e, false)] → Memory.wf s.mem = true → s.leafAddr asid va.toNat = some (pa, 2 ^ 16) →
        let p1 := (s.aspace asid).root + 8 * bitsOf va.toNat 42 7
        let p2 := pteFrame (s.readPhys p1) + 8 * bitsOf va.toNat 29 13
        (∀ q, q = p1 ∨ q = p2 → cellOf q false + 8 ≤ cellOf pa false ∨ cellOf pa false + 8 ≤ cellOf q false) →
        ∃ x, t.walk (t.aspace asid).root va.toNat = .ok x ∧ x.leaf = e) ∧
  ∀ (s : State) (asid pa : Nat) (place : TablePlace) (new : Dword), (s.aspace asid).live = true → place.va.toNat < 2 ^ 49 →
    s.entryAddr asid place.va.toNat place.level = some pa → pteV (s.readPhys pa) = true →
    let size := if place.level = 1 then 2 ^ 42 else if place.level = 2 then 2 ^ 29 else 2 ^ 16
    let base := place.va.toNat / size * size
    let old := s.pagesIn asid base place.level (s.readPhys pa)
    let fresh := s.pagesIn asid base place.level new
    (∀ p ∈ fresh, pteX p.leaf = true → ∃ q ∈ old, p.sameCode q = true) → (∀ q ∈ old, s.leafQuiet asid q = true) →
    ∃ t, exec (.shootdown asid place new) s = .next t ∧ written s t (cellOf pa false) (leBytes 8 new.toNat) ∧ t.crews = s.crews ∧
      (∀ n, ∀ x, (x ∈ (t.core n).tlb ∨ x ∈ (t.die n).tlb) → x.asid = asid → x.va + x.size ≤ base ∨ base + size ≤ x.va) ∧
      (fresh = [] → ∀ f, s.locked.count f ≤ (old.flatMap fun q => if pteX q.leaf then q.frames else []).count f → f ∉ t.locked)

/-- R128, R210, R221, R233, R239, R250 to R253, R256, R257, R259: heat, power and ballast; what system software asks for: interfaces, address
spaces with their mailbox pages, queues, queue pairs, ranges, weights, grants and kills; and the debugger's requests. A die's sensor warns at 100
degrees and trips the module at 115, whichever event reads it. The governor takes its measures in order, and which one suffices is a free value
(log 49). A killed launch has no trap on its way and no thread left. A halt reports once every crew of the set has retired what it had issued. The
address space of a queue's ring (log 40), what is zeroed when a range passes (log 48), that a grant waits for what is still under way in the range (log 89), a lease of 0 (log 53) and where a mailbox page is mapped
(log 68) are the model's. Completes: thermalWarning, dieClockStep, thermalTrip, governorPeriod, setPowerCap, setBallastSetpoint, haltHerd, dbgStep,
dump, debuggerAttach, systemSoftwareKill, virtualInterfaceCreate, addressSpaceCreate, addressSpaceDestroy, queuePairBind, launchQueueSetup,
rangeRegister, setAdmissionWeight, firewallRangeGrant. -/
def Obligations.SystemSoftware : Prop :=
  let only := fun (s t : State) (vi : Nat) => t = { s with vis := t.vis } ∧ ∀ v, v ≠ vi → t.vi v = s.vi v
  (∀ (s : State) (n temp : Nat), n < 4 →
    (1600 ≤ temp → temp < 1840 → exec (.thermalWarning n temp) s =
      .next { s.setDie n { s.die n with temp := temp } with posts := s.posts ++ [.thermalWarning n] }) ∧
    (temp < 1840 → exec (.dieClockStep n temp) s = .next { s.setDie n { s.die n with
      temp := temp, steps := if 1728 < temp then min (7 - (s.die n).governed) ((s.die n).steps + 1)
        else if temp < 1664 then (s.die n).steps - 1 else (s.die n).steps } with
      posts := s.posts ++ if 1600 ≤ temp ∧ (s.die n).temp < 1600 then [.thermalWarning n] else [] }) ∧
    (1840 ≤ temp → ∀ e, e = .thermalTrip ⟨n, temp⟩ ∨ e = .thermalWarning n temp ∨ e = .dieClockStep n temp →
      ∃ t, exec e s = .next t ∧ t.tripped = true ∧ t.crews = [] ∧ t.launches = [] ∧ t.cmds = [] ∧
        (∀ e ∈ t.mem, isHost e.1 = true) ∧ (∃ ps, t.posts = s.posts ++ ps ++ [.trip]) ∧ t.dtime = s.dtime ∧
        (t.die n).temp = temp)) ∧
  (∀ (s : State) (power : Nat),
    let cap := match s.softCap with
      | some c => min c 2400
      | none => 2400
    ∃ t, exec (.governorPeriod power) s = .next t ∧ t.power = power ∧ t.mem = s.mem ∧
      let clocks := fun (f : Nat → Die → Nat) => t.throttle = f s.throttle { steps := 0 } ∧
        ∀ k, k < 4 → (t.die k).steps = (s.die k).steps ∧ (t.die k).governed = f (s.die k).governed (s.die k)
      let same := clocks fun g _ => g
      if cap < power then
        (0 < s.ballast ∧ t.ballast < s.ballast ∧ t.floor = s.floor ∧ same) ∨
        (s.floor < 8 ∧ t.ballast = 0 ∧ max 2 (s.floor + 1) ≤ t.floor ∧ t.floor ≤ 8 ∧ same) ∨
        t.ballast = 0 ∧ t.floor = 8 ∧ clocks fun g d => min (7 - d.steps) (g + 1)
      else if 0 < s.throttle then t.floor = s.floor ∧ t.ballast = s.ballast ∧ clocks fun g _ => g - 1
      else if 0 < s.floor then t.floor = (if s.floor ≤ 2 then 0 else s.floor - 1) ∧ t.ballast = s.ballast ∧ same
      else t.floor = 0 ∧ same ∧ t.ballast = match s.setpoint with
        | none => 0
        | some p => if power + 20 < p then min 256 (s.ballast + 8) else if p < power then s.ballast - 16 else s.ballast) ∧
  (∀ (s : State) (watts : Nat),
    exec (.setPowerCap watts) s = .next { s with softCap := some (min watts 2400) } ∧
    exec (.setBallastSetpoint none) s = .next { s with setpoint := none, ballast := 0 } ∧
    (watts ≤ s.capWatts → exec (.setBallastSetpoint (some watts)) s = .next { s with setpoint := some watts })) ∧
  (∀ (s : State) (lid : Nat) (h : HaltTarget) (ks : List Nat), s.haltSet lid h = some ks →
    (∃ t, exec (.haltHerd lid h) s = .next t ∧
      t = { s with crews := t.crews, clusters := t.clusters, launches := t.launches, posts := t.posts, halting := t.halting } ∧
      (if ∀ k ∈ ks, (s.crew k).rob = [] then t.halting = s.halting ∧
          t.posts = s.posts ++ [.halt (ks.flatMap fun k => laneList.filterMap fun l =>
            let x := (s.crew k).thr l
            if x = {} then none else some ⟨s.nameOf (s.crew k).launch x.tid, x.state, x.pc, (x.trap.map (·.cause)).getD 0⟩)]
        else t.halting = s.halting ++ [ks] ∧ t.posts = s.posts) ∧
      (∀ k, k ∉ ks → t.crew k = { s.crew k with stepping := (t.crew k).stepping } ∧ ((t.crew k).stepping = (s.crew k).stepping ∨
        (t.crew k).stepping = none ∧ ∃ j ∈ ks, (s.crew j).stepping = (s.crew k).stepping)) ∧
      ∀ k, k ∈ ks → (t.crew k).halted = true ∧ (t.crew k).stepping = none ∧ (t.crew k).map = (s.crew k).map ∧
        ∀ l, l < 32 → (t.crew k).thr l =
          if ((s.crew k).thr l).state = .exited then (s.crew k).thr l else { (s.crew k).thr l with halted := true, passBar := false }) ∧
    ((∃ k, k ∈ ks ∧ (s.crew k).halted = true) → (∀ k, k ∈ ks → (s.crew k).stepping = none) →
      ∃ t id, exec (.dbgStep lid h) s = .next t ∧ t = { s with crews := t.crews } ∧ (∀ k, k ∉ ks → t.crew k = s.crew k) ∧
      ∀ k, k ∈ ks → (t.crew k).halted = false ∧ (t.crew k).stepping = some id ∧
        ∀ l, l < 32 → ((t.crew k).thr l).pc = ((s.crew k).thr l).pc ∧ ((t.crew k).thr l).state = ((s.crew k).thr l).state ∧
          (((s.crew k).thr l).state ≠ .exited → ((t.crew k).thr l).halted = false ∧
            ((t.crew k).thr l).passBar = s.beforeBar k l)) ∧
    ∃ ds : List DumpCrew, exec (.dump lid h) s = .next { s with posts := s.posts ++ [.dump (s.haltLines ks) ds] } ∧ ds.length = ks.length ∧
      ∀ (i k : Nat), ks[i]? = some k → ∃ d : DumpCrew, ds[i]? = some d ∧ d.num = (s.crew k).num ∧ d.cc = laneList.map (fun l => ((s.crew k).thr l).cc) ∧
        (∀ r l, r < 64 → l < 32 → ((r, l) ∈ d.released ↔ ((s.crew k).lane r l).st = .released)) ∧
        ∀ r l v, r < 64 → l < 32 → ((r, l, v) ∈ d.regs ↔ ((s.crew k).lane r l).st = .live ∧ v = (s.crew k).rd r l)) ∧
  (∀ (s : State) (lid : Nat), thas s.launches lid = true →
    exec (.debuggerAttach lid) s = .next (s.setLaunch lid { s.launch lid with debugger := true }) ∧
    let x := s.launch lid
    (x.phase = .sending ∨ x.phase = .accepted → ∃ t cause, exec (.systemSoftwareKill lid) s = .next t ∧
      t = { s with launches := t.launches, fresh := t.fresh } ∧ (t.launch lid).phase = .closing (stFaulted cause)) ∧
    (x.phase = .running → x.killCause = none → ∃ t cause, exec (.systemSoftwareKill lid) s = .next t ∧
      (t.launch lid).killCause = some cause ∧ (∀ r ∈ t.traps, r.launch ≠ lid) ∧
      ((s.crews.map (·.1)).Pairwise (· < ·) → ∀ k, (t.crew k).launch = lid → (t.crew k).gone = true ∨ ∀ l, ((t.crew k).thr l).state = .exited))) ∧
  (∀ (s : State) (vi aq mq w : Nat) (pcs : List Nat), vi < 1024 → thas s.vis vi = false → aq ≤ 4096 → 1 ≤ w → w ≤ 255 →
    (∀ p ∈ pcs, p < 512) → exec (.virtualInterfaceCreate vi aq mq w pcs) s =
      .next (s.setVi vi { asidQuota := aq, memQuota := mq, weight := w, pcs := pcs })) ∧
  (∀ (s : State) (vi asid root lease : Nat), asid < 4096 → (s.aspace asid).live = false → thas s.vis vi = true →
    (s.aspaces.countP fun e => e.2.live && e.2.vi == vi) < (s.vi vi).asidQuota → root % 1024 = 0 → backed root = true →
    lease = 0 ∨ 256 ≤ lease ∧ lease ≤ 16384 ∧ lease % 256 = 0 →
    exec (.addressSpaceCreate vi asid root lease) s =
      .next ((s.vi vi).pcs.foldl (fun s p => s.mapMailbox asid p)
        (s.setAspace asid { vi := vi, root := root, lease := if lease = 0 then 2048 else lease }))) ∧
  (∀ (s : State) (asid p : Nat),
    let va := 2 ^ 49 - (512 - p) * 65536
    let frame := p * 2 ^ 14 + 0x3fff
    let r := ({ s with frames := frameKey frame true :: s.frames } : State).leafSlot asid va
    let t := s.mapMailbox asid p
    s.walk (s.aspace asid).root va = .error causeNotPresent → t = { r.1 with mem := t.mem, bad := t.bad, cores := t.cores } ∧
      (Memory.wf r.1.mem = true → ∀ a, Memory.read t.mem a = if cellOf r.2 false ≤ a ∧ a < cellOf r.2 false + 8 then
        (leBytes 8 (frame * 65536 + 0x893 + p / 64 * 256)).getD (a - cellOf r.2 false) 0 else Memory.read r.1.mem a)) ∧
  (∀ (s : State) (asid : Nat), (s.aspace asid).live = true → s.spaceBusy asid = false →
    ∃ t, exec (.addressSpaceDestroy asid) s = .next t ∧ (t.aspace asid).live = false ∧ t.crews = s.crews ∧
      (∀ a, a ≠ asid → t.aspace a = s.aspace a) ∧ (∀ e ∈ t.sealed, e.asid ≠ asid) ∧
      ∀ n, ∀ x ∈ (t.core n).tlb, x.asid ≠ asid) ∧
  (∀ (s : State) (vi q ctrl nsid lba : Nat), thas s.vis vi = true → q < 16 → lba = 512 ∨ lba = 4096 →
    ∃ t, exec (.queuePairBind vi q ctrl nsid lba) s = .next t ∧ only s t vi ∧
      t.vi vi = { s.vi vi with qps := tset (s.vi vi).qps q { ctrl := ctrl, nsid := nsid, lba := lba } }) ∧
  (∀ (s : State) (vi q log2 asid : Nat) (base : Dword) (as_ : List Nat), s.asidsOf vi = asid :: as_ → thas s.vis vi = true → q < 8 →
    base.toNat % 128 = 0 → 4 ≤ log2 → log2 ≤ 12 →
    ∃ t, exec (.launchQueueSetup vi q base log2) s = .next t ∧ only s t vi ∧
      t.vi vi = { s.vi vi with queues := tset (s.vi vi).queues q ⟨asid, base.toNat, log2, 0, 0⟩ }) ∧
  (∀ (s : State) (asid pages : Nat) (base : Dword), (s.aspace asid).live = true → base.toNat % 65536 = 0 →
    base.toNat + pages * 65536 ≤ 2 ^ 49 → exec (.rangeRegister asid base pages) s =
      .next (s.setAspace asid { s.aspace asid with ranges := (s.aspace asid).ranges ++ [⟨base.toNat, pages, none⟩] })) ∧
  (∀ (s : State) (vi w : Nat), thas s.vis vi = true → 1 ≤ w → w ≤ 255 →
    ∃ t, exec (.setAdmissionWeight vi w) s = .next t ∧ only s t vi ∧ t.vi vi = { s.vi vi with weight := w }) ∧
  ∀ (s : State) (vi base units : Nat), thas s.vis vi = true → 0 < units → base + units ≤ 2 ^ 30 →
    let passes := fun f => base ≤ f ∧ f < base + units ∧ ∃ e ∈ s.vis, e.1 ≠ vi ∧ e.2.grants (f * 65536) = true
    let gone := fun cell => if isHost cell then passes (cell / 65536) else
      passes (paOfPlain cell / 65536) ∨ passes (paOfLinear cell / 65536)
    ((∃ f ∈ s.flights, f.applied = false ∧ gone f.addr) ∨ (∃ o ∈ s.owned, gone o.addr) ∨ (∃ e ∈ s.crews, ∃ a, e.2.area = some a ∧ passes a) ∨
      (∃ e ∈ s.launches, ∃ a ∈ e.2.areas ++ e.2.broodAreas, passes a) → exec (.firewallRangeGrant vi base units) s = .next s) ∧
    ((∀ f ∈ s.flights, f.applied = false → ¬ gone f.addr) → (∀ o ∈ s.owned, ¬ gone o.addr) →
      (∀ e ∈ s.crews, ∀ a, e.2.area = some a → ¬ passes a) → (∀ e ∈ s.launches, ∀ a ∈ e.2.areas ++ e.2.broodAreas, ¬ passes a) →
    ∃ t, exec (.firewallRangeGrant vi base units) s = .next t ∧
      t = { s with mem := t.mem, bad := t.bad, vis := t.vis, cores := t.cores } ∧
      (∀ a, (gone a → Memory.read t.mem a = 0) ∧ (¬ gone a → Memory.read t.mem a = Memory.read s.mem a)) ∧
      (∀ n, ∀ x ∈ (t.core n).l1, ¬ gone (256 * x.line)) ∧
      ∀ f, (t.vi vi).grants (f * 65536) = ((s.vi vi).grants (f * 65536) || (base ≤ f && f < base + units)) ∧
        ∀ v, v ≠ vi → (t.vi v).grants (f * 65536) = ((s.vi v).grants (f * 65536) && !(base ≤ f && f < base + units)))
end

