-- ==== Sys2Proof/Laws/Issue.lean ====
section
/-! SUPPORT. Every instruction runs through State.issue with its own operands, so that what State.issue does, every instruction does. -/

namespace Sys2Proof.Machine

/-- What each instruction does is what issue does with its operands (R263) and some body; BAR only where no debugger's step stops it (R257). -/
theorem exec_issues (i : Instr) (h : i.encodable = true) (s : State) (hs : s.stepStops = 0) :
    ∃ body, exec i s = .next (s.issue (operandsOf i s) body) := by
  cases i <;> first
    | exact absurd h Bool.false_ne_true
    | exact ⟨_, congrArg Host.Outcome.next (if_pos hs)⟩
    | dsimp only [exec, execNop, execAdd, execAddI, execAddc, execSub, execSubb, execMul, execMulI, execMulh, execMad, execDiv, execRem,
      execMin, execMinI, execMax, execMaxI, execAbs, execAnd, execAndI, execOr, execOrI, execXor, execXorI, execAndn, execShl,
      execShlI, execShr, execShrI, execSar, execSarI, execRot, execRotI, execClz, execPopc, execBrev, execBfx, execBfi,
      execPerm, execSel, execCmp, execCmpI, execLea, execClmul, execMov, execAdd64, execCmp64, execMovi, execFadd, execFsub,
      execFmul, execFfma, execFmin, execFmax, execFcmp, execFclass, execFrcp, execFrsq, execFsqrt, execFexp2, execFlog2,
      execDot4, execH2add, execH2mul, execH2fma, execH2min, execH2max, execCvt, execDq4, execShfl, execVote, execScan,
      execTopk, execLd, execLdWide, execSt, execStWide, execLda, execStrel, execLdnc, execStnc, execAtom, execFenceCore,
      execFenceDev, execFenceSys, execBr, execCall, execJmp, execRet, execMpush, execMjoin, execMdrop, execExit, execBar,
      execBara, execYield, execSpawn, execRegroup, execFwait, execFtest, execFcancel, execFwany, execFwall, execFfirst,
      execCopy, execCopys, execCtset, execCtadd, execFetch, execLaunch, execMma, execMdrain, execMzero, execBput, execBtake,
      execBdrain, execBscan, execBcount, execBinfo, execNmload, execNmarm, execNmrun, execNmdisarm, execScall, execTrap,
      execTret, execSread, execSwrite, execBkpt, State.rr, State.rrr, State.ri, State.rrFlags, State.alu, State.frr, State.fr,
      State.facc, State.cross, State.memory, State.load1, State.store1, State.fence, State.barrierOp, State.waitSlots,
      State.counterOp, State.perLaneEngine, State.perLaneWhen, State.groupEngine, State.matrixOp, State.trapAll]
      exact ⟨_, rfl⟩

end Sys2Proof.Machine
end

