-- ==== Sys2Proof/Laws/Memory.lean ====
section
/-! SUPPORT. Memory operations: a read after a write, and that every operation keeps the canonical form. -/

namespace Sys2Proof.Machine

/-! ### A read after a write -/

theorem Memory.read_of_above (m : List Host.Cell) (a : Nat) (h : Memory.above a m = true) : Memory.read m a = Memory.unlisted := by
  induction m with
  | nil => rfl
  | cons e m ih =>
    obtain ⟨i, b⟩ := e
    simp only [Memory.above, List.all_cons, Bool.and_eq_true, decide_eq_true_eq] at h
    have : i ≠ a := by omega
    simp only [Memory.read, this, if_false]
    exact ih h.2

theorem Memory.above_mono {m : List Host.Cell} {a b : Nat} (hab : a ≤ b) (h : Memory.above b m = true) : Memory.above a m = true := by
  simp only [Memory.above, List.all_eq_true, decide_eq_true_eq] at *
  intro e he
  have := h e he
  omega

theorem Memory.wf_cons (i : Nat) (b : Byte) (m : List Host.Cell) :
    Memory.wf ((i, b) :: m) = true ↔ b ≠ Memory.unlisted ∧ Memory.above i m = true ∧ Memory.wf m = true := by
  simp [Memory.wf, and_assoc]

/-- A byte reads as it was last written, and every other byte as before (R4, R130). -/
theorem Memory.read_write (m : List Host.Cell) (a : Nat) (b : Byte) (h : Memory.wf m = true) (x : Nat) :
    Memory.read (Memory.write m a b) x = if x = a then b else Memory.read m x := by
  induction m with
  | nil =>
    by_cases hb : b = Memory.unlisted
    · by_cases hx : x = a <;> simp [Memory.write, Memory.read, hb, hx]
    · by_cases hx : x = a
      · simp [Memory.write, Memory.read, hb, hx]
      · have : a ≠ x := fun e => hx e.symm
        simp [Memory.write, Memory.read, hb, hx, this]
  | cons e m ih =>
    obtain ⟨i, y⟩ := e
    rw [Memory.wf_cons] at h
    obtain ⟨hy, hab, hm⟩ := h
    by_cases h1 : a < i
    · have hread : Memory.read ((i, y) :: m) a = Memory.unlisted := by
        have : i ≠ a := by omega
        simp only [Memory.read, this, if_false]
        exact Memory.read_of_above m a (Memory.above_mono (by omega) hab)
      by_cases hb : b = Memory.unlisted
      · simp only [Memory.write, h1, if_true, hb]
        by_cases hx : x = a
        · simp [hx, hread]
        · simp [hx]
      · simp only [Memory.write, h1, if_true, hb, if_false]
        by_cases hx : x = a
        · simp [hx, Memory.read]
        · have : a ≠ x := fun e => hx e.symm
          simp only [hx, if_false, Memory.read, this]
    · by_cases h2 : a = i
      · subst h2
        by_cases hb : b = Memory.unlisted
        · simp only [Memory.write, Nat.lt_irrefl, if_false, if_true, hb]
          by_cases hx : x = a
          · simp only [hx, if_true]
            exact Memory.read_of_above m a hab
          · have : a ≠ x := fun e => hx e.symm
            simp only [hx, if_false, Memory.read, this]
        · simp only [Memory.write, Nat.lt_irrefl, if_false, if_true, hb]
          by_cases hx : x = a
          · simp [hx, Memory.read]
          · have : a ≠ x := fun e => hx e.symm
            simp only [hx, if_false, Memory.read, this]
      · simp only [Memory.write, h1, h2, if_false, Memory.read, ih hm]
        by_cases hx : x = a
        · have : i ≠ a := fun e => h2 e.symm
          simp only [hx, this, if_false, if_true]
        · simp only [hx, if_false]

theorem Memory.above_write {m : List Host.Cell} {a n : Nat} (b : Byte) (hn : n < a) (h : Memory.above n m = true) :
    Memory.above n (Memory.write m a b) = true := by
  induction m with
  | nil => by_cases hb : b = Memory.unlisted <;> simp [Memory.write, Memory.above, hb, hn]
  | cons e m ih =>
    obtain ⟨i, y⟩ := e
    have h' := h
    simp only [Memory.above, List.all_cons, Bool.and_eq_true, decide_eq_true_eq] at h
    have ih := ih h.2
    simp only [Memory.write]
    split
    · split
      · exact h'
      · simp only [Memory.above, List.all_cons, Bool.and_eq_true, decide_eq_true_eq]; exact ⟨hn, h.1, h.2⟩
    · split
      · split
        · exact h.2
        · simp only [Memory.above, List.all_cons, Bool.and_eq_true, decide_eq_true_eq]; exact ⟨hn, h.2⟩
      · simp only [Memory.above, List.all_cons, Bool.and_eq_true, decide_eq_true_eq]
        exact ⟨h.1, ih⟩

/-! ### The canonical form -/

/-- A write of one byte keeps the canonical form. -/
theorem Memory.wf_write (m : List Host.Cell) (a : Nat) (b : Byte) (h : Memory.wf m = true) : Memory.wf (Memory.write m a b) = true := by
  induction m with
  | nil => by_cases hb : b = Memory.unlisted <;> simp [Memory.write, Memory.wf, Memory.above, hb]
  | cons e m ih =>
    obtain ⟨i, y⟩ := e
    have h' := h
    rw [Memory.wf_cons] at h
    obtain ⟨hy, hab, hm⟩ := h
    simp only [Memory.write]
    split
    · rename_i hlt
      split
      · exact h'
      · rename_i hb
        rw [Memory.wf_cons]
        refine ⟨hb, ?_, h'⟩
        simp only [Memory.above, List.all_cons, Bool.and_eq_true, decide_eq_true_eq]
        exact ⟨hlt, Memory.above_mono (Nat.le_of_lt hlt) hab⟩
    · split
      · rename_i heq
        split
        · exact hm
        · rename_i hb
          rw [Memory.wf_cons]
          exact ⟨hb, heq ▸ hab, hm⟩
      · rw [Memory.wf_cons]
        exact ⟨hy, Memory.above_write b (by omega) hab, ih hm⟩

/-- A write of several bytes keeps the canonical form. -/
theorem Memory.wf_writeN (bs : List Byte) (m : List Host.Cell) (a : Nat) (h : Memory.wf m = true) :
    Memory.wf (Memory.writeN m a bs) = true := by
  induction bs generalizing m a with
  | nil => exact h
  | cons b bs ih => exact ih _ _ (Memory.wf_write m a b h)

/-- Writes of an engine's bytes keep the canonical form. -/
theorem Memory.wf_foldl_write {α : Type} (xs : List α) (addr : α → Nat) (val : α → Byte) (m : List Host.Cell)
    (h : Memory.wf m = true) : Memory.wf (xs.foldl (fun m x => Memory.write m (addr x) (val x)) m) = true := by
  induction xs generalizing m with
  | nil => exact h
  | cons x xs ih => exact ih _ (Memory.wf_write m _ _ h)

/-- Leaving out bytes keeps the canonical form. -/
theorem Memory.wf_filter (f : Host.Cell → Bool) (m : List Host.Cell) (h : Memory.wf m = true) :
    Memory.wf (m.filter f) = true := by
  induction m with
  | nil => rfl
  | cons e m ih =>
    obtain ⟨i, y⟩ := e
    rw [Memory.wf_cons] at h
    have ih := ih h.2.2
    by_cases hf : f (i, y) = true
    · rw [List.filter_cons_of_pos hf, Memory.wf_cons]
      refine ⟨h.1, ?_, ih⟩
      simp only [Memory.above, List.all_eq_true] at *
      exact fun e he => h.2.1 e (List.mem_filter.1 he).1
    · rw [List.filter_cons_of_neg hf]
      exact ih

/-- The bytes of a written range read as they were written, and every byte outside it as before. -/
theorem Memory.read_writeN (bs : List Byte) (m : List Host.Cell) (a : Nat) (h : Memory.wf m = true) (x : Nat) :
    Memory.read (Memory.writeN m a bs) x =
      if a ≤ x ∧ x < a + bs.length then bs.getD (x - a) 0 else Memory.read m x := by
  induction bs generalizing m a with
  | nil =>
    have : ¬(a ≤ x ∧ x < a) := by omega
    simp [Memory.writeN, this]
  | cons b bs ih =>
    rw [Memory.writeN, ih _ _ (Memory.wf_write m a b h), Memory.read_write m a b h]
    by_cases hx : x = a
    · subst hx
      have h1 : ¬(x + 1 ≤ x ∧ x < x + 1 + bs.length) := by omega
      have h2 : x ≤ x ∧ x < x + (b :: bs).length := by simp
      rw [if_neg h1, if_pos h2]
      simp
    · by_cases hr : a + 1 ≤ x ∧ x < a + 1 + bs.length
      · have h2 : a ≤ x ∧ x < a + (b :: bs).length := by simp only [List.length_cons]; omega
        rw [if_pos hr, if_pos h2]
        obtain ⟨k, rfl⟩ : ∃ k, x = a + 1 + k := ⟨x - (a + 1), by omega⟩
        have e1 : a + 1 + k - (a + 1) = k := by omega
        have e2 : a + 1 + k - a = k + 1 := by omega
        rw [e1, e2, List.getD_cons_succ]
      · have h2 : ¬(a ≤ x ∧ x < a + (b :: bs).length) := by simp only [List.length_cons]; omega
        rw [if_neg hr, if_neg h2, if_neg hx]

/-- Reset memory lists nothing, and is canonical. -/
theorem State.reset_memory : Memory.wf State.reset.mem = true := rfl

end Sys2Proof.Machine
end

