-- ==== Sys2Proof/Laws/PerInstr.lean ====
section
/-! SUPPORT. The opcode of an encoded word, and for each instruction that its first word names it wide exactly when it is (R41, R65). -/

namespace Sys2Proof

/-- The opcode of an R-form word (R69). -/
theorem rWord_opcode (op : BitVec 8) (d a b fn : BitVec 6) : (rWord op d a b fn).extractLsb' 24 8 = op := by
  apply BitVec.eq_of_getLsbD_eq
  intro i hi
  unfold rWord
  rw [BitVec.getLsbD_extractLsb', BitVec.getLsbD_append, if_neg (by omega), BitVec.getLsbD_append, if_neg (by omega),
    BitVec.getLsbD_append, if_neg (by omega), BitVec.getLsbD_append, if_neg (by omega), decide_eq_true hi, Bool.true_and]
  congr 1
  omega

/-- The opcode of an I-form word (R69). -/
theorem iWord_opcode (op : BitVec 8) (d a : BitVec 6) (x : BitVec 12) : (iWord op d a x).extractLsb' 24 8 = op := by
  apply BitVec.eq_of_getLsbD_eq
  intro i hi
  unfold iWord
  rw [BitVec.getLsbD_extractLsb', BitVec.getLsbD_append, if_neg (by omega), BitVec.getLsbD_append, if_neg (by omega),
    BitVec.getLsbD_append, if_neg (by omega), decide_eq_true hi, Bool.true_and]
  congr 1
  omega

/-- The opcode of a B-form word (R69). -/
theorem bWord_opcode (op : BitVec 8) (x : BitVec 24) : (bWord op x).extractLsb' 24 8 = op := by
  apply BitVec.eq_of_getLsbD_eq
  intro i hi
  unfold bWord
  rw [BitVec.getLsbD_extractLsb', BitVec.getLsbD_append, if_neg (by omega), decide_eq_true hi, Bool.true_and]
  congr 1
  omega

/-- Whether an R-form word is wide depends on its opcode alone. -/
theorem wide_rWord (v : Bool) {op : BitVec 8} {d a b fn : BitVec 6} (h : wideOpcode (rWord op 0 0 0 0) = v) :
    wideOpcode (rWord op d a b fn) = v := by
  rw [← h]; simp only [wideOpcode, rWord_opcode]

/-- Whether an I-form word is wide depends on its opcode alone. -/
theorem wide_iWord (v : Bool) {op : BitVec 8} {d a : BitVec 6} {x : BitVec 12} (h : wideOpcode (iWord op 0 0 0) = v) :
    wideOpcode (iWord op d a x) = v := by
  rw [← h]; simp only [wideOpcode, iWord_opcode]

/-- Whether a B-form word is wide depends on its opcode alone. -/
theorem wide_bWord (v : Bool) {op : BitVec 8} {x : BitVec 24} (h : wideOpcode (bWord op 0) = v) : wideOpcode (bWord op x) = v := by
  rw [← h]; simp only [wideOpcode, bWord_opcode]

namespace Laws.WideWord

/-- The first word of an instruction names it wide exactly when it is (R41, R65). -/
def Statement (i : Instr) : Prop := wideOpcode (encodeWord i) = i.isWide

/-- What has no instruction word, or the word 0 of NOP. -/
theorem plain {i : Instr} (h : encodeWord i = 0) (hw : i.isWide = false) : Statement i := by
  unfold Statement; rw [h, hw]; decide

theorem nop : Statement (.nop) := plain rfl rfl
theorem add x0 x1 x2 x3 x4 : Statement (.add x0 x1 x2 x3 x4) := wide_rWord false (by decide)
theorem addI x0 x1 x2 : Statement (.addI x0 x1 x2) := wide_iWord false (by decide)
theorem addc x0 x1 x2 x3 x4 : Statement (.addc x0 x1 x2 x3 x4) := wide_rWord false (by decide)
theorem sub x0 x1 x2 x3 x4 : Statement (.sub x0 x1 x2 x3 x4) := wide_rWord false (by decide)
theorem subb x0 x1 x2 x3 x4 : Statement (.subb x0 x1 x2 x3 x4) := wide_rWord false (by decide)
theorem mul x0 x1 x2 : Statement (.mul x0 x1 x2) := wide_rWord false (by decide)
theorem mulI x0 x1 x2 : Statement (.mulI x0 x1 x2) := wide_iWord false (by decide)
theorem mulh x0 x1 x2 x3 : Statement (.mulh x0 x1 x2 x3) := wide_rWord false (by decide)
theorem mad x0 x1 x2 x3 : Statement (.mad x0 x1 x2 x3) := wide_rWord false (by decide)
theorem div x0 x1 x2 x3 : Statement (.div x0 x1 x2 x3) := wide_rWord false (by decide)
theorem rem x0 x1 x2 x3 : Statement (.rem x0 x1 x2 x3) := wide_rWord false (by decide)
theorem min x0 x1 x2 x3 : Statement (.min x0 x1 x2 x3) := wide_rWord false (by decide)
theorem minI x0 x1 x2 : Statement (.minI x0 x1 x2) := wide_iWord false (by decide)
theorem max x0 x1 x2 x3 : Statement (.max x0 x1 x2 x3) := wide_rWord false (by decide)
theorem maxI x0 x1 x2 : Statement (.maxI x0 x1 x2) := wide_iWord false (by decide)
theorem abs x0 x1 : Statement (.abs x0 x1) := wide_rWord false (by decide)
theorem and x0 x1 x2 : Statement (.and x0 x1 x2) := wide_rWord false (by decide)
theorem andI x0 x1 x2 : Statement (.andI x0 x1 x2) := wide_iWord false (by decide)
theorem or x0 x1 x2 : Statement (.or x0 x1 x2) := wide_rWord false (by decide)
theorem orI x0 x1 x2 : Statement (.orI x0 x1 x2) := wide_iWord false (by decide)
theorem xor x0 x1 x2 : Statement (.xor x0 x1 x2) := wide_rWord false (by decide)
theorem xorI x0 x1 x2 : Statement (.xorI x0 x1 x2) := wide_iWord false (by decide)
theorem andn x0 x1 x2 : Statement (.andn x0 x1 x2) := wide_rWord false (by decide)
theorem shl x0 x1 x2 : Statement (.shl x0 x1 x2) := wide_rWord false (by decide)
theorem shlI x0 x1 x2 : Statement (.shlI x0 x1 x2) := wide_iWord false (by decide)
theorem shr x0 x1 x2 : Statement (.shr x0 x1 x2) := wide_rWord false (by decide)
theorem shrI x0 x1 x2 : Statement (.shrI x0 x1 x2) := wide_iWord false (by decide)
theorem sar x0 x1 x2 : Statement (.sar x0 x1 x2) := wide_rWord false (by decide)
theorem sarI x0 x1 x2 : Statement (.sarI x0 x1 x2) := wide_iWord false (by decide)
theorem rot x0 x1 x2 : Statement (.rot x0 x1 x2) := wide_rWord false (by decide)
theorem rotI x0 x1 x2 : Statement (.rotI x0 x1 x2) := wide_iWord false (by decide)
theorem clz x0 x1 : Statement (.clz x0 x1) := wide_rWord false (by decide)
theorem popc x0 x1 : Statement (.popc x0 x1) := wide_rWord false (by decide)
theorem brev x0 x1 : Statement (.brev x0 x1) := wide_rWord false (by decide)
theorem bfx x0 x1 x2 x3 : Statement (.bfx x0 x1 x2 x3) := wide_rWord false (by decide)
theorem bfi x0 x1 x2 x3 : Statement (.bfi x0 x1 x2 x3) := wide_rWord false (by decide)
theorem perm x0 x1 x2 x3 : Statement (.perm x0 x1 x2 x3) := wide_rWord false (by decide)
theorem sel x0 x1 x2 x3 x4 : Statement (.sel x0 x1 x2 x3 x4) := wide_rWord false (by decide)
theorem cmp x0 x1 x2 : Statement (.cmp x0 x1 x2) := wide_rWord false (by decide)
theorem cmpI x0 x1 x2 : Statement (.cmpI x0 x1 x2) := wide_iWord false (by decide)
theorem lea x0 x1 x2 x3 x4 : Statement (.lea x0 x1 x2 x3 x4) := wide_rWord false (by decide)
theorem clmul x0 x1 x2 x3 : Statement (.clmul x0 x1 x2 x3) := wide_rWord false (by decide)
theorem mov x0 x1 : Statement (.mov x0 x1) := wide_rWord false (by decide)
theorem add64 x0 x1 x2 x3 x4 : Statement (.add64 x0 x1 x2 x3 x4) := wide_rWord false (by decide)
theorem cmp64 x0 x1 x2 : Statement (.cmp64 x0 x1 x2) := wide_rWord false (by decide)
theorem movi x0 x1 x2 : Statement (.movi x0 x1 x2) := wide_rWord true (by decide)
theorem fadd x0 x1 x2 x3 : Statement (.fadd x0 x1 x2 x3) := wide_rWord false (by decide)
theorem fsub x0 x1 x2 x3 : Statement (.fsub x0 x1 x2 x3) := wide_rWord false (by decide)
theorem fmul x0 x1 x2 x3 : Statement (.fmul x0 x1 x2 x3) := wide_rWord false (by decide)
theorem ffma x0 x1 x2 x3 : Statement (.ffma x0 x1 x2 x3) := wide_rWord false (by decide)
theorem fmin x0 x1 x2 : Statement (.fmin x0 x1 x2) := wide_rWord false (by decide)
theorem fmax x0 x1 x2 : Statement (.fmax x0 x1 x2) := wide_rWord false (by decide)
theorem fcmp x0 x1 x2 : Statement (.fcmp x0 x1 x2) := wide_rWord false (by decide)
theorem fclass x0 x1 : Statement (.fclass x0 x1) := wide_rWord false (by decide)
theorem frcp x0 x1 x2 : Statement (.frcp x0 x1 x2) := wide_rWord false (by decide)
theorem frsq x0 x1 x2 : Statement (.frsq x0 x1 x2) := wide_rWord false (by decide)
theorem fsqrt x0 x1 x2 : Statement (.fsqrt x0 x1 x2) := wide_rWord false (by decide)
theorem fexp2 x0 x1 x2 : Statement (.fexp2 x0 x1 x2) := wide_rWord false (by decide)
theorem flog2 x0 x1 x2 : Statement (.flog2 x0 x1 x2) := wide_rWord false (by decide)
theorem dot4 x0 x1 x2 x3 x4 : Statement (.dot4 x0 x1 x2 x3 x4) := wide_rWord false (by decide)
theorem h2add x0 x1 x2 x3 x4 : Statement (.h2add x0 x1 x2 x3 x4) := wide_rWord false (by decide)
theorem h2mul x0 x1 x2 x3 x4 : Statement (.h2mul x0 x1 x2 x3 x4) := wide_rWord false (by decide)
theorem h2fma x0 x1 x2 x3 x4 : Statement (.h2fma x0 x1 x2 x3 x4) := wide_rWord false (by decide)
theorem h2min x0 x1 x2 x3 : Statement (.h2min x0 x1 x2 x3) := wide_rWord false (by decide)
theorem h2max x0 x1 x2 x3 : Statement (.h2max x0 x1 x2 x3) := wide_rWord false (by decide)
theorem cvt x0 x1 x2 x3 x4 x5 x6 : Statement (.cvt x0 x1 x2 x3 x4 x5 x6) := wide_rWord false (by decide)
theorem dq4 x0 x1 x2 x3 : Statement (.dq4 x0 x1 x2 x3) := wide_rWord false (by decide)
theorem shfl x0 x1 x2 x3 x4 : Statement (.shfl x0 x1 x2 x3 x4) := wide_rWord false (by decide)
theorem vote x0 x1 x2 : Statement (.vote x0 x1 x2) := wide_rWord false (by decide)
theorem scan x0 x1 x2 x3 x4 : Statement (.scan x0 x1 x2 x3 x4) := wide_rWord false (by decide)
theorem topk x0 x1 x2 x3 : Statement (.topk x0 x1 x2 x3) := wide_rWord false (by decide)
theorem ld x0 x1 x2 x3 x4 x5 : Statement (.ld x0 x1 x2 x3 x4 x5) := wide_rWord false (by decide)
theorem ldWide x0 x1 x2 x3 x4 x5 x6 : Statement (.ldWide x0 x1 x2 x3 x4 x5 x6) := wide_rWord true (by decide)
theorem st x0 x1 x2 x3 x4 : Statement (.st x0 x1 x2 x3 x4) := wide_rWord false (by decide)
theorem stWide x0 x1 x2 x3 x4 x5 : Statement (.stWide x0 x1 x2 x3 x4 x5) := wide_rWord true (by decide)
theorem lda x0 x1 x2 x3 x4 x5 : Statement (.lda x0 x1 x2 x3 x4 x5) := wide_rWord false (by decide)
theorem strel x0 x1 x2 x3 x4 : Statement (.strel x0 x1 x2 x3 x4) := wide_rWord false (by decide)
theorem ldnc x0 x1 x2 x3 x4 x5 : Statement (.ldnc x0 x1 x2 x3 x4 x5) := wide_rWord false (by decide)
theorem stnc x0 x1 x2 x3 x4 : Statement (.stnc x0 x1 x2 x3 x4) := wide_rWord false (by decide)
theorem atom x0 x1 x2 x3 x4 x5 : Statement (.atom x0 x1 x2 x3 x4 x5) := wide_rWord false (by decide)
theorem fenceCore : Statement (.fenceCore) := wide_rWord false (by decide)
theorem fenceDev : Statement (.fenceDev) := wide_rWord false (by decide)
theorem fenceSys : Statement (.fenceSys) := wide_rWord false (by decide)
theorem br x0 : Statement (.br x0) := wide_bWord false (by decide)
theorem call x0 : Statement (.call x0) := wide_bWord false (by decide)
theorem jmp x0 : Statement (.jmp x0) := wide_rWord false (by decide)
theorem ret x0 : Statement (.ret x0) := wide_rWord false (by decide)
theorem mpush x0 : Statement (.mpush x0) := wide_bWord false (by decide)
theorem mjoin x0 : Statement (.mjoin x0) := wide_iWord false (by decide)
theorem mdrop x0 : Statement (.mdrop x0) := wide_iWord false (by decide)
theorem exit : Statement (.exit) := wide_rWord false (by decide)
theorem bar x0 : Statement (.bar x0) := wide_iWord false (by decide)
theorem bara x0 : Statement (.bara x0) := wide_iWord false (by decide)
theorem yield : Statement (.yield) := wide_rWord false (by decide)
theorem spawn x0 x1 x2 x3 : Statement (.spawn x0 x1 x2 x3) := wide_rWord true (by decide)
theorem regroup x0 x1 x2 : Statement (.regroup x0 x1 x2) := wide_rWord true (by decide)
theorem fwait x0 x1 x2 : Statement (.fwait x0 x1 x2) := wide_rWord false (by decide)
theorem ftest x0 x1 : Statement (.ftest x0 x1) := wide_rWord false (by decide)
theorem fcancel x0 : Statement (.fcancel x0) := wide_rWord false (by decide)
theorem fwany x0 x1 : Statement (.fwany x0 x1) := wide_rWord false (by decide)
theorem fwall x0 : Statement (.fwall x0) := wide_rWord false (by decide)
theorem ffirst x0 x1 : Statement (.ffirst x0 x1) := wide_rWord false (by decide)
theorem copy x0 x1 x2 x3 x4 x5 x6 : Statement (.copy x0 x1 x2 x3 x4 x5 x6) := wide_rWord true (by decide)
theorem copys x0 x1 x2 x3 : Statement (.copys x0 x1 x2 x3) := wide_rWord false (by decide)
theorem ctset x0 x1 : Statement (.ctset x0 x1) := wide_rWord false (by decide)
theorem ctadd x0 x1 : Statement (.ctadd x0 x1) := wide_rWord false (by decide)
theorem fetch x0 x1 x2 : Statement (.fetch x0 x1 x2) := wide_rWord false (by decide)
theorem launch x0 x1 : Statement (.launch x0 x1) := wide_rWord false (by decide)
theorem mma x0 x1 x2 x3 x4 x5 x6 x7 x8 x9 x10 : Statement (.mma x0 x1 x2 x3 x4 x5 x6 x7 x8 x9 x10) := wide_rWord true (by decide)
theorem mdrain x0 x1 x2 x3 x4 x5 x6 x7 : Statement (.mdrain x0 x1 x2 x3 x4 x5 x6 x7) := wide_rWord true (by decide)
theorem mzero x0 x1 x2 : Statement (.mzero x0 x1 x2) := wide_rWord false (by decide)
theorem bput x0 x1 x2 x3 x4 : Statement (.bput x0 x1 x2 x3 x4) := wide_rWord false (by decide)
theorem btake x0 x1 x2 x3 x4 : Statement (.btake x0 x1 x2 x3 x4) := wide_rWord false (by decide)
theorem bdrain x0 x1 x2 x3 : Statement (.bdrain x0 x1 x2 x3) := wide_rWord false (by decide)
theorem bscan x0 x1 x2 x3 : Statement (.bscan x0 x1 x2 x3) := wide_rWord false (by decide)
theorem bcount x0 x1 : Statement (.bcount x0 x1) := wide_rWord false (by decide)
theorem binfo x0 x1 x2 : Statement (.binfo x0 x1 x2) := wide_rWord false (by decide)
theorem nmload x0 x1 x2 x3 : Statement (.nmload x0 x1 x2 x3) := wide_rWord false (by decide)
theorem nmarm x0 x1 : Statement (.nmarm x0 x1) := wide_rWord false (by decide)
theorem nmrun x0 x1 : Statement (.nmrun x0 x1) := wide_rWord false (by decide)
theorem nmdisarm x0 x1 : Statement (.nmdisarm x0 x1) := wide_rWord false (by decide)
theorem scall x0 x1 x2 : Statement (.scall x0 x1 x2) := wide_iWord false (by decide)
theorem trap x0 : Statement (.trap x0) := wide_iWord false (by decide)
theorem tret : Statement (.tret) := wide_rWord false (by decide)
theorem sread x0 x1 : Statement (.sread x0 x1) := wide_iWord false (by decide)
theorem swrite x0 x1 : Statement (.swrite x0 x1) := wide_iWord false (by decide)
theorem bkpt x0 : Statement (.bkpt x0) := wide_iWord false (by decide)
theorem mEnd : Statement (.mEnd) := plain rfl rfl
theorem mRows x0 : Statement (.mRows x0) := plain rfl rfl
theorem mCols x0 x1 : Statement (.mCols x0 x1) := plain rfl rfl
theorem mBvec : Statement (.mBvec) := plain rfl rfl
theorem mMacb : Statement (.mMacb) := plain rfl rfl
theorem mAxpy : Statement (.mAxpy) := plain rfl rfl
theorem mRed : Statement (.mRed) := plain rfl rfl
theorem mActv : Statement (.mActv) := plain rfl rfl
theorem mWcol x0 : Statement (.mWcol x0) := plain rfl rfl
theorem mWmbx : Statement (.mWmbx) := plain rfl rfl
theorem mLoop x0 x1 : Statement (.mLoop x0 x1) := plain rfl rfl
theorem takeTrap x0 x1 : Statement (.takeTrap x0 x1) := plain rfl rfl
theorem trapPolicy x0 : Statement (.trapPolicy x0) := plain rfl rfl
theorem pageRepair x0 : Statement (.pageRepair x0) := plain rfl rfl
theorem debuggerRelease x0 x1 x2 : Statement (.debuggerRelease x0 x1 x2) := plain rfl rfl
theorem meetDeadline x0 x1 : Statement (.meetDeadline x0 x1) := plain rfl rfl
theorem yieldExpiry x0 x1 : Statement (.yieldExpiry x0 x1) := plain rfl rfl
theorem binTimerExpiry x0 x1 : Statement (.binTimerExpiry x0 x1) := plain rfl rfl
theorem poolGrow x0 : Statement (.poolGrow x0) := plain rfl rfl
theorem poolBankJoin x0 : Statement (.poolBankJoin x0) := plain rfl rfl
theorem poolBankReturn x0 : Statement (.poolBankReturn x0) := plain rfl rfl
theorem poolSpill x0 : Statement (.poolSpill x0) := plain rfl rfl
theorem registerRefill x0 x1 : Statement (.registerRefill x0 x1) := plain rfl rfl
theorem scratchBankJoin x0 x1 : Statement (.scratchBankJoin x0 x1) := plain rfl rfl
theorem loadFill x0 x1 x2 : Statement (.loadFill x0 x1 x2) := plain rfl rfl
theorem storeHomeApply x0 : Statement (.storeHomeApply x0) := plain rfl rfl
theorem completionTimeReturn x0 : Statement (.completionTimeReturn x0) := plain rfl rfl
theorem atomHome x0 x1 x2 x3 x4 x5 x6 : Statement (.atomHome x0 x1 x2 x3 x4 x5 x6) := plain rfl rfl
theorem copyComplete x0 : Statement (.copyComplete x0) := plain rfl rfl
theorem fetchComplete x0 x1 x2 : Statement (.fetchComplete x0 x1 x2) := plain rfl rfl
theorem mmaStart x0 : Statement (.mmaStart x0) := plain rfl rfl
theorem mmaComplete x0 : Statement (.mmaComplete x0) := plain rfl rfl
theorem drainStageStart x0 : Statement (.drainStageStart x0) := plain rfl rfl
theorem mdrainComplete x0 : Statement (.mdrainComplete x0) := plain rfl rfl
theorem mzeroComplete x0 : Statement (.mzeroComplete x0) := plain rfl rfl
theorem copysComplete x0 : Statement (.copysComplete x0) := plain rfl rfl
theorem reservationServe x0 : Statement (.reservationServe x0) := plain rfl rfl
theorem placementBatch x0 x1 x2 : Statement (.placementBatch x0 x1 x2) := plain rfl rfl
theorem placementComplete x0 x1 x2 : Statement (.placementComplete x0 x1 x2) := plain rfl rfl
theorem drainRound x0 : Statement (.drainRound x0) := plain rfl rfl
theorem nmloadComplete x0 : Statement (.nmloadComplete x0) := plain rfl rfl
theorem nmarmSeal x0 : Statement (.nmarmSeal x0) := plain rfl rfl
theorem nmrunStart x0 : Statement (.nmrunStart x0) := plain rfl rfl
theorem nmrunComplete x0 : Statement (.nmrunComplete x0) := plain rfl rfl
theorem nmdisarmComplete x0 : Statement (.nmdisarmComplete x0) := plain rfl rfl
theorem refresh x0 : Statement (.refresh x0) := plain rfl rfl
theorem computeResume x0 : Statement (.computeResume x0) := plain rfl rfl
theorem serviceReply x0 : Statement (.serviceReply x0) := plain rfl rfl
theorem allocSvc x0 x1 : Statement (.allocSvc x0 x1) := plain rfl rfl
theorem freeSvc x0 x1 : Statement (.freeSvc x0 x1) := plain rfl rfl
theorem bagnewSvc x0 x1 : Statement (.bagnewSvc x0 x1) := plain rfl rfl
theorem bagfreeSvc x0 x1 : Statement (.bagfreeSvc x0 x1) := plain rfl rfl
theorem printSvc x0 x1 : Statement (.printSvc x0 x1) := plain rfl rfl
theorem doorbellWrite x0 x1 x2 : Statement (.doorbellWrite x0 x1 x2) := plain rfl rfl
theorem launchRecordAccept x0 x1 : Statement (.launchRecordAccept x0 x1) := plain rfl rfl
theorem launchStart x0 : Statement (.launchStart x0) := plain rfl rfl
theorem launchCompletion x0 : Statement (.launchCompletion x0) := plain rfl rfl
theorem crewAdmit x0 : Statement (.crewAdmit x0) := plain rfl rfl
theorem preempt x0 : Statement (.preempt x0) := plain rfl rfl
theorem ballastWindow x0 x1 : Statement (.ballastWindow x0 x1) := plain rfl rfl
theorem mapExecutable x0 x1 : Statement (.mapExecutable x0 x1) := plain rfl rfl
theorem shootdown x0 x1 x2 : Statement (.shootdown x0 x1 x2) := plain rfl rfl
theorem eccUncorrectable x0 : Statement (.eccUncorrectable x0) := plain rfl rfl
theorem storeEccError x0 x1 : Statement (.storeEccError x0 x1) := plain rfl rfl
theorem hostWrite x0 x1 : Statement (.hostWrite x0 x1) := plain rfl rfl
theorem hostRead x0 x1 : Statement (.hostRead x0 x1) := plain rfl rfl
theorem supexWriteIn x0 x1 x2 x3 : Statement (.supexWriteIn x0 x1 x2 x3) := plain rfl rfl
theorem supexReadIn x0 x1 x2 : Statement (.supexReadIn x0 x1 x2) := plain rfl rfl
theorem flitRetry x0 : Statement (.flitRetry x0) := plain rfl rfl
theorem supexPortDown x0 : Statement (.supexPortDown x0) := plain rfl rfl
theorem ueFrameReceive x0 x1 : Statement (.ueFrameReceive x0 x1) := plain rfl rfl
theorem ueLinkDown x0 : Statement (.ueLinkDown x0) := plain rfl rfl
theorem linkTrain x0 x1 : Statement (.linkTrain x0 x1) := plain rfl rfl
theorem resetBoot x0 : Statement (.resetBoot x0) := plain rfl rfl
theorem thermalWarning x0 x1 : Statement (.thermalWarning x0 x1) := plain rfl rfl
theorem dieClockStep x0 x1 : Statement (.dieClockStep x0 x1) := plain rfl rfl
theorem thermalTrip x0 : Statement (.thermalTrip x0) := plain rfl rfl
theorem refreshTierChange x0 x1 : Statement (.refreshTierChange x0 x1) := plain rfl rfl
theorem governorPeriod x0 : Statement (.governorPeriod x0) := plain rfl rfl
theorem setPowerCap x0 : Statement (.setPowerCap x0) := plain rfl rfl
theorem setBallastSetpoint x0 : Statement (.setBallastSetpoint x0) := plain rfl rfl
theorem checkpoint : Statement (.checkpoint) := plain rfl rfl
theorem checkpointComplete : Statement (.checkpointComplete) := plain rfl rfl
theorem haltHerd x0 x1 : Statement (.haltHerd x0 x1) := plain rfl rfl
theorem dbgStep x0 x1 : Statement (.dbgStep x0 x1) := plain rfl rfl
theorem dump x0 x1 : Statement (.dump x0 x1) := plain rfl rfl
theorem dtimePassed x0 : Statement (.dtimePassed x0) := plain rfl rfl
theorem hostGloballyObservedAck x0 : Statement (.hostGloballyObservedAck x0) := plain rfl rfl
theorem tableWalkComplete x0 x1 x2 : Statement (.tableWalkComplete x0 x1 x2) := plain rfl rfl
theorem debuggerAttach x0 : Statement (.debuggerAttach x0) := plain rfl rfl
theorem systemSoftwareKill x0 : Statement (.systemSoftwareKill x0) := plain rfl rfl
theorem addressSpaceCreate x0 x1 x2 x3 : Statement (.addressSpaceCreate x0 x1 x2 x3) := plain rfl rfl
theorem addressSpaceDestroy x0 : Statement (.addressSpaceDestroy x0) := plain rfl rfl
theorem virtualInterfaceCreate x0 x1 x2 x3 x4 : Statement (.virtualInterfaceCreate x0 x1 x2 x3 x4) := plain rfl rfl
theorem queuePairBind x0 x1 x2 x3 x4 : Statement (.queuePairBind x0 x1 x2 x3 x4) := plain rfl rfl
theorem launchQueueSetup x0 x1 x2 x3 : Statement (.launchQueueSetup x0 x1 x2 x3) := plain rfl rfl
theorem rangeRegister x0 x1 x2 : Statement (.rangeRegister x0 x1 x2) := plain rfl rfl
theorem setAdmissionWeight x0 x1 : Statement (.setAdmissionWeight x0 x1) := plain rfl rfl
theorem firewallRangeGrant x0 x1 x2 : Statement (.firewallRangeGrant x0 x1 x2) := plain rfl rfl
theorem peerTransfer x0 x1 x2 : Statement (.peerTransfer x0 x1 x2) := plain rfl rfl
theorem recoveryLoad x0 x1 : Statement (.recoveryLoad x0 x1) := plain rfl rfl

end Laws.WideWord

end Sys2Proof
end

