-- ==== Sys2Proof/Laws/State.lean ====
section
/-! SUPPORT. One lemma for each field of State under each replacement of a part: what a replacement leaves alone, true by rfl. -/

namespace Sys2Proof.Machine

section
variable (s : State) (n : Nat) (c : Core)
@[simp] theorem State.setCore_dtime : (s.setCore n c).dtime = s.dtime := rfl
@[simp] theorem State.setCore_boot : (s.setCore n c).boot = s.boot := rfl
@[simp] theorem State.setCore_tripped : (s.setCore n c).tripped = s.tripped := rfl
@[simp] theorem State.setCore_mem : (s.setCore n c).mem = s.mem := rfl
@[simp] theorem State.setCore_bad : (s.setCore n c).bad = s.bad := rfl
@[simp] theorem State.setCore_horizon : (s.setCore n c).horizon = s.horizon := rfl
@[simp] theorem State.setCore_owned : (s.setCore n c).owned = s.owned := rfl
@[simp] theorem State.setCore_lastWrite : (s.setCore n c).lastWrite = s.lastWrite := rfl
@[simp] theorem State.setCore_locked : (s.setCore n c).locked = s.locked := rfl
@[simp] theorem State.setCore_flights : (s.setCore n c).flights = s.flights := rfl
@[simp] theorem State.setCore_hostPending : (s.setCore n c).hostPending = s.hostPending := rfl
@[simp] theorem State.setCore_cores : (s.setCore n c).cores = tset s.cores n c := rfl
@[simp] theorem State.setCore_crews : (s.setCore n c).crews = s.crews := rfl
@[simp] theorem State.setCore_nextCrew : (s.setCore n c).nextCrew = s.nextCrew := rfl
@[simp] theorem State.setCore_nextSeq : (s.setCore n c).nextSeq = s.nextSeq := rfl
@[simp] theorem State.setCore_clusters : (s.setCore n c).clusters = s.clusters := rfl
@[simp] theorem State.setCore_dies : (s.setCore n c).dies = s.dies := rfl
@[simp] theorem State.setCore_hbm : (s.setCore n c).hbm = s.hbm := rfl
@[simp] theorem State.setCore_pchs : (s.setCore n c).pchs = s.pchs := rfl
@[simp] theorem State.setCore_cmds : (s.setCore n c).cmds = s.cmds := rfl
@[simp] theorem State.setCore_nextCmd : (s.setCore n c).nextCmd = s.nextCmd := rfl
@[simp] theorem State.setCore_launches : (s.setCore n c).launches = s.launches := rfl
@[simp] theorem State.setCore_nextLaunch : (s.setCore n c).nextLaunch = s.nextLaunch := rfl
@[simp] theorem State.setCore_aspaces : (s.setCore n c).aspaces = s.aspaces := rfl
@[simp] theorem State.setCore_vis : (s.setCore n c).vis = s.vis := rfl
@[simp] theorem State.setCore_frames : (s.setCore n c).frames = s.frames := rfl
@[simp] theorem State.setCore_sealed : (s.setCore n c).sealed = s.sealed := rfl
@[simp] theorem State.setCore_movedRows : (s.setCore n c).movedRows = s.movedRows := rfl
@[simp] theorem State.setCore_spareRows : (s.setCore n c).spareRows = s.spareRows := rfl
@[simp] theorem State.setCore_traps : (s.setCore n c).traps = s.traps := rfl
@[simp] theorem State.setCore_halting : (s.setCore n c).halting = s.halting := rfl
@[simp] theorem State.setCore_reservations : (s.setCore n c).reservations = s.reservations := rfl
@[simp] theorem State.setCore_posts : (s.setCore n c).posts = s.posts := rfl
@[simp] theorem State.setCore_ueFlights : (s.setCore n c).ueFlights = s.ueFlights := rfl
@[simp] theorem State.setCore_acks : (s.setCore n c).acks = s.acks := rfl
@[simp] theorem State.setCore_held : (s.setCore n c).held = s.held := rfl
@[simp] theorem State.setCore_ckpt : (s.setCore n c).ckpt = s.ckpt := rfl
@[simp] theorem State.setCore_supex : (s.setCore n c).supex = s.supex := rfl
@[simp] theorem State.setCore_peerReads : (s.setCore n c).peerReads = s.peerReads := rfl
@[simp] theorem State.setCore_peerOut : (s.setCore n c).peerOut = s.peerOut := rfl
@[simp] theorem State.setCore_ueDown : (s.setCore n c).ueDown = s.ueDown := rfl
@[simp] theorem State.setCore_linkGen : (s.setCore n c).linkGen = s.linkGen := rfl
@[simp] theorem State.setCore_linkWidth : (s.setCore n c).linkWidth = s.linkWidth := rfl
@[simp] theorem State.setCore_softCap : (s.setCore n c).softCap = s.softCap := rfl
@[simp] theorem State.setCore_power : (s.setCore n c).power = s.power := rfl
@[simp] theorem State.setCore_setpoint : (s.setCore n c).setpoint = s.setpoint := rfl
@[simp] theorem State.setCore_ballast : (s.setCore n c).ballast = s.ballast := rfl
@[simp] theorem State.setCore_floor : (s.setCore n c).floor = s.floor := rfl
@[simp] theorem State.setCore_throttle : (s.setCore n c).throttle = s.throttle := rfl
@[simp] theorem State.setCore_turn : (s.setCore n c).turn = s.turn := rfl
@[simp] theorem State.setCore_pace : (s.setCore n c).pace = s.pace := rfl
@[simp] theorem State.setCore_fresh : (s.setCore n c).fresh = s.fresh := rfl
@[simp] theorem State.setCore_nmCur : (s.setCore n c).nmCur = s.nmCur := rfl
@[simp] theorem State.setCore_cur : (s.setCore n c).cur = s.cur := rfl
@[simp] theorem State.setCore_inbox : (s.setCore n c).inbox = s.inbox := rfl
end

section
variable (s : State) (n : Nat) (c : Crew)
@[simp] theorem State.setCrew_dtime : (s.setCrew n c).dtime = s.dtime := rfl
@[simp] theorem State.setCrew_boot : (s.setCrew n c).boot = s.boot := rfl
@[simp] theorem State.setCrew_tripped : (s.setCrew n c).tripped = s.tripped := rfl
@[simp] theorem State.setCrew_mem : (s.setCrew n c).mem = s.mem := rfl
@[simp] theorem State.setCrew_bad : (s.setCrew n c).bad = s.bad := rfl
@[simp] theorem State.setCrew_horizon : (s.setCrew n c).horizon = s.horizon := rfl
@[simp] theorem State.setCrew_owned : (s.setCrew n c).owned = s.owned := rfl
@[simp] theorem State.setCrew_lastWrite : (s.setCrew n c).lastWrite = s.lastWrite := rfl
@[simp] theorem State.setCrew_locked : (s.setCrew n c).locked = s.locked := rfl
@[simp] theorem State.setCrew_flights : (s.setCrew n c).flights = s.flights := rfl
@[simp] theorem State.setCrew_hostPending : (s.setCrew n c).hostPending = s.hostPending := rfl
@[simp] theorem State.setCrew_cores : (s.setCrew n c).cores = s.cores := rfl
@[simp] theorem State.setCrew_crews : (s.setCrew n c).crews = tset s.crews n c := rfl
@[simp] theorem State.setCrew_nextCrew : (s.setCrew n c).nextCrew = s.nextCrew := rfl
@[simp] theorem State.setCrew_nextSeq : (s.setCrew n c).nextSeq = s.nextSeq := rfl
@[simp] theorem State.setCrew_clusters : (s.setCrew n c).clusters = s.clusters := rfl
@[simp] theorem State.setCrew_dies : (s.setCrew n c).dies = s.dies := rfl
@[simp] theorem State.setCrew_hbm : (s.setCrew n c).hbm = s.hbm := rfl
@[simp] theorem State.setCrew_pchs : (s.setCrew n c).pchs = s.pchs := rfl
@[simp] theorem State.setCrew_cmds : (s.setCrew n c).cmds = s.cmds := rfl
@[simp] theorem State.setCrew_nextCmd : (s.setCrew n c).nextCmd = s.nextCmd := rfl
@[simp] theorem State.setCrew_launches : (s.setCrew n c).launches = s.launches := rfl
@[simp] theorem State.setCrew_nextLaunch : (s.setCrew n c).nextLaunch = s.nextLaunch := rfl
@[simp] theorem State.setCrew_aspaces : (s.setCrew n c).aspaces = s.aspaces := rfl
@[simp] theorem State.setCrew_vis : (s.setCrew n c).vis = s.vis := rfl
@[simp] theorem State.setCrew_frames : (s.setCrew n c).frames = s.frames := rfl
@[simp] theorem State.setCrew_sealed : (s.setCrew n c).sealed = s.sealed := rfl
@[simp] theorem State.setCrew_movedRows : (s.setCrew n c).movedRows = s.movedRows := rfl
@[simp] theorem State.setCrew_spareRows : (s.setCrew n c).spareRows = s.spareRows := rfl
@[simp] theorem State.setCrew_traps : (s.setCrew n c).traps = s.traps := rfl
@[simp] theorem State.setCrew_halting : (s.setCrew n c).halting = s.halting := rfl
@[simp] theorem State.setCrew_reservations : (s.setCrew n c).reservations = s.reservations := rfl
@[simp] theorem State.setCrew_posts : (s.setCrew n c).posts = s.posts := rfl
@[simp] theorem State.setCrew_ueFlights : (s.setCrew n c).ueFlights = s.ueFlights := rfl
@[simp] theorem State.setCrew_acks : (s.setCrew n c).acks = s.acks := rfl
@[simp] theorem State.setCrew_held : (s.setCrew n c).held = s.held := rfl
@[simp] theorem State.setCrew_ckpt : (s.setCrew n c).ckpt = s.ckpt := rfl
@[simp] theorem State.setCrew_supex : (s.setCrew n c).supex = s.supex := rfl
@[simp] theorem State.setCrew_peerReads : (s.setCrew n c).peerReads = s.peerReads := rfl
@[simp] theorem State.setCrew_peerOut : (s.setCrew n c).peerOut = s.peerOut := rfl
@[simp] theorem State.setCrew_ueDown : (s.setCrew n c).ueDown = s.ueDown := rfl
@[simp] theorem State.setCrew_linkGen : (s.setCrew n c).linkGen = s.linkGen := rfl
@[simp] theorem State.setCrew_linkWidth : (s.setCrew n c).linkWidth = s.linkWidth := rfl
@[simp] theorem State.setCrew_softCap : (s.setCrew n c).softCap = s.softCap := rfl
@[simp] theorem State.setCrew_power : (s.setCrew n c).power = s.power := rfl
@[simp] theorem State.setCrew_setpoint : (s.setCrew n c).setpoint = s.setpoint := rfl
@[simp] theorem State.setCrew_ballast : (s.setCrew n c).ballast = s.ballast := rfl
@[simp] theorem State.setCrew_floor : (s.setCrew n c).floor = s.floor := rfl
@[simp] theorem State.setCrew_throttle : (s.setCrew n c).throttle = s.throttle := rfl
@[simp] theorem State.setCrew_turn : (s.setCrew n c).turn = s.turn := rfl
@[simp] theorem State.setCrew_pace : (s.setCrew n c).pace = s.pace := rfl
@[simp] theorem State.setCrew_fresh : (s.setCrew n c).fresh = s.fresh := rfl
@[simp] theorem State.setCrew_nmCur : (s.setCrew n c).nmCur = s.nmCur := rfl
@[simp] theorem State.setCrew_cur : (s.setCrew n c).cur = s.cur := rfl
@[simp] theorem State.setCrew_inbox : (s.setCrew n c).inbox = s.inbox := rfl
end

section
variable (s : State) (n : Nat) (c : Cluster)
@[simp] theorem State.setCluster_dtime : (s.setCluster n c).dtime = s.dtime := rfl
@[simp] theorem State.setCluster_boot : (s.setCluster n c).boot = s.boot := rfl
@[simp] theorem State.setCluster_tripped : (s.setCluster n c).tripped = s.tripped := rfl
@[simp] theorem State.setCluster_mem : (s.setCluster n c).mem = s.mem := rfl
@[simp] theorem State.setCluster_bad : (s.setCluster n c).bad = s.bad := rfl
@[simp] theorem State.setCluster_horizon : (s.setCluster n c).horizon = s.horizon := rfl
@[simp] theorem State.setCluster_owned : (s.setCluster n c).owned = s.owned := rfl
@[simp] theorem State.setCluster_lastWrite : (s.setCluster n c).lastWrite = s.lastWrite := rfl
@[simp] theorem State.setCluster_locked : (s.setCluster n c).locked = s.locked := rfl
@[simp] theorem State.setCluster_flights : (s.setCluster n c).flights = s.flights := rfl
@[simp] theorem State.setCluster_hostPending : (s.setCluster n c).hostPending = s.hostPending := rfl
@[simp] theorem State.setCluster_cores : (s.setCluster n c).cores = s.cores := rfl
@[simp] theorem State.setCluster_crews : (s.setCluster n c).crews = s.crews := rfl
@[simp] theorem State.setCluster_nextCrew : (s.setCluster n c).nextCrew = s.nextCrew := rfl
@[simp] theorem State.setCluster_nextSeq : (s.setCluster n c).nextSeq = s.nextSeq := rfl
@[simp] theorem State.setCluster_clusters : (s.setCluster n c).clusters = tset s.clusters n c := rfl
@[simp] theorem State.setCluster_dies : (s.setCluster n c).dies = s.dies := rfl
@[simp] theorem State.setCluster_hbm : (s.setCluster n c).hbm = s.hbm := rfl
@[simp] theorem State.setCluster_pchs : (s.setCluster n c).pchs = s.pchs := rfl
@[simp] theorem State.setCluster_cmds : (s.setCluster n c).cmds = s.cmds := rfl
@[simp] theorem State.setCluster_nextCmd : (s.setCluster n c).nextCmd = s.nextCmd := rfl
@[simp] theorem State.setCluster_launches : (s.setCluster n c).launches = s.launches := rfl
@[simp] theorem State.setCluster_nextLaunch : (s.setCluster n c).nextLaunch = s.nextLaunch := rfl
@[simp] theorem State.setCluster_aspaces : (s.setCluster n c).aspaces = s.aspaces := rfl
@[simp] theorem State.setCluster_vis : (s.setCluster n c).vis = s.vis := rfl
@[simp] theorem State.setCluster_frames : (s.setCluster n c).frames = s.frames := rfl
@[simp] theorem State.setCluster_sealed : (s.setCluster n c).sealed = s.sealed := rfl
@[simp] theorem State.setCluster_movedRows : (s.setCluster n c).movedRows = s.movedRows := rfl
@[simp] theorem State.setCluster_spareRows : (s.setCluster n c).spareRows = s.spareRows := rfl
@[simp] theorem State.setCluster_traps : (s.setCluster n c).traps = s.traps := rfl
@[simp] theorem State.setCluster_halting : (s.setCluster n c).halting = s.halting := rfl
@[simp] theorem State.setCluster_reservations : (s.setCluster n c).reservations = s.reservations := rfl
@[simp] theorem State.setCluster_posts : (s.setCluster n c).posts = s.posts := rfl
@[simp] theorem State.setCluster_ueFlights : (s.setCluster n c).ueFlights = s.ueFlights := rfl
@[simp] theorem State.setCluster_acks : (s.setCluster n c).acks = s.acks := rfl
@[simp] theorem State.setCluster_held : (s.setCluster n c).held = s.held := rfl
@[simp] theorem State.setCluster_ckpt : (s.setCluster n c).ckpt = s.ckpt := rfl
@[simp] theorem State.setCluster_supex : (s.setCluster n c).supex = s.supex := rfl
@[simp] theorem State.setCluster_peerReads : (s.setCluster n c).peerReads = s.peerReads := rfl
@[simp] theorem State.setCluster_peerOut : (s.setCluster n c).peerOut = s.peerOut := rfl
@[simp] theorem State.setCluster_ueDown : (s.setCluster n c).ueDown = s.ueDown := rfl
@[simp] theorem State.setCluster_linkGen : (s.setCluster n c).linkGen = s.linkGen := rfl
@[simp] theorem State.setCluster_linkWidth : (s.setCluster n c).linkWidth = s.linkWidth := rfl
@[simp] theorem State.setCluster_softCap : (s.setCluster n c).softCap = s.softCap := rfl
@[simp] theorem State.setCluster_power : (s.setCluster n c).power = s.power := rfl
@[simp] theorem State.setCluster_setpoint : (s.setCluster n c).setpoint = s.setpoint := rfl
@[simp] theorem State.setCluster_ballast : (s.setCluster n c).ballast = s.ballast := rfl
@[simp] theorem State.setCluster_floor : (s.setCluster n c).floor = s.floor := rfl
@[simp] theorem State.setCluster_throttle : (s.setCluster n c).throttle = s.throttle := rfl
@[simp] theorem State.setCluster_turn : (s.setCluster n c).turn = s.turn := rfl
@[simp] theorem State.setCluster_pace : (s.setCluster n c).pace = s.pace := rfl
@[simp] theorem State.setCluster_fresh : (s.setCluster n c).fresh = s.fresh := rfl
@[simp] theorem State.setCluster_nmCur : (s.setCluster n c).nmCur = s.nmCur := rfl
@[simp] theorem State.setCluster_cur : (s.setCluster n c).cur = s.cur := rfl
@[simp] theorem State.setCluster_inbox : (s.setCluster n c).inbox = s.inbox := rfl
end

section
variable (s : State) (n : Nat) (d : Die)
@[simp] theorem State.setDie_dtime : (s.setDie n d).dtime = s.dtime := rfl
@[simp] theorem State.setDie_boot : (s.setDie n d).boot = s.boot := rfl
@[simp] theorem State.setDie_tripped : (s.setDie n d).tripped = s.tripped := rfl
@[simp] theorem State.setDie_mem : (s.setDie n d).mem = s.mem := rfl
@[simp] theorem State.setDie_bad : (s.setDie n d).bad = s.bad := rfl
@[simp] theorem State.setDie_horizon : (s.setDie n d).horizon = s.horizon := rfl
@[simp] theorem State.setDie_owned : (s.setDie n d).owned = s.owned := rfl
@[simp] theorem State.setDie_lastWrite : (s.setDie n d).lastWrite = s.lastWrite := rfl
@[simp] theorem State.setDie_locked : (s.setDie n d).locked = s.locked := rfl
@[simp] theorem State.setDie_flights : (s.setDie n d).flights = s.flights := rfl
@[simp] theorem State.setDie_hostPending : (s.setDie n d).hostPending = s.hostPending := rfl
@[simp] theorem State.setDie_cores : (s.setDie n d).cores = s.cores := rfl
@[simp] theorem State.setDie_crews : (s.setDie n d).crews = s.crews := rfl
@[simp] theorem State.setDie_nextCrew : (s.setDie n d).nextCrew = s.nextCrew := rfl
@[simp] theorem State.setDie_nextSeq : (s.setDie n d).nextSeq = s.nextSeq := rfl
@[simp] theorem State.setDie_clusters : (s.setDie n d).clusters = s.clusters := rfl
@[simp] theorem State.setDie_dies : (s.setDie n d).dies = tset s.dies n d := rfl
@[simp] theorem State.setDie_hbm : (s.setDie n d).hbm = s.hbm := rfl
@[simp] theorem State.setDie_pchs : (s.setDie n d).pchs = s.pchs := rfl
@[simp] theorem State.setDie_cmds : (s.setDie n d).cmds = s.cmds := rfl
@[simp] theorem State.setDie_nextCmd : (s.setDie n d).nextCmd = s.nextCmd := rfl
@[simp] theorem State.setDie_launches : (s.setDie n d).launches = s.launches := rfl
@[simp] theorem State.setDie_nextLaunch : (s.setDie n d).nextLaunch = s.nextLaunch := rfl
@[simp] theorem State.setDie_aspaces : (s.setDie n d).aspaces = s.aspaces := rfl
@[simp] theorem State.setDie_vis : (s.setDie n d).vis = s.vis := rfl
@[simp] theorem State.setDie_frames : (s.setDie n d).frames = s.frames := rfl
@[simp] theorem State.setDie_sealed : (s.setDie n d).sealed = s.sealed := rfl
@[simp] theorem State.setDie_movedRows : (s.setDie n d).movedRows = s.movedRows := rfl
@[simp] theorem State.setDie_spareRows : (s.setDie n d).spareRows = s.spareRows := rfl
@[simp] theorem State.setDie_traps : (s.setDie n d).traps = s.traps := rfl
@[simp] theorem State.setDie_halting : (s.setDie n d).halting = s.halting := rfl
@[simp] theorem State.setDie_reservations : (s.setDie n d).reservations = s.reservations := rfl
@[simp] theorem State.setDie_posts : (s.setDie n d).posts = s.posts := rfl
@[simp] theorem State.setDie_ueFlights : (s.setDie n d).ueFlights = s.ueFlights := rfl
@[simp] theorem State.setDie_acks : (s.setDie n d).acks = s.acks := rfl
@[simp] theorem State.setDie_held : (s.setDie n d).held = s.held := rfl
@[simp] theorem State.setDie_ckpt : (s.setDie n d).ckpt = s.ckpt := rfl
@[simp] theorem State.setDie_supex : (s.setDie n d).supex = s.supex := rfl
@[simp] theorem State.setDie_peerReads : (s.setDie n d).peerReads = s.peerReads := rfl
@[simp] theorem State.setDie_peerOut : (s.setDie n d).peerOut = s.peerOut := rfl
@[simp] theorem State.setDie_ueDown : (s.setDie n d).ueDown = s.ueDown := rfl
@[simp] theorem State.setDie_linkGen : (s.setDie n d).linkGen = s.linkGen := rfl
@[simp] theorem State.setDie_linkWidth : (s.setDie n d).linkWidth = s.linkWidth := rfl
@[simp] theorem State.setDie_softCap : (s.setDie n d).softCap = s.softCap := rfl
@[simp] theorem State.setDie_power : (s.setDie n d).power = s.power := rfl
@[simp] theorem State.setDie_setpoint : (s.setDie n d).setpoint = s.setpoint := rfl
@[simp] theorem State.setDie_ballast : (s.setDie n d).ballast = s.ballast := rfl
@[simp] theorem State.setDie_floor : (s.setDie n d).floor = s.floor := rfl
@[simp] theorem State.setDie_throttle : (s.setDie n d).throttle = s.throttle := rfl
@[simp] theorem State.setDie_turn : (s.setDie n d).turn = s.turn := rfl
@[simp] theorem State.setDie_pace : (s.setDie n d).pace = s.pace := rfl
@[simp] theorem State.setDie_fresh : (s.setDie n d).fresh = s.fresh := rfl
@[simp] theorem State.setDie_nmCur : (s.setDie n d).nmCur = s.nmCur := rfl
@[simp] theorem State.setDie_cur : (s.setDie n d).cur = s.cur := rfl
@[simp] theorem State.setDie_inbox : (s.setDie n d).inbox = s.inbox := rfl
end

section
variable (s : State) (n : Nat) (x : Stack)
@[simp] theorem State.setStack_dtime : (s.setStack n x).dtime = s.dtime := rfl
@[simp] theorem State.setStack_boot : (s.setStack n x).boot = s.boot := rfl
@[simp] theorem State.setStack_tripped : (s.setStack n x).tripped = s.tripped := rfl
@[simp] theorem State.setStack_mem : (s.setStack n x).mem = s.mem := rfl
@[simp] theorem State.setStack_bad : (s.setStack n x).bad = s.bad := rfl
@[simp] theorem State.setStack_horizon : (s.setStack n x).horizon = s.horizon := rfl
@[simp] theorem State.setStack_owned : (s.setStack n x).owned = s.owned := rfl
@[simp] theorem State.setStack_lastWrite : (s.setStack n x).lastWrite = s.lastWrite := rfl
@[simp] theorem State.setStack_locked : (s.setStack n x).locked = s.locked := rfl
@[simp] theorem State.setStack_flights : (s.setStack n x).flights = s.flights := rfl
@[simp] theorem State.setStack_hostPending : (s.setStack n x).hostPending = s.hostPending := rfl
@[simp] theorem State.setStack_cores : (s.setStack n x).cores = s.cores := rfl
@[simp] theorem State.setStack_crews : (s.setStack n x).crews = s.crews := rfl
@[simp] theorem State.setStack_nextCrew : (s.setStack n x).nextCrew = s.nextCrew := rfl
@[simp] theorem State.setStack_nextSeq : (s.setStack n x).nextSeq = s.nextSeq := rfl
@[simp] theorem State.setStack_clusters : (s.setStack n x).clusters = s.clusters := rfl
@[simp] theorem State.setStack_dies : (s.setStack n x).dies = s.dies := rfl
@[simp] theorem State.setStack_hbm : (s.setStack n x).hbm = tset s.hbm n x := rfl
@[simp] theorem State.setStack_pchs : (s.setStack n x).pchs = s.pchs := rfl
@[simp] theorem State.setStack_cmds : (s.setStack n x).cmds = s.cmds := rfl
@[simp] theorem State.setStack_nextCmd : (s.setStack n x).nextCmd = s.nextCmd := rfl
@[simp] theorem State.setStack_launches : (s.setStack n x).launches = s.launches := rfl
@[simp] theorem State.setStack_nextLaunch : (s.setStack n x).nextLaunch = s.nextLaunch := rfl
@[simp] theorem State.setStack_aspaces : (s.setStack n x).aspaces = s.aspaces := rfl
@[simp] theorem State.setStack_vis : (s.setStack n x).vis = s.vis := rfl
@[simp] theorem State.setStack_frames : (s.setStack n x).frames = s.frames := rfl
@[simp] theorem State.setStack_sealed : (s.setStack n x).sealed = s.sealed := rfl
@[simp] theorem State.setStack_movedRows : (s.setStack n x).movedRows = s.movedRows := rfl
@[simp] theorem State.setStack_spareRows : (s.setStack n x).spareRows = s.spareRows := rfl
@[simp] theorem State.setStack_traps : (s.setStack n x).traps = s.traps := rfl
@[simp] theorem State.setStack_halting : (s.setStack n x).halting = s.halting := rfl
@[simp] theorem State.setStack_reservations : (s.setStack n x).reservations = s.reservations := rfl
@[simp] theorem State.setStack_posts : (s.setStack n x).posts = s.posts := rfl
@[simp] theorem State.setStack_ueFlights : (s.setStack n x).ueFlights = s.ueFlights := rfl
@[simp] theorem State.setStack_acks : (s.setStack n x).acks = s.acks := rfl
@[simp] theorem State.setStack_held : (s.setStack n x).held = s.held := rfl
@[simp] theorem State.setStack_ckpt : (s.setStack n x).ckpt = s.ckpt := rfl
@[simp] theorem State.setStack_supex : (s.setStack n x).supex = s.supex := rfl
@[simp] theorem State.setStack_peerReads : (s.setStack n x).peerReads = s.peerReads := rfl
@[simp] theorem State.setStack_peerOut : (s.setStack n x).peerOut = s.peerOut := rfl
@[simp] theorem State.setStack_ueDown : (s.setStack n x).ueDown = s.ueDown := rfl
@[simp] theorem State.setStack_linkGen : (s.setStack n x).linkGen = s.linkGen := rfl
@[simp] theorem State.setStack_linkWidth : (s.setStack n x).linkWidth = s.linkWidth := rfl
@[simp] theorem State.setStack_softCap : (s.setStack n x).softCap = s.softCap := rfl
@[simp] theorem State.setStack_power : (s.setStack n x).power = s.power := rfl
@[simp] theorem State.setStack_setpoint : (s.setStack n x).setpoint = s.setpoint := rfl
@[simp] theorem State.setStack_ballast : (s.setStack n x).ballast = s.ballast := rfl
@[simp] theorem State.setStack_floor : (s.setStack n x).floor = s.floor := rfl
@[simp] theorem State.setStack_throttle : (s.setStack n x).throttle = s.throttle := rfl
@[simp] theorem State.setStack_turn : (s.setStack n x).turn = s.turn := rfl
@[simp] theorem State.setStack_pace : (s.setStack n x).pace = s.pace := rfl
@[simp] theorem State.setStack_fresh : (s.setStack n x).fresh = s.fresh := rfl
@[simp] theorem State.setStack_nmCur : (s.setStack n x).nmCur = s.nmCur := rfl
@[simp] theorem State.setStack_cur : (s.setStack n x).cur = s.cur := rfl
@[simp] theorem State.setStack_inbox : (s.setStack n x).inbox = s.inbox := rfl
end

section
variable (s : State) (n : Nat) (p : Pch)
@[simp] theorem State.setPch_dtime : (s.setPch n p).dtime = s.dtime := rfl
@[simp] theorem State.setPch_boot : (s.setPch n p).boot = s.boot := rfl
@[simp] theorem State.setPch_tripped : (s.setPch n p).tripped = s.tripped := rfl
@[simp] theorem State.setPch_mem : (s.setPch n p).mem = s.mem := rfl
@[simp] theorem State.setPch_bad : (s.setPch n p).bad = s.bad := rfl
@[simp] theorem State.setPch_horizon : (s.setPch n p).horizon = s.horizon := rfl
@[simp] theorem State.setPch_owned : (s.setPch n p).owned = s.owned := rfl
@[simp] theorem State.setPch_lastWrite : (s.setPch n p).lastWrite = s.lastWrite := rfl
@[simp] theorem State.setPch_locked : (s.setPch n p).locked = s.locked := rfl
@[simp] theorem State.setPch_flights : (s.setPch n p).flights = s.flights := rfl
@[simp] theorem State.setPch_hostPending : (s.setPch n p).hostPending = s.hostPending := rfl
@[simp] theorem State.setPch_cores : (s.setPch n p).cores = s.cores := rfl
@[simp] theorem State.setPch_crews : (s.setPch n p).crews = s.crews := rfl
@[simp] theorem State.setPch_nextCrew : (s.setPch n p).nextCrew = s.nextCrew := rfl
@[simp] theorem State.setPch_nextSeq : (s.setPch n p).nextSeq = s.nextSeq := rfl
@[simp] theorem State.setPch_clusters : (s.setPch n p).clusters = s.clusters := rfl
@[simp] theorem State.setPch_dies : (s.setPch n p).dies = s.dies := rfl
@[simp] theorem State.setPch_hbm : (s.setPch n p).hbm = s.hbm := rfl
@[simp] theorem State.setPch_pchs : (s.setPch n p).pchs = tset s.pchs n p := rfl
@[simp] theorem State.setPch_cmds : (s.setPch n p).cmds = s.cmds := rfl
@[simp] theorem State.setPch_nextCmd : (s.setPch n p).nextCmd = s.nextCmd := rfl
@[simp] theorem State.setPch_launches : (s.setPch n p).launches = s.launches := rfl
@[simp] theorem State.setPch_nextLaunch : (s.setPch n p).nextLaunch = s.nextLaunch := rfl
@[simp] theorem State.setPch_aspaces : (s.setPch n p).aspaces = s.aspaces := rfl
@[simp] theorem State.setPch_vis : (s.setPch n p).vis = s.vis := rfl
@[simp] theorem State.setPch_frames : (s.setPch n p).frames = s.frames := rfl
@[simp] theorem State.setPch_sealed : (s.setPch n p).sealed = s.sealed := rfl
@[simp] theorem State.setPch_movedRows : (s.setPch n p).movedRows = s.movedRows := rfl
@[simp] theorem State.setPch_spareRows : (s.setPch n p).spareRows = s.spareRows := rfl
@[simp] theorem State.setPch_traps : (s.setPch n p).traps = s.traps := rfl
@[simp] theorem State.setPch_halting : (s.setPch n p).halting = s.halting := rfl
@[simp] theorem State.setPch_reservations : (s.setPch n p).reservations = s.reservations := rfl
@[simp] theorem State.setPch_posts : (s.setPch n p).posts = s.posts := rfl
@[simp] theorem State.setPch_ueFlights : (s.setPch n p).ueFlights = s.ueFlights := rfl
@[simp] theorem State.setPch_acks : (s.setPch n p).acks = s.acks := rfl
@[simp] theorem State.setPch_held : (s.setPch n p).held = s.held := rfl
@[simp] theorem State.setPch_ckpt : (s.setPch n p).ckpt = s.ckpt := rfl
@[simp] theorem State.setPch_supex : (s.setPch n p).supex = s.supex := rfl
@[simp] theorem State.setPch_peerReads : (s.setPch n p).peerReads = s.peerReads := rfl
@[simp] theorem State.setPch_peerOut : (s.setPch n p).peerOut = s.peerOut := rfl
@[simp] theorem State.setPch_ueDown : (s.setPch n p).ueDown = s.ueDown := rfl
@[simp] theorem State.setPch_linkGen : (s.setPch n p).linkGen = s.linkGen := rfl
@[simp] theorem State.setPch_linkWidth : (s.setPch n p).linkWidth = s.linkWidth := rfl
@[simp] theorem State.setPch_softCap : (s.setPch n p).softCap = s.softCap := rfl
@[simp] theorem State.setPch_power : (s.setPch n p).power = s.power := rfl
@[simp] theorem State.setPch_setpoint : (s.setPch n p).setpoint = s.setpoint := rfl
@[simp] theorem State.setPch_ballast : (s.setPch n p).ballast = s.ballast := rfl
@[simp] theorem State.setPch_floor : (s.setPch n p).floor = s.floor := rfl
@[simp] theorem State.setPch_throttle : (s.setPch n p).throttle = s.throttle := rfl
@[simp] theorem State.setPch_turn : (s.setPch n p).turn = s.turn := rfl
@[simp] theorem State.setPch_pace : (s.setPch n p).pace = s.pace := rfl
@[simp] theorem State.setPch_fresh : (s.setPch n p).fresh = s.fresh := rfl
@[simp] theorem State.setPch_nmCur : (s.setPch n p).nmCur = s.nmCur := rfl
@[simp] theorem State.setPch_cur : (s.setPch n p).cur = s.cur := rfl
@[simp] theorem State.setPch_inbox : (s.setPch n p).inbox = s.inbox := rfl
end

section
variable (s : State) (n : Nat) (x : Launch)
@[simp] theorem State.setLaunch_dtime : (s.setLaunch n x).dtime = s.dtime := rfl
@[simp] theorem State.setLaunch_boot : (s.setLaunch n x).boot = s.boot := rfl
@[simp] theorem State.setLaunch_tripped : (s.setLaunch n x).tripped = s.tripped := rfl
@[simp] theorem State.setLaunch_mem : (s.setLaunch n x).mem = s.mem := rfl
@[simp] theorem State.setLaunch_bad : (s.setLaunch n x).bad = s.bad := rfl
@[simp] theorem State.setLaunch_horizon : (s.setLaunch n x).horizon = s.horizon := rfl
@[simp] theorem State.setLaunch_owned : (s.setLaunch n x).owned = s.owned := rfl
@[simp] theorem State.setLaunch_lastWrite : (s.setLaunch n x).lastWrite = s.lastWrite := rfl
@[simp] theorem State.setLaunch_locked : (s.setLaunch n x).locked = s.locked := rfl
@[simp] theorem State.setLaunch_flights : (s.setLaunch n x).flights = s.flights := rfl
@[simp] theorem State.setLaunch_hostPending : (s.setLaunch n x).hostPending = s.hostPending := rfl
@[simp] theorem State.setLaunch_cores : (s.setLaunch n x).cores = s.cores := rfl
@[simp] theorem State.setLaunch_crews : (s.setLaunch n x).crews = s.crews := rfl
@[simp] theorem State.setLaunch_nextCrew : (s.setLaunch n x).nextCrew = s.nextCrew := rfl
@[simp] theorem State.setLaunch_nextSeq : (s.setLaunch n x).nextSeq = s.nextSeq := rfl
@[simp] theorem State.setLaunch_clusters : (s.setLaunch n x).clusters = s.clusters := rfl
@[simp] theorem State.setLaunch_dies : (s.setLaunch n x).dies = s.dies := rfl
@[simp] theorem State.setLaunch_hbm : (s.setLaunch n x).hbm = s.hbm := rfl
@[simp] theorem State.setLaunch_pchs : (s.setLaunch n x).pchs = s.pchs := rfl
@[simp] theorem State.setLaunch_cmds : (s.setLaunch n x).cmds = s.cmds := rfl
@[simp] theorem State.setLaunch_nextCmd : (s.setLaunch n x).nextCmd = s.nextCmd := rfl
@[simp] theorem State.setLaunch_launches : (s.setLaunch n x).launches = tset s.launches n x := rfl
@[simp] theorem State.setLaunch_nextLaunch : (s.setLaunch n x).nextLaunch = s.nextLaunch := rfl
@[simp] theorem State.setLaunch_aspaces : (s.setLaunch n x).aspaces = s.aspaces := rfl
@[simp] theorem State.setLaunch_vis : (s.setLaunch n x).vis = s.vis := rfl
@[simp] theorem State.setLaunch_frames : (s.setLaunch n x).frames = s.frames := rfl
@[simp] theorem State.setLaunch_sealed : (s.setLaunch n x).sealed = s.sealed := rfl
@[simp] theorem State.setLaunch_movedRows : (s.setLaunch n x).movedRows = s.movedRows := rfl
@[simp] theorem State.setLaunch_spareRows : (s.setLaunch n x).spareRows = s.spareRows := rfl
@[simp] theorem State.setLaunch_traps : (s.setLaunch n x).traps = s.traps := rfl
@[simp] theorem State.setLaunch_halting : (s.setLaunch n x).halting = s.halting := rfl
@[simp] theorem State.setLaunch_reservations : (s.setLaunch n x).reservations = s.reservations := rfl
@[simp] theorem State.setLaunch_posts : (s.setLaunch n x).posts = s.posts := rfl
@[simp] theorem State.setLaunch_ueFlights : (s.setLaunch n x).ueFlights = s.ueFlights := rfl
@[simp] theorem State.setLaunch_acks : (s.setLaunch n x).acks = s.acks := rfl
@[simp] theorem State.setLaunch_held : (s.setLaunch n x).held = s.held := rfl
@[simp] theorem State.setLaunch_ckpt : (s.setLaunch n x).ckpt = s.ckpt := rfl
@[simp] theorem State.setLaunch_supex : (s.setLaunch n x).supex = s.supex := rfl
@[simp] theorem State.setLaunch_peerReads : (s.setLaunch n x).peerReads = s.peerReads := rfl
@[simp] theorem State.setLaunch_peerOut : (s.setLaunch n x).peerOut = s.peerOut := rfl
@[simp] theorem State.setLaunch_ueDown : (s.setLaunch n x).ueDown = s.ueDown := rfl
@[simp] theorem State.setLaunch_linkGen : (s.setLaunch n x).linkGen = s.linkGen := rfl
@[simp] theorem State.setLaunch_linkWidth : (s.setLaunch n x).linkWidth = s.linkWidth := rfl
@[simp] theorem State.setLaunch_softCap : (s.setLaunch n x).softCap = s.softCap := rfl
@[simp] theorem State.setLaunch_power : (s.setLaunch n x).power = s.power := rfl
@[simp] theorem State.setLaunch_setpoint : (s.setLaunch n x).setpoint = s.setpoint := rfl
@[simp] theorem State.setLaunch_ballast : (s.setLaunch n x).ballast = s.ballast := rfl
@[simp] theorem State.setLaunch_floor : (s.setLaunch n x).floor = s.floor := rfl
@[simp] theorem State.setLaunch_throttle : (s.setLaunch n x).throttle = s.throttle := rfl
@[simp] theorem State.setLaunch_turn : (s.setLaunch n x).turn = s.turn := rfl
@[simp] theorem State.setLaunch_pace : (s.setLaunch n x).pace = s.pace := rfl
@[simp] theorem State.setLaunch_fresh : (s.setLaunch n x).fresh = s.fresh := rfl
@[simp] theorem State.setLaunch_nmCur : (s.setLaunch n x).nmCur = s.nmCur := rfl
@[simp] theorem State.setLaunch_cur : (s.setLaunch n x).cur = s.cur := rfl
@[simp] theorem State.setLaunch_inbox : (s.setLaunch n x).inbox = s.inbox := rfl
end

section
variable (s : State) (n : Nat) (a : ASpace)
@[simp] theorem State.setAspace_dtime : (s.setAspace n a).dtime = s.dtime := rfl
@[simp] theorem State.setAspace_boot : (s.setAspace n a).boot = s.boot := rfl
@[simp] theorem State.setAspace_tripped : (s.setAspace n a).tripped = s.tripped := rfl
@[simp] theorem State.setAspace_mem : (s.setAspace n a).mem = s.mem := rfl
@[simp] theorem State.setAspace_bad : (s.setAspace n a).bad = s.bad := rfl
@[simp] theorem State.setAspace_horizon : (s.setAspace n a).horizon = s.horizon := rfl
@[simp] theorem State.setAspace_owned : (s.setAspace n a).owned = s.owned := rfl
@[simp] theorem State.setAspace_lastWrite : (s.setAspace n a).lastWrite = s.lastWrite := rfl
@[simp] theorem State.setAspace_locked : (s.setAspace n a).locked = s.locked := rfl
@[simp] theorem State.setAspace_flights : (s.setAspace n a).flights = s.flights := rfl
@[simp] theorem State.setAspace_hostPending : (s.setAspace n a).hostPending = s.hostPending := rfl
@[simp] theorem State.setAspace_cores : (s.setAspace n a).cores = s.cores := rfl
@[simp] theorem State.setAspace_crews : (s.setAspace n a).crews = s.crews := rfl
@[simp] theorem State.setAspace_nextCrew : (s.setAspace n a).nextCrew = s.nextCrew := rfl
@[simp] theorem State.setAspace_nextSeq : (s.setAspace n a).nextSeq = s.nextSeq := rfl
@[simp] theorem State.setAspace_clusters : (s.setAspace n a).clusters = s.clusters := rfl
@[simp] theorem State.setAspace_dies : (s.setAspace n a).dies = s.dies := rfl
@[simp] theorem State.setAspace_hbm : (s.setAspace n a).hbm = s.hbm := rfl
@[simp] theorem State.setAspace_pchs : (s.setAspace n a).pchs = s.pchs := rfl
@[simp] theorem State.setAspace_cmds : (s.setAspace n a).cmds = s.cmds := rfl
@[simp] theorem State.setAspace_nextCmd : (s.setAspace n a).nextCmd = s.nextCmd := rfl
@[simp] theorem State.setAspace_launches : (s.setAspace n a).launches = s.launches := rfl
@[simp] theorem State.setAspace_nextLaunch : (s.setAspace n a).nextLaunch = s.nextLaunch := rfl
@[simp] theorem State.setAspace_aspaces : (s.setAspace n a).aspaces = tset s.aspaces n a := rfl
@[simp] theorem State.setAspace_vis : (s.setAspace n a).vis = s.vis := rfl
@[simp] theorem State.setAspace_frames : (s.setAspace n a).frames = s.frames := rfl
@[simp] theorem State.setAspace_sealed : (s.setAspace n a).sealed = s.sealed := rfl
@[simp] theorem State.setAspace_movedRows : (s.setAspace n a).movedRows = s.movedRows := rfl
@[simp] theorem State.setAspace_spareRows : (s.setAspace n a).spareRows = s.spareRows := rfl
@[simp] theorem State.setAspace_traps : (s.setAspace n a).traps = s.traps := rfl
@[simp] theorem State.setAspace_halting : (s.setAspace n a).halting = s.halting := rfl
@[simp] theorem State.setAspace_reservations : (s.setAspace n a).reservations = s.reservations := rfl
@[simp] theorem State.setAspace_posts : (s.setAspace n a).posts = s.posts := rfl
@[simp] theorem State.setAspace_ueFlights : (s.setAspace n a).ueFlights = s.ueFlights := rfl
@[simp] theorem State.setAspace_acks : (s.setAspace n a).acks = s.acks := rfl
@[simp] theorem State.setAspace_held : (s.setAspace n a).held = s.held := rfl
@[simp] theorem State.setAspace_ckpt : (s.setAspace n a).ckpt = s.ckpt := rfl
@[simp] theorem State.setAspace_supex : (s.setAspace n a).supex = s.supex := rfl
@[simp] theorem State.setAspace_peerReads : (s.setAspace n a).peerReads = s.peerReads := rfl
@[simp] theorem State.setAspace_peerOut : (s.setAspace n a).peerOut = s.peerOut := rfl
@[simp] theorem State.setAspace_ueDown : (s.setAspace n a).ueDown = s.ueDown := rfl
@[simp] theorem State.setAspace_linkGen : (s.setAspace n a).linkGen = s.linkGen := rfl
@[simp] theorem State.setAspace_linkWidth : (s.setAspace n a).linkWidth = s.linkWidth := rfl
@[simp] theorem State.setAspace_softCap : (s.setAspace n a).softCap = s.softCap := rfl
@[simp] theorem State.setAspace_power : (s.setAspace n a).power = s.power := rfl
@[simp] theorem State.setAspace_setpoint : (s.setAspace n a).setpoint = s.setpoint := rfl
@[simp] theorem State.setAspace_ballast : (s.setAspace n a).ballast = s.ballast := rfl
@[simp] theorem State.setAspace_floor : (s.setAspace n a).floor = s.floor := rfl
@[simp] theorem State.setAspace_throttle : (s.setAspace n a).throttle = s.throttle := rfl
@[simp] theorem State.setAspace_turn : (s.setAspace n a).turn = s.turn := rfl
@[simp] theorem State.setAspace_pace : (s.setAspace n a).pace = s.pace := rfl
@[simp] theorem State.setAspace_fresh : (s.setAspace n a).fresh = s.fresh := rfl
@[simp] theorem State.setAspace_nmCur : (s.setAspace n a).nmCur = s.nmCur := rfl
@[simp] theorem State.setAspace_cur : (s.setAspace n a).cur = s.cur := rfl
@[simp] theorem State.setAspace_inbox : (s.setAspace n a).inbox = s.inbox := rfl
end

section
variable (s : State) (n : Nat) (v : Vi)
@[simp] theorem State.setVi_dtime : (s.setVi n v).dtime = s.dtime := rfl
@[simp] theorem State.setVi_boot : (s.setVi n v).boot = s.boot := rfl
@[simp] theorem State.setVi_tripped : (s.setVi n v).tripped = s.tripped := rfl
@[simp] theorem State.setVi_mem : (s.setVi n v).mem = s.mem := rfl
@[simp] theorem State.setVi_bad : (s.setVi n v).bad = s.bad := rfl
@[simp] theorem State.setVi_horizon : (s.setVi n v).horizon = s.horizon := rfl
@[simp] theorem State.setVi_owned : (s.setVi n v).owned = s.owned := rfl
@[simp] theorem State.setVi_lastWrite : (s.setVi n v).lastWrite = s.lastWrite := rfl
@[simp] theorem State.setVi_locked : (s.setVi n v).locked = s.locked := rfl
@[simp] theorem State.setVi_flights : (s.setVi n v).flights = s.flights := rfl
@[simp] theorem State.setVi_hostPending : (s.setVi n v).hostPending = s.hostPending := rfl
@[simp] theorem State.setVi_cores : (s.setVi n v).cores = s.cores := rfl
@[simp] theorem State.setVi_crews : (s.setVi n v).crews = s.crews := rfl
@[simp] theorem State.setVi_nextCrew : (s.setVi n v).nextCrew = s.nextCrew := rfl
@[simp] theorem State.setVi_nextSeq : (s.setVi n v).nextSeq = s.nextSeq := rfl
@[simp] theorem State.setVi_clusters : (s.setVi n v).clusters = s.clusters := rfl
@[simp] theorem State.setVi_dies : (s.setVi n v).dies = s.dies := rfl
@[simp] theorem State.setVi_hbm : (s.setVi n v).hbm = s.hbm := rfl
@[simp] theorem State.setVi_pchs : (s.setVi n v).pchs = s.pchs := rfl
@[simp] theorem State.setVi_cmds : (s.setVi n v).cmds = s.cmds := rfl
@[simp] theorem State.setVi_nextCmd : (s.setVi n v).nextCmd = s.nextCmd := rfl
@[simp] theorem State.setVi_launches : (s.setVi n v).launches = s.launches := rfl
@[simp] theorem State.setVi_nextLaunch : (s.setVi n v).nextLaunch = s.nextLaunch := rfl
@[simp] theorem State.setVi_aspaces : (s.setVi n v).aspaces = s.aspaces := rfl
@[simp] theorem State.setVi_vis : (s.setVi n v).vis = tset s.vis n v := rfl
@[simp] theorem State.setVi_frames : (s.setVi n v).frames = s.frames := rfl
@[simp] theorem State.setVi_sealed : (s.setVi n v).sealed = s.sealed := rfl
@[simp] theorem State.setVi_movedRows : (s.setVi n v).movedRows = s.movedRows := rfl
@[simp] theorem State.setVi_spareRows : (s.setVi n v).spareRows = s.spareRows := rfl
@[simp] theorem State.setVi_traps : (s.setVi n v).traps = s.traps := rfl
@[simp] theorem State.setVi_halting : (s.setVi n v).halting = s.halting := rfl
@[simp] theorem State.setVi_reservations : (s.setVi n v).reservations = s.reservations := rfl
@[simp] theorem State.setVi_posts : (s.setVi n v).posts = s.posts := rfl
@[simp] theorem State.setVi_ueFlights : (s.setVi n v).ueFlights = s.ueFlights := rfl
@[simp] theorem State.setVi_acks : (s.setVi n v).acks = s.acks := rfl
@[simp] theorem State.setVi_held : (s.setVi n v).held = s.held := rfl
@[simp] theorem State.setVi_ckpt : (s.setVi n v).ckpt = s.ckpt := rfl
@[simp] theorem State.setVi_supex : (s.setVi n v).supex = s.supex := rfl
@[simp] theorem State.setVi_peerReads : (s.setVi n v).peerReads = s.peerReads := rfl
@[simp] theorem State.setVi_peerOut : (s.setVi n v).peerOut = s.peerOut := rfl
@[simp] theorem State.setVi_ueDown : (s.setVi n v).ueDown = s.ueDown := rfl
@[simp] theorem State.setVi_linkGen : (s.setVi n v).linkGen = s.linkGen := rfl
@[simp] theorem State.setVi_linkWidth : (s.setVi n v).linkWidth = s.linkWidth := rfl
@[simp] theorem State.setVi_softCap : (s.setVi n v).softCap = s.softCap := rfl
@[simp] theorem State.setVi_power : (s.setVi n v).power = s.power := rfl
@[simp] theorem State.setVi_setpoint : (s.setVi n v).setpoint = s.setpoint := rfl
@[simp] theorem State.setVi_ballast : (s.setVi n v).ballast = s.ballast := rfl
@[simp] theorem State.setVi_floor : (s.setVi n v).floor = s.floor := rfl
@[simp] theorem State.setVi_throttle : (s.setVi n v).throttle = s.throttle := rfl
@[simp] theorem State.setVi_turn : (s.setVi n v).turn = s.turn := rfl
@[simp] theorem State.setVi_pace : (s.setVi n v).pace = s.pace := rfl
@[simp] theorem State.setVi_fresh : (s.setVi n v).fresh = s.fresh := rfl
@[simp] theorem State.setVi_nmCur : (s.setVi n v).nmCur = s.nmCur := rfl
@[simp] theorem State.setVi_cur : (s.setVi n v).cur = s.cur := rfl
@[simp] theorem State.setVi_inbox : (s.setVi n v).inbox = s.inbox := rfl
end

section
variable (s : State) (p : Post)
@[simp] theorem State.post_dtime : (s.post p).dtime = s.dtime := rfl
@[simp] theorem State.post_boot : (s.post p).boot = s.boot := rfl
@[simp] theorem State.post_tripped : (s.post p).tripped = s.tripped := rfl
@[simp] theorem State.post_mem : (s.post p).mem = s.mem := rfl
@[simp] theorem State.post_bad : (s.post p).bad = s.bad := rfl
@[simp] theorem State.post_horizon : (s.post p).horizon = s.horizon := rfl
@[simp] theorem State.post_owned : (s.post p).owned = s.owned := rfl
@[simp] theorem State.post_lastWrite : (s.post p).lastWrite = s.lastWrite := rfl
@[simp] theorem State.post_locked : (s.post p).locked = s.locked := rfl
@[simp] theorem State.post_flights : (s.post p).flights = s.flights := rfl
@[simp] theorem State.post_hostPending : (s.post p).hostPending = s.hostPending := rfl
@[simp] theorem State.post_cores : (s.post p).cores = s.cores := rfl
@[simp] theorem State.post_crews : (s.post p).crews = s.crews := rfl
@[simp] theorem State.post_nextCrew : (s.post p).nextCrew = s.nextCrew := rfl
@[simp] theorem State.post_nextSeq : (s.post p).nextSeq = s.nextSeq := rfl
@[simp] theorem State.post_clusters : (s.post p).clusters = s.clusters := rfl
@[simp] theorem State.post_dies : (s.post p).dies = s.dies := rfl
@[simp] theorem State.post_hbm : (s.post p).hbm = s.hbm := rfl
@[simp] theorem State.post_pchs : (s.post p).pchs = s.pchs := rfl
@[simp] theorem State.post_cmds : (s.post p).cmds = s.cmds := rfl
@[simp] theorem State.post_nextCmd : (s.post p).nextCmd = s.nextCmd := rfl
@[simp] theorem State.post_launches : (s.post p).launches = s.launches := rfl
@[simp] theorem State.post_nextLaunch : (s.post p).nextLaunch = s.nextLaunch := rfl
@[simp] theorem State.post_aspaces : (s.post p).aspaces = s.aspaces := rfl
@[simp] theorem State.post_vis : (s.post p).vis = s.vis := rfl
@[simp] theorem State.post_frames : (s.post p).frames = s.frames := rfl
@[simp] theorem State.post_sealed : (s.post p).sealed = s.sealed := rfl
@[simp] theorem State.post_movedRows : (s.post p).movedRows = s.movedRows := rfl
@[simp] theorem State.post_spareRows : (s.post p).spareRows = s.spareRows := rfl
@[simp] theorem State.post_traps : (s.post p).traps = s.traps := rfl
@[simp] theorem State.post_halting : (s.post p).halting = s.halting := rfl
@[simp] theorem State.post_reservations : (s.post p).reservations = s.reservations := rfl
@[simp] theorem State.post_posts : (s.post p).posts = s.posts ++ [p] := rfl
@[simp] theorem State.post_ueFlights : (s.post p).ueFlights = s.ueFlights := rfl
@[simp] theorem State.post_acks : (s.post p).acks = s.acks := rfl
@[simp] theorem State.post_held : (s.post p).held = s.held := rfl
@[simp] theorem State.post_ckpt : (s.post p).ckpt = s.ckpt := rfl
@[simp] theorem State.post_supex : (s.post p).supex = s.supex := rfl
@[simp] theorem State.post_peerReads : (s.post p).peerReads = s.peerReads := rfl
@[simp] theorem State.post_peerOut : (s.post p).peerOut = s.peerOut := rfl
@[simp] theorem State.post_ueDown : (s.post p).ueDown = s.ueDown := rfl
@[simp] theorem State.post_linkGen : (s.post p).linkGen = s.linkGen := rfl
@[simp] theorem State.post_linkWidth : (s.post p).linkWidth = s.linkWidth := rfl
@[simp] theorem State.post_softCap : (s.post p).softCap = s.softCap := rfl
@[simp] theorem State.post_power : (s.post p).power = s.power := rfl
@[simp] theorem State.post_setpoint : (s.post p).setpoint = s.setpoint := rfl
@[simp] theorem State.post_ballast : (s.post p).ballast = s.ballast := rfl
@[simp] theorem State.post_floor : (s.post p).floor = s.floor := rfl
@[simp] theorem State.post_throttle : (s.post p).throttle = s.throttle := rfl
@[simp] theorem State.post_turn : (s.post p).turn = s.turn := rfl
@[simp] theorem State.post_pace : (s.post p).pace = s.pace := rfl
@[simp] theorem State.post_fresh : (s.post p).fresh = s.fresh := rfl
@[simp] theorem State.post_nmCur : (s.post p).nmCur = s.nmCur := rfl
@[simp] theorem State.post_cur : (s.post p).cur = s.cur := rfl
@[simp] theorem State.post_inbox : (s.post p).inbox = s.inbox := rfl
end

end Sys2Proof.Machine
end

