-- ==== Sys2Proof/Laws/Tables.lean ====
section
/-! SUPPORT. Lemmas of the sparse tables, lane masks, lists by position, and the reads of a replaced part of the state. -/

namespace Sys2Proof.Machine

/-! ### Tables -/

@[simp] theorem tget_nil {α : Type} (d : α) (k : Nat) : tget d [] k = d := rfl

/-- What is read under a number after an entry has been replaced. -/
theorem tget_tset {α : Type} (d v : α) (t : Tab α) (j k : Nat) : tget d (tset t j v) k = if k = j then v else tget d t k := by
  induction t with
  | nil => simp only [tset, tget, eq_comm]
  | cons e t ih =>
    obtain ⟨i, x⟩ := e
    by_cases h : j < i
    · simp only [tset, h, if_true, tget, eq_comm (a := j)]
    · by_cases h' : j = i
      · subst h'
        simp only [tset, Nat.lt_irrefl, if_false, if_true, tget, eq_comm (a := j)]
        by_cases hk : k = j <;> simp only [hk, if_true, if_false]
      · simp only [tset, h, h', if_false, tget, ih]
        by_cases hk : k = j
        · have : i ≠ j := fun e => h' e.symm
          simp only [hk, this, if_true, if_false]
        · simp only [hk, if_false]

@[simp] theorem tget_tset_self {α : Type} (d v : α) (t : Tab α) (k : Nat) : tget d (tset t k v) k = v := by simp [tget_tset]

theorem tget_tset_ne {α : Type} (d v : α) (t : Tab α) {j k : Nat} (h : k ≠ j) : tget d (tset t j v) k = tget d t k := by
  simp [tget_tset, h]

/-- A replaced entry is listed. -/
theorem mem_tset {α : Type} (t : Tab α) (k : Nat) (v : α) : (k, v) ∈ tset t k v := by
  induction t with
  | nil => simp [tset]
  | cons e t ih =>
    obtain ⟨i, x⟩ := e
    simp only [tset]
    split
    · simp
    · split
      · simp
      · simp [ih]

/-- What is read under a number is listed, or is the default. -/
theorem tget_mem {α : Type} (d : α) (t : Tab α) (k : Nat) : (k, tget d t k) ∈ t ∨ tget d t k = d := by
  induction t with
  | nil => right; rfl
  | cons e t ih =>
    obtain ⟨i, x⟩ := e
    by_cases h : i = k
    · left; simp [tget, h]
    · rcases ih with ih | ih
      · left; simp only [tget, h, if_false]; exact List.mem_cons_of_mem _ ih
      · right; simp only [tget, h, if_false]; exact ih

/-! ### Positions -/

@[simp] theorem getD_map_range {α : Type} (f : Nat → α) (d : α) (n i : Nat) :
    ((List.range n).map f).getD i d = if i < n then f i else d := by
  by_cases h : i < n <;> simp [List.getD, h]

theorem getD_setAt {α : Type} (n : Nat) (d : α) (xs : List α) (k : Nat) (v : α) (i : Nat) :
    (setAt n d xs k v).getD i d = if i < n then (if i = k then v else xs.getD i d) else d := getD_map_range _ _ _ _

@[simp] theorem length_setAt {α : Type} (n : Nat) (d : α) (xs : List α) (k : Nat) (v : α) : (setAt n d xs k v).length = n := by
  simp [setAt]

@[simp] theorem getD_map_laneList {α : Type} (f : Nat → α) (d : α) (l : Nat) :
    (laneList.map f).getD l d = if l < 32 then f l else d := getD_map_range _ _ _ _

@[simp] theorem mem_laneList (l : Nat) : l ∈ laneList ↔ l < 32 := by simp [laneList]

/-! ### Masks -/

@[simp] theorem getLsbD_maskOf (f : Nat → Bool) (l : Nat) : (maskOf f).getLsbD l = (decide (l < 32) && f l) := by
  simp [maskOf, BitVec.getLsbD_ofFnLE]

theorem mask_lt {m : Mask} {l : Nat} (h : m.getLsbD l = true) : l < 32 := BitVec.lt_of_getLsbD h

theorem mem_lanesOf (m : Mask) (l : Nat) : l ∈ lanesOf m ↔ m.getLsbD l = true := by
  simp only [lanesOf, List.mem_filter, mem_laneList]
  exact ⟨fun h => h.2, fun h => ⟨mask_lt h, h⟩⟩

/-- A mask without a lane is zero. -/
theorem maskOf_eq_zero {f : Nat → Bool} (h : ∀ l, l < 32 → f l = false) : maskOf f = 0 := by
  apply BitVec.eq_of_getLsbD_eq
  intro i hi
  simp [h i hi]

@[simp] theorem lanesOf_zero : lanesOf 0 = [] := by simp [lanesOf]

/-! ### Threads and registers of a crew -/

@[simp] theorem Crew.thr_onThreads (c : Crew) (f : Nat → Thread → Thread) (l : Nat) :
    (c.onThreads f).thr l = if l < 32 then f l (c.thr l) else {} :=
  getD_map_laneList (fun l => f l (c.thr l)) {} l

@[simp] theorem Crew.thr_onMask (c : Crew) (m : Mask) (f : Nat → Thread → Thread) {l : Nat} (h : l < 32) :
    (c.onMask m f).thr l = if m.getLsbD l then f l (c.thr l) else c.thr l := by simp [Crew.onMask, h]

@[simp] theorem Crew.thr_setThr (c : Crew) (k : Nat) (t : Thread) {l : Nat} (h : l < 32) :
    (c.setThr k t).thr l = if l = k then t else c.thr l := by simp [Crew.setThr, h]

@[simp] theorem Crew.reg_onThreads (c : Crew) (f : Nat → Thread → Thread) (r : Nat) : (c.onThreads f).reg r = c.reg r := rfl
@[simp] theorem Crew.reg_onMask (c : Crew) (m : Mask) (f : Nat → Thread → Thread) (r : Nat) : (c.onMask m f).reg r = c.reg r := rfl
@[simp] theorem Crew.reg_setThr (c : Crew) (k : Nat) (t : Thread) (r : Nat) : (c.setThr k t).reg r = c.reg r := rfl
@[simp] theorem Crew.thr_onRegs (c : Crew) (f : Nat → Option PReg → Option PReg) (l : Nat) : (c.onRegs f).thr l = c.thr l := rfl

@[simp] theorem Crew.reg_zero (c : Crew) : c.reg 0 = none := rfl

theorem Crew.reg_onRegs (c : Crew) (f : Nat → Option PReg → Option PReg) {r : Nat} (h : r < 64) :
    (c.onRegs f).reg r = if r = 0 then none else f r (c.reg r) := by
  simp only [Crew.reg, Crew.onRegs, regList, getD_map_range, h, if_true]

theorem Crew.lane_eq (c : Crew) (r l : Nat) : c.lane r l = ((c.reg r).map fun p => p.lane l).getD {} := by
  unfold Crew.lane
  cases c.reg r <;> rfl

theorem Crew.rd_zero (c : Crew) (l : Nat) : c.rd 0 l = 0 := rfl

theorem PReg.lane_onLanes (p : PReg) (f : Nat → Lane → Lane) {l : Nat} (h : l < 32) : (p.onLanes f).lane l = f l (p.lane l) := by
  have := getD_map_laneList (fun k => f k (p.lane k)) {} l
  rw [if_pos h] at this
  exact this

@[simp] theorem live_value (v : Word) : (live v).value = v := rfl

/-! ### Parts of the state -/

@[simp] theorem State.core_setCore (s : State) (n : Nat) (c : Core) : (s.setCore n c).core n = c := by simp [State.core, State.setCore]
theorem State.core_setCore_ne (s : State) (c : Core) {n m : Nat} (h : m ≠ n) : (s.setCore n c).core m = s.core m := by
  simp [State.core, State.setCore, tget_tset, h]
@[simp] theorem State.crew_setCrew (s : State) (k : Nat) (c : Crew) : (s.setCrew k c).crew k = c := by simp [State.crew, State.setCrew]
theorem State.crew_setCrew_ne (s : State) (c : Crew) {k j : Nat} (h : j ≠ k) : (s.setCrew k c).crew j = s.crew j := by
  simp [State.crew, State.setCrew, tget_tset, h]
@[simp] theorem State.launch_setLaunch (s : State) (n : Nat) (x : Launch) : (s.setLaunch n x).launch n = x := by
  simp [State.launch, State.setLaunch]
theorem State.launch_setLaunch_ne (s : State) (x : Launch) {n m : Nat} (h : m ≠ n) : (s.setLaunch n x).launch m = s.launch m := by
  simp [State.launch, State.setLaunch, tget_tset, h]
@[simp] theorem State.cluster_setCluster (s : State) (n : Nat) (x : Cluster) : (s.setCluster n x).cluster n = x := by
  simp [State.cluster, State.setCluster]
@[simp] theorem State.die_setDie (s : State) (n : Nat) (x : Die) : (s.setDie n x).die n = x := by simp [State.die, State.setDie]
@[simp] theorem State.stackAt_setStack (s : State) (n : Nat) (x : Stack) : (s.setStack n x).stackAt n = x := by
  simp [State.stackAt, State.setStack]
@[simp] theorem State.pch_setPch (s : State) (n : Nat) (x : Pch) : (s.setPch n x).pch n = x := by simp [State.pch, State.setPch]
theorem State.pch_setPch_ne (s : State) (x : Pch) {n m : Nat} (h : m ≠ n) : (s.setPch n x).pch m = s.pch m := by
  simp [State.pch, State.setPch, tget_tset, h]
@[simp] theorem State.vi_setVi (s : State) (n : Nat) (x : Vi) : (s.setVi n x).vi n = x := by simp [State.vi, State.setVi]
@[simp] theorem State.aspace_setAspace (s : State) (n : Nat) (x : ASpace) : (s.setAspace n x).aspace n = x := by
  simp [State.aspace, State.setAspace]

@[simp] theorem State.core_setCrew (s : State) (k n : Nat) (c : Crew) : (s.setCrew k c).core n = s.core n := rfl
@[simp] theorem State.crew_setCore (s : State) (k n : Nat) (c : Core) : (s.setCore n c).crew k = s.crew k := rfl
@[simp] theorem State.launch_setCrew (s : State) (k n : Nat) (c : Crew) : (s.setCrew k c).launch n = s.launch n := rfl
@[simp] theorem State.launch_setCore (s : State) (k n : Nat) (c : Core) : (s.setCore n c).launch k = s.launch k := rfl
@[simp] theorem State.crew_setLaunch (s : State) (k n : Nat) (x : Launch) : (s.setLaunch n x).crew k = s.crew k := rfl
@[simp] theorem State.core_setLaunch (s : State) (k n : Nat) (x : Launch) : (s.setLaunch n x).core k = s.core k := rfl

end Sys2Proof.Machine
end

