-- ==== Sys2Proof/Laws/Registers.lean ====
section
/-! SUPPORT. What the writes of R49 and the end of the reads (R51, R148) do to the registers of a crew, and that what follows an
instruction on its core leaves crews alone. -/

namespace Sys2Proof.Machine

/-! ### Writes -/

theorem Crew.write_map (c : Crew) (d : Nat) (g : Mask) (v : Nat → Lane) (bank cycle : Nat) :
    c.write d g v bank cycle = { c with map := (c.write d g v bank cycle).map } := by
  unfold Crew.write
  split <;> rfl

/-- A write replaces the lanes of its mask and copies the others (R49). -/
theorem Crew.lane_write (c : Crew) (d : Nat) (g : Mask) (v : Nat → Lane) (bank cycle : Nat) {r l : Nat} (hr : r < 64) (hl : l < 32) :
    (c.write d g v bank cycle).lane r l = if r = d ∧ r ≠ 0 ∧ g.getLsbD l = true then v l else c.lane r l := by
  unfold Crew.write
  by_cases h : d = 0 ∨ g = 0
  · rw [if_pos h]
    have : ¬(r = d ∧ r ≠ 0 ∧ g.getLsbD l = true) := by
      rintro ⟨rfl, h0, hg⟩
      rcases h with h | h
      · exact h0 h
      · simp [h] at hg
    rw [if_neg this]
  · rw [if_neg h]
    simp only [Crew.lane_eq, Crew.reg_onRegs _ _ hr]
    by_cases h0 : r = 0
    · subst h0; simp
    · by_cases hd : r = d
      · subst hd
        have := getD_map_laneList (fun k => if g.getLsbD k then v k else c.lane r k) {} l
        rw [if_pos hl] at this
        simp only [h0, if_false, if_true, Option.map_some, Option.getD_some, ne_eq, not_false_eq_true, true_and]
        rw [← Crew.lane_eq]
        exact this
      · simp [h0, hd]

/-- The lane of a register after the writes of a group, one per register, each in its own lanes. -/
def writtenLane (g : Nat → Mask) (v : Nat → Nat → Lane) (r l : Nat) : List Nat → Nat → Lane → Lane
  | [], _, x => x
  | d :: ds, j, x => writtenLane g v r l ds (j + 1) (if r = d ∧ r ≠ 0 ∧ (g j).getLsbD l = true then v j l else x)

/-- What the writes of a group change: the crew's registers, and nothing else. -/
theorem State.writeRegs_spec (crew : Nat) (g : Nat → Mask) (v : Nat → Nat → Lane) (ds : List Nat) (j : Nat) (bs : List Nat) (s : State) :
    let t := s.writeRegs crew g v ds j bs
    t = { s with crews := t.crews } ∧ (∀ n, n ≠ crew → t.crew n = s.crew n) ∧
    t.crew crew = { s.crew crew with map := (t.crew crew).map } ∧
    ∀ r l, r < 64 → l < 32 → (t.crew crew).lane r l = writtenLane g v r l ds j ((s.crew crew).lane r l) := by
  induction ds generalizing j bs s with
  | nil => exact ⟨rfl, fun _ _ => rfl, rfl, fun _ _ _ _ => rfl⟩
  | cons d ds ih =>
    intro t
    have ht : t = (s.writeReg crew d (g j) (v j) bs.head?).writeRegs crew g v ds (j + 1) (if d = 0 then bs else bs.tail) := rfl
    obtain ⟨h1, h2, h3, h4⟩ := ih (j + 1) (if d = 0 then bs else bs.tail) (s.writeReg crew d (g j) (v j) bs.head?)
    refine ⟨?_, ?_, ?_, ?_⟩
    · rw [ht, h1]; rfl
    · intro n hn
      rw [ht, h2 n hn]
      exact State.crew_setCrew_ne s _ hn
    · rw [ht, h3]
      simp only [State.writeReg, State.crew_setCrew]
      rw [Crew.write_map]
    · intro r l hr hl
      rw [ht, h4 r l hr hl]
      simp only [State.writeReg, State.crew_setCrew, writtenLane]
      rw [Crew.lane_write _ _ _ _ _ _ hr hl]

/-! ### The end of the reads -/

theorem Crew.endReads_map (c : Crew) (srcs rel : List Nat) (d m : Mask) (peek : Bool) (cycle : Nat) :
    c.endReads srcs rel d m peek cycle = { c with map := (c.endReads srcs rel d m peek cycle).map } := by
  unfold Crew.endReads
  split <;> rfl

@[simp] theorem PReg.lane_settle (p : PReg) (l : Nat) : p.settle.lane l = p.lane l := by
  unfold PReg.settle
  split <;> rfl

theorem PReg.lane_release (p : PReg) (m : Mask) {l : Nat} (h : l < 32) :
    (p.release m).lane l = if m.getLsbD l && (p.lane l).st == .live then { st := .released } else p.lane l := by
  simp only [PReg.release, PReg.lane_settle, PReg.lane_onLanes _ _ h]

theorem PReg.lane_consume (p : PReg) (m : Mask) {l : Nat} (h : l < 32) :
    (p.consume m).lane l = if m.getLsbD l && !(p.lane l).pend then { p.lane l with slot := none } else p.lane l := by
  simp only [PReg.consume, PReg.lane_onLanes _ _ h]

/-- What the end of the reads does to one physical register. -/
theorem Crew.reg_endReads (c : Crew) (srcs rel : List Nat) (d m : Mask) (peek : Bool) (cycle : Nat) {r : Nat} (hr : r < 64) :
    (c.endReads srcs rel d m peek cycle).reg r =
      if m = 0 then c.reg r else (c.reg r).map fun p =>
        let p := if srcs.contains r then { (if peek then p else p.consume d) with touched := cycle } else p
        if rel.contains r then p.release m else p := by
  unfold Crew.endReads
  by_cases hm : m = 0
  · simp [hm]
  · simp only [hm, if_false]
    rw [Crew.reg_onRegs _ _ hr]
    by_cases h0 : r = 0
    · subst h0; simp
    · simp [h0]

/-- A register that no mark releases keeps its value; a released one reads as 0 in the lanes of the mask (R51, R52, R148). -/
theorem Crew.rd_endReads (c : Crew) (srcs rel : List Nat) (d m : Mask) (peek : Bool) (cycle : Nat) {r l : Nat} (hr : r < 64) (hl : l < 32) :
    (c.endReads srcs rel d m peek cycle).rd r l = if m.getLsbD l && rel.contains r then 0 else c.rd r l := by
  unfold Crew.rd
  rw [Crew.lane_eq, Crew.reg_endReads _ _ _ _ _ _ _ hr, Crew.lane_eq c]
  by_cases hm : m = 0
  · simp [hm]
  · simp only [hm, if_false]
    cases hp : c.reg r with
    | none => simp [Lane.value]
    | some p =>
      simp only [Option.map_some, Option.getD_some]
      have key : ∀ q : PReg, (q.lane l).value = (p.lane l).value →
          ((if rel.contains r then q.release m else q).lane l).value =
            if m.getLsbD l && rel.contains r then 0 else (p.lane l).value := by
        intro q hq
        by_cases hrel : rel.contains r = true
        · simp only [hrel, if_true, Bool.and_true, PReg.lane_release _ _ hl]
          by_cases hml : m.getLsbD l = true
          · simp only [hml, Bool.true_and, if_true]
            by_cases hlive : (q.lane l).st = .live
            · simp [hlive, Lane.value]
            · simp [hlive, Lane.value]
          · simp [hml, hq]
        · have e : rel.contains r = false := by simpa using hrel
          simp only [e, Bool.and_false, Bool.false_eq_true, if_false]
          exact hq
      apply key
      by_cases hs : srcs.contains r = true
      · simp only [hs, if_true]
        cases peek
        · simp only [Bool.false_eq_true, if_false]
          show ((p.consume d).lane l).value = _
          rw [PReg.lane_consume _ _ hl]
          split <;> rfl
        · rfl
      · have e : srcs.contains r = false := by simpa using hs
        simp only [e, Bool.false_eq_true, if_false]

/-- A lane that is no completed future, in a register that no mark releases, stays as it is. -/
theorem Crew.lane_endReads (c : Crew) (srcs rel : List Nat) (d m : Mask) (peek : Bool) (cycle : Nat) {r l : Nat} (hr : r < 64) (hl : l < 32)
    (hrel : m.getLsbD l = true → rel.contains r = false) (hx : (c.lane r l).slot = none ∨ (c.lane r l).pend = true) :
    (c.endReads srcs rel d m peek cycle).lane r l = c.lane r l := by
  rw [Crew.lane_eq, Crew.reg_endReads _ _ _ _ _ _ _ hr]
  rw [Crew.lane_eq] at hx ⊢
  by_cases hm : m = 0
  · simp [hm]
  · simp only [hm, if_false]
    cases hp : c.reg r with
    | none => rfl
    | some p =>
      simp only [hp, Option.map_some, Option.getD_some] at hx ⊢
      have key : ∀ q : PReg, q.lane l = p.lane l → (if rel.contains r then q.release m else q).lane l = p.lane l := by
        intro q hq
        by_cases hrel' : rel.contains r = true
        · simp only [hrel', if_true, PReg.lane_release _ _ hl]
          by_cases hml : m.getLsbD l = true
          · rw [hrel hml] at hrel'; cases hrel'
          · simp [hml, hq]
        · have e : rel.contains r = false := by simpa using hrel'
          simp only [e, Bool.false_eq_true, if_false]
          exact hq
      apply key
      by_cases hs : srcs.contains r = true
      · simp only [hs, if_true]
        cases peek
        · simp only [Bool.false_eq_true, if_false]
          show (p.consume d).lane l = _
          rw [PReg.lane_consume _ _ hl]
          split
          · rename_i h
            rcases hx with hx | hx
            · cases hpl : p.lane l
              simp_all
            · simp [hx] at h
          · rfl
        · rfl
      · have e : srcs.contains r = false := by simpa using hs
        simp only [e, Bool.false_eq_true, if_false]

/-! ### What follows on the core -/

theorem State.sweepSlots_spec (s : State) (n : Nat) :
    s.sweepSlots n = { s with cores := (s.sweepSlots n).cores } := by
  unfold State.sweepSlots; dsimp only; split <;> rfl

theorem State.notePool_spec (s : State) (n : Nat) : s.notePool n = { s with cores := (s.notePool n).cores } := by
  unfold State.notePool; dsimp only; split <;> rfl

theorem State.clearTriggers_spec (s : State) (n : Nat) : s.clearTriggers n = { s with cores := (s.clearTriggers n).cores } := by
  unfold State.clearTriggers; dsimp only; split <;> rfl

theorem State.returnWindows_spec (s : State) (n : Nat) : s.returnWindows n = { s with cores := (s.returnWindows n).cores } := by
  unfold State.returnWindows; dsimp only; split <;> rfl

/-- What follows a change on a core replaces cores only. -/
theorem State.settleCore_spec (s : State) (n : Nat) : s.settleCore n = { s with cores := (s.settleCore n).cores } := by
  unfold State.settleCore
  rw [State.returnWindows_spec, State.clearTriggers_spec, State.notePool_spec, State.sweepSlots_spec]

/-- What follows a change on a core leaves the other cores alone. -/
theorem State.settleCore_ne (s : State) {n m : Nat} (h : m ≠ n) : (s.settleCore n).core m = s.core m := by
  have h1 : ∀ s : State, (s.sweepSlots n).core m = s.core m := by
    intro s; unfold State.sweepSlots; dsimp only; split
    · rfl
    · exact State.core_setCore_ne _ _ h
  have h2 : ∀ s : State, (s.notePool n).core m = s.core m := by
    intro s; unfold State.notePool; dsimp only; split <;> exact State.core_setCore_ne _ _ h
  have h3 : ∀ s : State, (s.clearTriggers n).core m = s.core m := by
    intro s; unfold State.clearTriggers; split
    · exact State.core_setCore_ne _ _ h
    · rfl
  have h4 : ∀ s : State, (s.returnWindows n).core m = s.core m := by
    intro s; unfold State.returnWindows; dsimp only; split
    · rfl
    · exact State.core_setCore_ne _ _ h
  unfold State.settleCore
  rw [h4, h3, h2, h1]

/-- Sweeping leaves every slot but one that holds a status, which may become free. -/
theorem State.sweepSlots_slot (s : State) (n : Nat) {k : Nat} (hk : k < 64) :
    ((s.sweepSlots n).core n).slot k = (s.core n).slot k ∨
    (∃ w, (s.core n).slot k = .held w) ∧ ((s.sweepSlots n).core n).slot k = .free := by
  unfold State.sweepSlots
  dsimp only
  split
  · exact Or.inl rfl
  · have e : ∀ x : List Slot, Core.slot { s.core n with slots := x } k = x.getD k .free := fun _ => rfl
    rw [State.core_setCore, e, getD_map_range, if_pos hk]
    cases h : (s.core n).slot k with
    | free => exact Or.inl rfl
    | busy c => exact Or.inl rfl
    | held w =>
      dsimp only
      split
      · exact Or.inl rfl
      · exact Or.inr ⟨⟨w, rfl⟩, rfl⟩

/-- A core that holds a crew keeps all but its slots, its pool's idle banks and its windows when it is settled. -/
theorem State.settleCore_self (s : State) (n : Nat) (h : s.crewsOn n ≠ []) :
    ((s.settleCore n).core n) = { s.core n with
      slots := ((s.settleCore n).core n).slots, poolIdle := ((s.settleCore n).core n).poolIdle
      windows := ((s.settleCore n).core n).windows } ∧
    (∀ k, k < 64 → ((s.settleCore n).core n).slot k = (s.core n).slot k ∨
      (∃ w, (s.core n).slot k = .held w) ∧ ((s.settleCore n).core n).slot k = .free) ∧
    ((s.settleCore n).core n).windows = (s.core n).windows.filter fun w =>
      (s.crews.any fun e => e.2.holdsWindow n w) || s.cmds.any fun d => d.core == n && d.launch == w.launch && d.usesWindows := by
  have e1 : ∀ s : State, (s.sweepSlots n).crewsOn n = s.crewsOn n := by
    intro s; rw [State.sweepSlots_spec]; rfl
  have e2 : ∀ s : State, (s.notePool n).crewsOn n = s.crewsOn n := by
    intro s; rw [State.notePool_spec]; rfl
  have ht : ∀ s : State, s.crewsOn n ≠ [] → s.clearTriggers n = s := by
    intro s hs
    unfold State.clearTriggers
    rw [if_neg]
    simp only [Bool.and_eq_true, List.isEmpty_iff]
    exact fun k => hs k.1
  have hs1 : ((s.sweepSlots n).core n) = { s.core n with slots := ((s.sweepSlots n).core n).slots } := by
    unfold State.sweepSlots; dsimp only; split
    · rfl
    · simp
  have hs2 : ∀ s : State, s.crewsOn n ≠ [] → ((s.notePool n).core n) = { s.core n with poolIdle := ((s.notePool n).core n).poolIdle } := by
    intro s hs
    unfold State.notePool; dsimp only
    rw [if_neg (by simpa [List.isEmpty_iff] using hs)]
    simp
  have hslot : ∀ k, ((s.sweepSlots n).notePool n |>.core n).slot k = ((s.sweepSlots n).core n).slot k := by
    intro k
    rw [hs2 (s.sweepSlots n) (by rw [e1]; exact h)]
    rfl
  unfold State.settleCore
  rw [ht _ (by rw [e2, e1]; exact h)]
  have hc : ((s.sweepSlots n).notePool n).crews = s.crews := by rw [State.notePool_spec, State.sweepSlots_spec]
  have hm : ((s.sweepSlots n).notePool n).cmds = s.cmds := by rw [State.notePool_spec, State.sweepSlots_spec]
  have hk := hs2 (s.sweepSlots n) (by rw [e1]; exact h)
  rw [hs1] at hk
  unfold State.returnWindows
  dsimp only
  split
  · rename_i he
    have hw : (s.core n).windows = [] := by
      have := List.isEmpty_iff.1 he
      rw [hk] at this
      exact this
    refine ⟨?_, ?_, ?_⟩
    · rw [hk]
    · intro k hk64
      rw [hslot k]
      exact State.sweepSlots_slot s n hk64
    · rw [hk]; simp [hw]
  · simp only [State.core_setCore, hc, hm]
    refine ⟨?_, ?_, ?_⟩
    · rw [hk]
    · intro k hk64
      have := State.sweepSlots_slot s n hk64
      rw [← hslot k] at this
      exact this
    · rw [hk]

end Sys2Proof.Machine
end

