-- ==== Sys2Proof/Laws/Retire.lean ====
section
/-! SUPPORT. The shared operations of an instruction: what taking traps, commit, issue and alu do (R47 to R52, R60, R63). -/

namespace Sys2Proof.Machine

/-! ### Taking traps -/

/-- What the traps of an instruction's lanes change (R63, R230): the threads of those lanes and the list of trap records. -/
theorem State.takeTraps_spec (crew : Nat) (pc next : Dword) (why : Nat → Option (Word × Dword)) (ls : List Nat) (hls : ls.Nodup)
    (h32 : ∀ l ∈ ls, l < 32) (s : State) :
    let t := s.takeTraps crew pc next why ls
    t = { s with crews := t.crews, traps := t.traps } ∧ (∀ n, n ≠ crew → t.crew n = s.crew n) ∧
    t.crew crew = { s.crew crew with threads := (t.crew crew).threads } ∧
    (∀ l, l < 32 → (t.crew crew).thr l = match (if l ∈ ls then why l else none) with
      | none => (s.crew crew).thr l
      | some (cause, va) => { (s.crew crew).thr l with state := .trapped, trap := some ⟨cause, pc, next, va⟩ }) ∧
    t.traps = s.traps ++ ls.filterMap fun l => (why l).map fun w =>
      { name := s.nameOf (s.crew crew).launch ((s.crew crew).thr l).tid, launch := (s.crew crew).launch, tid := ((s.crew crew).thr l).tid, crew := crew, num := (s.crew crew).num
        core := (s.crew crew).lastCore, lane := l, info := ⟨w.1, pc, next, w.2⟩, dtime := s.dtime
        vi := (s.launch (s.crew crew).launch).vi, asid := (s.launch (s.crew crew).launch).asid } := by
  induction ls generalizing s with
  | nil =>
    refine ⟨rfl, fun _ _ => rfl, rfl, fun l _ => ?_, ?_⟩
    · simp [State.takeTraps]
    · simp [State.takeTraps]
  | cons a ls ih =>
    have hnd := List.nodup_cons.1 hls
    have h32' : ∀ l ∈ ls, l < 32 := fun l hl => h32 l (List.mem_cons_of_mem a hl)
    intro t
    cases hw : why a with
    | none =>
      have ht : t = s.takeTraps crew pc next why ls := by show s.takeTraps crew pc next why (a :: ls) = _; simp [State.takeTraps, hw]
      obtain ⟨h1, h2, h3, h4, h5⟩ := ih hnd.2 h32' s
      refine ⟨?_, ?_, ?_, ?_, ?_⟩
      · rw [ht]; exact h1
      · rw [ht]; exact h2
      · rw [ht]; exact h3
      · intro l hl
        rw [ht, h4 l hl]
        by_cases hla : l = a
        · subst hla
          simp [hw, hnd.1]
        · simp [hla]
      · rw [ht, h5]; simp [hw]
    | some w =>
      obtain ⟨cause, va⟩ := w
      have ht : t = (s.takeTrap crew a cause va pc next).takeTraps crew pc next why ls := by
        show s.takeTraps crew pc next why (a :: ls) = _; simp [State.takeTraps, hw]
      obtain ⟨h1, h2, h3, h4, h5⟩ := ih hnd.2 h32' (s.takeTrap crew a cause va pc next)
      have hc : (s.takeTrap crew a cause va pc next).crew crew =
          (s.crew crew).setThr a { (s.crew crew).thr a with state := .trapped, trap := some ⟨cause, pc, next, va⟩ } :=
        State.crew_setCrew s crew _
      have hl : (s.takeTrap crew a cause va pc next).launch = s.launch := rfl
      refine ⟨?_, ?_, ?_, ?_, ?_⟩
      · rw [ht, h1]; rfl
      · intro n hn
        rw [ht, h2 n hn]
        exact State.crew_setCrew_ne s _ hn
      · rw [ht, h3, hc]; rfl
      · intro l hl32
        rw [ht, h4 l hl32, hc, Crew.thr_setThr _ _ _ hl32]
        by_cases hla : l = a
        · subst hla
          simp [hw, hnd.1]
        · by_cases hm : l ∈ ls <;> simp [hla, hm]
      · rw [ht, h5, hc, hl]
        have e : (s.takeTrap crew a cause va pc next).traps = s.traps ++ [
            { name := s.nameOf (s.crew crew).launch ((s.crew crew).thr a).tid, launch := (s.crew crew).launch, tid := ((s.crew crew).thr a).tid, crew := crew, num := (s.crew crew).num
              core := (s.crew crew).lastCore, lane := a, info := ⟨cause, pc, next, va⟩, dtime := s.dtime
              vi := (s.launch (s.crew crew).launch).vi, asid := (s.launch (s.crew crew).launch).asid }] := rfl
        have ed : (s.takeTrap crew a cause va pc next).dtime = s.dtime := rfl
        rw [e, ed, List.append_assoc]
        congr 1
        simp only [List.filterMap_cons, hw, Option.map_some, List.singleton_append, List.cons.injEq, true_and]
        apply List.filterMap_congr
        intro l hl'
        have hla : l ≠ a := fun h => hnd.1 (h ▸ hl')
        cases why l with
        | none => rfl
        | some w =>
          simp only [Option.map_some, Option.some.injEq]
          rw [Crew.thr_setThr _ _ _ (h32' l hl'), if_neg hla]
          rfl

/-! ### Retirement -/

theorem writtenLane_none (g : Nat → Mask) (v : Nat → Nat → Lane) (r l : Nat) (h : r = 0 ∨ ∀ j, (g j).getLsbD l = false)
    (ds : List Nat) (j : Nat) (x : Lane) : writtenLane g v r l ds j x = x := by
  induction ds generalizing j x with
  | nil => rfl
  | cons d ds ih =>
    rw [writtenLane, ih]
    split
    · rename_i hc
      rcases h with h | h
      · exact absurd h hc.2.1
      · rw [h j] at hc; exact absurd hc.2.2 (by decide)
    · rfl

/-- The writes of an effect, one after the other, leave the lane that the last destination of that number takes. -/
theorem writtenLane_zip (g : Nat → Mask) (v : Nat → Nat → Lane) (r l : Nat) (h0 : r ≠ 0) (w : List Lane) (n : Nat)
    (hg : ∀ j, (g j).getLsbD l = decide (j < n + w.length)) (hv : ∀ j, n ≤ j → v j l = w.getD (j - n) {}) (ds : List Nat) (x : Lane) :
    writtenLane g v r l ds n x = (((ds.zip w).reverse.find? fun p => p.1 == r).map (·.2)).getD x := by
  induction ds generalizing n w x with
  | nil => rfl
  | cons d ds ih =>
    cases w with
    | nil =>
      have : ∀ (ds : List Nat) (j : Nat) (x : Lane), n ≤ j → writtenLane g v r l ds j x = x := by
        intro ds
        induction ds with
        | nil => intros; rfl
        | cons d ds ih =>
          intro j x hj
          rw [writtenLane, ih _ _ (by omega), if_neg]
          rintro ⟨-, -, h⟩
          rw [hg] at h
          simp at h
          omega
      simp [this _ _ _ (Nat.le_refl n)]
    | cons y w =>
      rw [writtenLane, ih w (n + 1)]
      · have hy : v n l = y := by rw [hv n (Nat.le_refl n)]; simp
        have hgn : (g n).getLsbD l = true := by rw [hg]; simp
        simp only [List.zip_cons_cons, List.reverse_cons, List.find?_append, hy, hgn]
        cases hf : (ds.zip w).reverse.find? fun p => p.1 == r with
        | some p => simp
        | none =>
          by_cases hd : d = r
          · subst hd; simp [h0]
          · have hd' : r ≠ d := fun e => hd e.symm
            simp [hd, hd']
      · intro j; rw [hg]; simp only [List.length_cons]; congr 1; rw [eq_iff_iff]; omega
      · intro j hj
        rw [hv j (by omega)]
        obtain ⟨k, rfl⟩ : ∃ k, j = n + 1 + k := ⟨j - (n + 1), by omega⟩
        have e1 : n + 1 + k - n = k + 1 := by omega
        have e2 : n + 1 + k - (n + 1) = k := by omega
        rw [e1, e2, List.getD_cons_succ]

theorem getLsbD_laneMask (k l : Nat) : (laneMask k).getLsbD l = (decide (l < 32) && l == k) := getLsbD_maskOf _ _

/-- The ends of reads that differ by lane, one lane after the other. -/
theorem Crew.foldl_endReads (srcs rel : Nat → List Nat) (peek : Bool) (cycle : Nat) (ls : List Nat) (c : Crew) :
    let F := ls.foldl (fun c l => c.endReads (srcs l) (rel l) (laneMask l) (laneMask l) peek cycle) c
    F = { c with map := F.map } ∧
    (∀ r l, r < 64 → l < 32 → F.rd r l = if decide (l ∈ ls) && (rel l).contains r then 0 else c.rd r l) ∧
    (∀ r l, r < 64 → l < 32 → (l ∈ ls → (rel l).contains r = false) → ((c.lane r l).slot = none ∨ (c.lane r l).pend = true) →
      F.lane r l = c.lane r l) := by
  induction ls generalizing c with
  | nil => exact ⟨rfl, fun _ _ _ _ => by simp, fun _ _ _ _ _ _ => rfl⟩
  | cons a ls ih =>
    obtain ⟨h1, h2, h3⟩ := ih (c.endReads (srcs a) (rel a) (laneMask a) (laneMask a) peek cycle)
    refine ⟨?_, ?_, ?_⟩
    · rw [List.foldl_cons, h1, Crew.endReads_map]
    · intro r l hr hl
      rw [List.foldl_cons, h2 r l hr hl, Crew.rd_endReads _ _ _ _ _ _ _ hr hl, getLsbD_laneMask]
      by_cases hla : l = a
      · subst hla
        by_cases hc : (rel l).contains r = true
        · simp only [hc, hl, decide_true, beq_self_eq_true, Bool.and_self, if_true, ite_self, List.mem_cons_self]
        · have : (rel l).contains r = false := by simpa using hc
          simp only [this, Bool.and_false, Bool.false_eq_true, if_false]
      · have e : (l == a) = false := by simp [hla]
        have e2 : (l ∈ a :: ls) ↔ l ∈ ls := by simp [hla]
        simp only [e, Bool.and_false, Bool.false_and, Bool.false_eq_true, if_false, e2]
    · intro r l hr hl hrel hx
      have hstep : (c.endReads (srcs a) (rel a) (laneMask a) (laneMask a) peek cycle).lane r l = c.lane r l := by
        apply Crew.lane_endReads _ _ _ _ _ _ _ hr hl _ hx
        intro hm
        rw [getLsbD_laneMask] at hm
        simp only [Bool.and_eq_true, decide_eq_true_eq, beq_iff_eq] at hm
        rw [← hm.2]
        exact hrel (by rw [← hm.2]; exact List.mem_cons_self)
      rw [List.foldl_cons, h3 r l hr hl (fun h => hrel (List.mem_cons_of_mem a h)) (by rw [hstep]; exact hx), hstep]

theorem Crew.lane_congr {c c' : Crew} (h : c.map = c'.map) (r l : Nat) : c.lane r l = c'.lane r l := by
  simp only [Crew.lane, Crew.reg, h]

theorem Crew.rd_congr {c c' : Crew} (h : c.map = c'.map) (r l : Nat) : c.rd r l = c'.rd r l := by
  simp only [Crew.rd, Crew.lane_congr h]

theorem State.crews_settleCore (s : State) (n : Nat) : (s.settleCore n).crews = s.crews := by
  rw [State.settleCore_spec]

theorem State.crew_settleCore (s : State) (n k : Nat) : (s.settleCore n).crew k = s.crew k := by
  unfold State.crew; rw [State.crews_settleCore]

/-- The windows that a launch's own crew keeps are found as before. -/
theorem find_filter_of {α : Type} (p q : α → Bool) (xs : List α) (h : ∀ x, p x = true → q x = true) :
    (xs.filter q).find? p = xs.find? p := by
  induction xs with
  | nil => rfl
  | cons x xs ih =>
    by_cases hp : p x = true
    · simp [h x hp, hp]
    · by_cases hq : q x = true
      · simp [hq, hp, ih]
      · simp [hq, hp, ih]

/-- The lanes of G that trap. -/
def trapMask (g : Mask) (eff : Nat → Eff) : Mask := maskOf fun l => g.getLsbD l && (eff l).trap.isSome

/-- The lanes that write destination j. -/
def writeMask (g : Mask) (eff : Nat → Eff) (j : Nat) : Mask :=
  maskOf fun l => g.getLsbD l && (eff l).trap.isNone && decide (j < (eff l).w.length)

/-- What commit does to the threads of the crew. -/
def retireThreads (i : Issue) (cycle : Nat) (g : Mask) (eff : Nat → Eff) (rlsd : Mask) (fresh : Bool) (c : Crew) : Crew :=
  (c.onMask (i.mask &&& ~~~ trapMask g eff) fun l t =>
    retireThread t (if g.getLsbD l then eff l else {}) (rlsd.getLsbD l) fresh (seqPc i.pc i.wide) cycle).onMask (trapMask g eff) fun l t =>
    if (eff l).trap = some (causeReleased, 0) ∧ rlsd.getLsbD l = true then { t with tstat := t.tstat ||| 1 } else t

/-- What commit does at the end of the reads. -/
def retireReads (i : Issue) (cycle : Nat) (o : Operands) (m : Mask) (c : Crew) : Crew :=
  let c := c.endReads o.srcs (o.released i.lu) (o.readMask m) m o.peek cycle
  if o.lanes.isEmpty then c else (lanesOf m).foldl (fun c l =>
    c.endReads (o.lanes.getD l []) (o.releasedAt i.lu l) (laneMask l) (laneMask l) o.peek cycle) c

/-- What commit counts, and the squash of a trap. -/
def retireCounts (i : Issue) (cycle : Nat) (o : Operands) (g : Mask) (eff : Nat → Eff) (c : Crew) : Crew :=
  let c := { c with
    issued := if i.entry then c.issued else c.issued + 1
    retired := if i.mask &&& ~~~ trapMask g eff = 0 then c.retired else c.retired + 1
    visible := c.visible || (o.visible && g &&& ~~~ trapMask g eff != 0) }
  if trapMask g eff = 0 then c else c.squash cycle

theorem State.commit_eq (s : State) (o : Operands) (g : Mask) (eff : Nat → Eff) (rlsd : Mask) (fresh : Bool) :
    s.commit o g eff rlsd fresh =
      let i := s.cur
      let cycle := s.cycleOf i.crew
      let s0 := s.setCrew i.crew { s.crew i.crew with rob := (s.crew i.crew).behind i }
      let s1 := s0.writeRegs i.crew (writeMask g eff) (fun j l => (eff l).w.getD j {}) o.dst 0 s.drawn
      let c := retireCounts i cycle o g eff (retireReads i cycle o (g &&& ~~~ trapMask g eff)
        (retireThreads i cycle g eff rlsd fresh (s1.crew i.crew)))
      let s3 := (s1.setCrew i.crew c).takeTraps i.crew i.pc (seqPc i.pc i.wide)
        (fun l => if g.getLsbD l then (eff l).trap else none) laneList
      ((if i.entry then s3 else s3.account c.lastCore i.crew i.pays).settleCore c.lastCore).leaveIfDone i.crew := rfl

/-- A squash wakes the lanes of its entries that wait for a future, and empties the reorder buffer. -/
theorem Crew.squash_spec (c : Crew) (cycle : Nat) :
    let F := c.squash cycle
    F = { c with threads := F.threads, rob := [] } ∧
    ∀ l, l < 32 → F.thr l =
      if (c.rob.any fun e => e.issue.mask.getLsbD l) = true ∧ (c.thr l).state = .future then (c.thr l).wake cycle else c.thr l := by
  refine ⟨rfl, fun l hl => ?_⟩
  have hm : ∀ (es : List RobEntry) (m : Mask), (es.foldl (fun m e => m ||| e.issue.mask) m).getLsbD l =
      (m.getLsbD l || es.any fun e => e.issue.mask.getLsbD l) := by
    intro es
    induction es with
    | nil => simp
    | cons e es ih => intro m; rw [List.foldl_cons, ih]; simp [BitVec.getLsbD_or, Bool.or_assoc]
  have h0 : (c.squash cycle).thr l = (c.onMask (c.rob.foldl (fun m e => m ||| e.issue.mask) 0)
      fun _ t => if t.state = .future then t.wake cycle else t).thr l := rfl
  rw [h0, Crew.thr_onMask _ _ _ hl, hm]
  cases h : c.rob.any fun e => e.issue.mask.getLsbD l <;> simp

/-- What commit counts changes counts alone; a trap squashes the entries behind it, whose lanes wait for no future any more (R63). -/
theorem retireCounts_spec (i : Issue) (cycle : Nat) (o : Operands) (g : Mask) (eff : Nat → Eff) (c : Crew) :
    let F := retireCounts i cycle o g eff c
    F = { c with threads := F.threads, rob := F.rob, issued := F.issued, retired := F.retired, visible := F.visible } ∧
    F.rob = (if trapMask g eff = 0 then c.rob else []) ∧
    ∀ l, l < 32 → F.thr l =
      if trapMask g eff ≠ 0 ∧ (c.rob.any fun e => e.issue.mask.getLsbD l) = true ∧ (c.thr l).state = .future then (c.thr l).wake cycle
      else c.thr l := by
  unfold retireCounts
  dsimp only
  by_cases h : trapMask g eff = 0
  · rw [if_pos h]
    exact ⟨rfl, by rw [if_pos h], fun l _ => by simp [h]; rfl⟩
  · rw [if_neg h]
    refine ⟨rfl, by rw [if_neg h]; rfl, fun l hl => ?_⟩
    rw [(Crew.squash_spec _ cycle).2 l hl]
    simp only [ne_eq, h, not_false_eq_true, true_and]
    rfl

/-- The cycle's accounting changes the marks of one core. -/
theorem State.account_spec (s : State) (n crew : Nat) (pays : Bool) :
    let t := s.account n crew pays
    t = { s with cores := t.cores } ∧ (∀ k, k ≠ n → t.core k = s.core k) ∧
    t.core n = { s.core n with counted := (t.core n).counted, portUse := (t.core n).portUse } :=
  ⟨rfl, fun _ h => State.core_setCore_ne _ _ h, by simp only [State.account, State.core_setCore]⟩

/-- The end of the reads changes the rename map alone: marked registers read as 0, and the others as before. -/
theorem retireReads_spec (i : Issue) (cycle : Nat) (o : Operands) (m : Mask) (c : Crew) :
    let F := retireReads i cycle o m c
    F = { c with map := F.map } ∧
    (∀ r l, r < 64 → l < 32 → F.rd r l =
      if m.getLsbD l && (o.released i.lu ++ o.releasedAt i.lu l).contains r then 0 else c.rd r l) ∧
    (∀ r l, r < 64 → l < 32 → (m.getLsbD l = true → (o.released i.lu ++ o.releasedAt i.lu l).contains r = false) →
      ((c.lane r l).slot = none ∨ (c.lane r l).pend = true) → F.lane r l = c.lane r l) := by
  intro F
  by_cases he : o.lanes.isEmpty = true
  · have hF : F = c.endReads o.srcs (o.released i.lu) (o.readMask m) m o.peek cycle := if_pos he
    have hat : ∀ l, o.releasedAt i.lu l = [] := by
      intro l
      have : o.lanes = [] := List.isEmpty_iff.1 he
      unfold Operands.releasedAt
      rw [this]
      simp
    refine ⟨?_, ?_, ?_⟩
    · rw [hF]; exact Crew.endReads_map _ _ _ _ _ _ _
    · intro r l hr hl
      rw [hF, Crew.rd_endReads _ _ _ _ _ _ _ hr hl, hat, List.append_nil]
    · intro r l hr hl hrel hx
      rw [hat, List.append_nil] at hrel
      rw [hF]
      exact Crew.lane_endReads _ _ _ _ _ _ _ hr hl hrel hx
  · have hF : F = (lanesOf m).foldl (fun c l => c.endReads (o.lanes.getD l []) (o.releasedAt i.lu l) (laneMask l) (laneMask l) o.peek cycle)
        (c.endReads o.srcs (o.released i.lu) (o.readMask m) m o.peek cycle) := if_neg he
    obtain ⟨h1, h2, h3⟩ := Crew.foldl_endReads (fun l => o.lanes.getD l []) (o.releasedAt i.lu) o.peek cycle (lanesOf m)
      (c.endReads o.srcs (o.released i.lu) (o.readMask m) m o.peek cycle)
    refine ⟨?_, ?_, ?_⟩
    · rw [hF, h1, Crew.endReads_map]
    · intro r l hr hl
      have hd : decide (l ∈ lanesOf m) = m.getLsbD l := by simp [mem_lanesOf]
      rw [hF, h2 r l hr hl, Crew.rd_endReads _ _ _ _ _ _ _ hr hl, hd]
      simp only [List.contains_append]
      cases m.getLsbD l <;> cases (o.released i.lu).contains r <;> cases (o.releasedAt i.lu l).contains r <;> simp
    · intro r l hr hl hrel hx
      have hrel1 : m.getLsbD l = true → (o.released i.lu).contains r = false := by
        intro hm
        have := hrel hm
        rw [List.contains_append] at this
        exact (Bool.or_eq_false_iff.1 this).1
      have hrel2 : m.getLsbD l = true → (o.releasedAt i.lu l).contains r = false := by
        intro hm
        have := hrel hm
        rw [List.contains_append] at this
        exact (Bool.or_eq_false_iff.1 this).2
      have e := Crew.lane_endReads c o.srcs (o.released i.lu) (o.readMask m) m o.peek cycle hr hl hrel1 hx
      rw [hF, h3 r l hr hl (fun h => hrel2 ((mem_lanesOf m l).1 h)) (by rw [e]; exact hx), e]

theorem retireThreads_spec (i : Issue) (cycle : Nat) (g : Mask) (eff : Nat → Eff) (rlsd : Mask) (fresh : Bool) (c : Crew) :
    let F := retireThreads i cycle g eff rlsd fresh c
    F = { c with threads := F.threads } ∧
    ∀ l, l < 32 → F.thr l =
      if g.getLsbD l && (eff l).trap.isSome then
        (let t := c.thr l
         if (eff l).trap = some (causeReleased, 0) ∧ rlsd.getLsbD l = true then { t with tstat := t.tstat ||| 1 } else t)
      else if i.mask.getLsbD l then
        retireThread (c.thr l) (if g.getLsbD l then eff l else {}) (rlsd.getLsbD l) fresh (seqPc i.pc i.wide) cycle
      else c.thr l := by
  refine ⟨rfl, fun l hl => ?_⟩
  unfold retireThreads
  rw [Crew.thr_onMask _ _ _ hl, Crew.thr_onMask _ _ _ hl]
  simp only [BitVec.getLsbD_and, BitVec.getLsbD_not, hl, decide_true, Bool.true_and, trapMask, getLsbD_maskOf]
  by_cases hb : (g.getLsbD l && (eff l).trap.isSome) = true
  · simp only [hb, Bool.not_true, Bool.and_false, if_true, Bool.false_eq_true, if_false]
  · have : (g.getLsbD l && (eff l).trap.isSome) = false := by simpa using hb
    simp only [this, Bool.not_false, Bool.and_true, Bool.false_eq_true, if_false]

theorem State.inG_inGroup {s : State} {l : Nat} (h : s.inG l = true) : s.inGroup l = true := by
  unfold State.inG State.active Crew.guarded at h
  simp only [getLsbD_maskOf, Bool.and_eq_true] at h
  exact h.2.1

/-- A crew that runs on a core is one of those that the core holds. -/
theorem State.crewsOn_ne_nil {s : State} {k n : Nat} (h : (s.crew k).core = some n) : s.crewsOn n ≠ [] := by
  rcases tget_mem ({} : Crew) s.crews k with hm | hm
  · intro he
    have : (⟨k, s.crew k⟩ : Nat × Crew) ∈ s.crewsOn n := by
      unfold State.crewsOn
      rw [List.mem_filter]
      exact ⟨hm, by simp [h]⟩
    rw [he] at this
    cases this
  · have h' : s.crew k = {} := hm
    rw [h'] at h
    cases h

/-- The reorder buffer of a crew whose oldest instruction waits (R59). -/
theorem State.rob_stall (s : State) (o : Operands) (why : Nat) : (s.stall o why).curCrew.rob =
    if s.cur.entry then
      match s.curCrew.rob with
      | [] => []
      | e :: es => { e with why := some why, since := if e.why = some why then e.since else s.cycleOf s.cur.crew } :: es
    else s.curCrew.rob ++ [s.cur.entryOf o (some why) (s.cycleOf s.cur.crew)] := by
  unfold State.stall
  by_cases he : s.cur.entry = true
  · rw [if_pos he, if_pos he]
    have hc : (s.setCrew s.cur.crew ((s.crew s.cur.crew).headWaits why (s.cycleOf s.cur.crew))).curCrew =
        s.curCrew.headWaits why (s.cycleOf s.cur.crew) := State.crew_setCrew _ _ _
    rw [hc]; unfold Crew.headWaits; cases h : s.curCrew.rob <;> simp [h, RobEntry.waits]
  · rw [if_neg he, if_neg he]
    exact congrArg Crew.rob (State.crew_setCrew _ _ _)

/-- All that a stall does: the instruction stays, or becomes, an entry of its crew's reorder buffer, and has no effect (R59, R61, R260). -/
theorem State.stall_waits (s : State) (o : Operands) (why : Nat) (hcore : s.curCrew.core = some s.curCore) : Waits s (s.stall o why) o why := by
  unfold State.stall
  by_cases he : s.cur.entry = true
  · rw [if_pos he]
    have hmap : (s.curCrew.headWaits why (s.cycleOf s.cur.crew)) = { s.curCrew with
        rob := (s.curCrew.headWaits why (s.cycleOf s.cur.crew)).rob } := by
      unfold Crew.headWaits; cases s.curCrew.rob <;> rfl
    have hc : (s.setCrew s.cur.crew ((s.crew s.cur.crew).headWaits why (s.cycleOf s.cur.crew))).curCrew =
        s.curCrew.headWaits why (s.cycleOf s.cur.crew) := State.crew_setCrew _ _ _
    refine ⟨⟨[], fun _ => rfl, Nat.zero_le _, ?_⟩, fun l _ => ?_, ?_, fun k hk => State.crew_setCrew_ne _ _ hk, fun _ _ => rfl, ?_, rfl⟩
    · rw [hc, if_pos he]; unfold Crew.headWaits; cases h : s.curCrew.rob <;> simp [h, RobEntry.waits]
    · unfold State.thrAt; rw [hc, hmap, he]; rfl
    · rw [hc, hmap, he]; rfl
    · rw [if_pos he]; rfl
  · rw [if_neg he]
    have he' : s.cur.entry = false := by simpa using he
    have hn : s.curCrew.core.getD s.curCrew.lastCore = s.curCore := by rw [hcore]; rfl
    have hc : (s.enrob o (some why)).curCrew = { s.curCrew.onMask s.cur.mask fun _ t =>
        { t with readySince := s.cycleOf s.cur.crew } with
      rob := s.curCrew.rob ++ [s.cur.entryOf o (some why) (s.cycleOf s.cur.crew)], issued := s.curCrew.issued + 1 } :=
      State.crew_setCrew _ _ _
    obtain ⟨a1, a2, a3⟩ := State.account_spec ((s.takeBanks s.curCore (o.banks s.curCrew)).setCrew s.cur.crew
      { s.curCrew.onMask s.cur.mask fun _ t => { t with readySince := s.cycleOf s.cur.crew } with
        rob := s.curCrew.rob ++ [s.cur.entryOf o (some why) (s.cycleOf s.cur.crew)], issued := s.curCrew.issued + 1 })
      s.curCore s.cur.crew s.cur.pays
    have henrob : s.enrob o (some why) = (((s.takeBanks s.curCore (o.banks s.curCrew)).setCrew s.cur.crew
      { s.curCrew.onMask s.cur.mask fun _ t => { t with readySince := s.cycleOf s.cur.crew } with
        rob := s.curCrew.rob ++ [s.cur.entryOf o (some why) (s.cycleOf s.cur.crew)], issued := s.curCrew.issued + 1 }).account
      s.curCore s.cur.crew s.cur.pays) := by
      rw [← hn]; rfl
    refine ⟨⟨[], fun _ => rfl, Nat.zero_le _, ?_⟩, fun l hl => ?_, ?_, fun k hk => State.crew_setCrew_ne _ _ hk, fun n hne => ?_, ?_, ?_⟩
    · rw [hc, if_neg he]; rfl
    · unfold State.thrAt; rw [hc, he']
      have h := Crew.thr_onMask s.curCrew s.cur.mask (fun _ t => { t with readySince := s.cycleOf s.cur.crew }) hl
      refine Eq.trans (show _ = (s.curCrew.onMask s.cur.mask fun _ t => { t with readySince := s.cycleOf s.cur.crew }).thr l from rfl) ?_
      rw [h]
      unfold State.inGroup
      cases s.cur.mask.getLsbD l <;> rfl
    · rw [hc, he']; rfl
    · rw [henrob, a2 n hne]
      exact State.core_setCore_ne _ _ hne
    · have hcl : ((s.takeBanks s.curCore (o.banks s.curCrew)).setCrew s.cur.crew
        { s.curCrew.onMask s.cur.mask fun _ t => { t with readySince := s.cycleOf s.cur.crew } with
          rob := s.curCrew.rob ++ [s.cur.entryOf o (some why) (s.cycleOf s.cur.crew)], issued := s.curCrew.issued + 1 }).core s.curCore =
          { s.core s.curCore with clash := o.banks s.curCrew ++ (s.core s.curCore).clash } := State.core_setCore _ _ _
      rw [henrob, a3, hcl, he']
      rfl
    · rw [henrob]; rfl

/-- What an entry draws for its results (R56): registers of its own crew, and no more than it asks for. -/
theorem State.drawUp_spec (crew k n : Nat) (s : State) :
    let t := s.drawUp crew k n
    t = { s with crews := t.crews } ∧ (∀ m, m ≠ crew → t.crew m = s.crew m) ∧
    ∃ more : List Nat, more.length ≤ n ∧
      t.crew crew = (s.crew crew).onEntry k fun e => { e with banks := e.banks ++ more } := by
  induction n generalizing s with
  | zero =>
    refine ⟨rfl, fun _ _ => rfl, [], Nat.le_refl 0, ?_⟩
    have : (fun e : RobEntry => { e with banks := e.banks ++ [] }) = id := by funext e; simp
    rw [this, Crew.onEntry, List.modify_id]
    rfl
  | succ n ih =>
    intro t
    by_cases hm : s.mayAllocate crew 1 = true
    · obtain ⟨h1, h2, more, h3, h4⟩ := ih (s.setCrew crew ((s.crew crew).onEntry k fun e =>
        { e with banks := e.banks ++ [s.pickBank ((s.crew crew).core.getD 0)] }))
      have ht : t = (s.setCrew crew ((s.crew crew).onEntry k fun e =>
          { e with banks := e.banks ++ [s.pickBank ((s.crew crew).core.getD 0)] })).drawUp crew k n := if_pos hm
      rw [← ht] at h1 h2 h4
      refine ⟨by rw [h1]; rfl, fun m hne => by rw [h2 m hne, State.crew_setCrew_ne _ _ hne],
        s.pickBank ((s.crew crew).core.getD 0) :: more, by simpa using h3, ?_⟩
      rw [h4, State.crew_setCrew]
      simp only [Crew.onEntry, List.modify_modify_eq]
      congr 2
      funext e
      simp
    · have ht : t = s := if_neg hm
      rw [ht]
      refine ⟨rfl, fun _ _ => rfl, [], Nat.zero_le _, ?_⟩
      have : (fun e : RobEntry => { e with banks := e.banks ++ [] }) = id := by funext e; simp
      rw [this, Crew.onEntry, List.modify_id]

/-- The pool's accounting of a core that holds a crew notes its idle banks alone. -/
theorem State.notePool_core (s : State) {n : Nat} (h : s.crewsOn n ≠ []) :
    (s.notePool n).core n = { s.core n with poolIdle := ((s.notePool n).core n).poolIdle } ∧ ∀ m, m ≠ n → (s.notePool n).core m = s.core m := by
  have he : (s.crewsOn n).isEmpty = false := by simpa [List.isEmpty_iff] using h
  unfold State.notePool
  dsimp only
  rw [he]
  refine ⟨?_, fun m hm => State.core_setCore_ne _ _ hm⟩
  simp only [Bool.false_eq_true, if_false, State.core_setCore]

/-- An instruction at the head that waits to allocate draws what it can, and has no other effect (R56). -/
theorem State.stall_drawHead_waits (s : State) (o : Operands) (hcore : s.curCrew.core = some s.curCore)
    (hhead : s.cur.entry = true ∨ s.curCrew.rob = []) : Waits s ((s.stall o 0).drawHead o) o 0 := by
  have w := State.stall_waits s o 0 hcore
  have hcur : (s.stall o 0).cur = s.cur := by rw [w.rest]
  have hrob := State.rob_stall s o 0
  generalize hu : s.stall o 0 = u at *
  have hc : u.curCrew = u.crew s.cur.crew := by unfold State.curCrew; rw [hcur]
  obtain ⟨d1, d2, more, hmore, d3⟩ := State.drawUp_spec s.cur.crew 0 (o.allocs - ((u.crew s.cur.crew).rob.headD {}).banks.length) u
  have ht : u.drawHead o = (u.drawUp s.cur.crew 0 (o.allocs - ((u.crew s.cur.crew).rob.headD {}).banks.length)).notePool
      ((u.drawUp s.cur.crew 0 (o.allocs - ((u.crew s.cur.crew).rob.headD {}).banks.length)).crew s.cur.crew).lastCore := by
    unfold State.drawHead; rw [hcur]
  generalize hv : u.drawUp s.cur.crew 0 (o.allocs - ((u.crew s.cur.crew).rob.headD {}).banks.length) = v at *
  have hvcrew : v.crew s.cur.crew = { u.crew s.cur.crew with rob := (v.crew s.cur.crew).rob } := by rw [d3]; rfl
  have hucrew := w.crew
  rw [hc] at hucrew
  have hlast : (v.crew s.cur.crew).lastCore = s.curCore := by rw [hvcrew, hucrew]; rfl
  have hvcore : (v.crew s.cur.crew).core = some s.curCore := by rw [hvcrew, hucrew]; exact hcore
  rw [hlast] at ht
  obtain ⟨n1, n2⟩ := State.notePool_core v (State.crewsOn_ne_nil hvcore)
  have n3 := State.notePool_spec v s.curCore
  have htc : ∀ k, (u.drawHead o).crew k = v.crew k := fun k => by rw [ht, n3]; rfl
  have htcur : (u.drawHead o).cur = s.cur := by rw [ht, n3]; show v.cur = _; rw [d1]; exact hcur
  have hcc : (u.drawHead o).curCrew = v.crew s.cur.crew := by unfold State.curCrew; rw [htcur, htc]
  have hvc : ∀ n, v.core n = u.core n := fun n => by rw [d1]; rfl
  have hrobv : (v.crew s.cur.crew).rob = (u.crew s.cur.crew).rob.modify 0 fun e => { e with banks := e.banks ++ more } := by rw [d3]; rfl
  rw [hc] at hrob
  refine ⟨?_, ?_, ?_, ?_, ?_, ?_, ?_⟩
  · by_cases he : s.cur.entry = true
    · rw [if_pos he] at hrob
      cases hr : s.curCrew.rob with
      | nil =>
        rw [hr] at hrob
        refine ⟨[], fun _ => rfl, Nat.zero_le _, ?_⟩
        rw [hcc, hrobv, hrob, if_pos he]; rfl
      | cons e es =>
        rw [hr] at hrob
        have hd : s.drawn = e.banks := by
          unfold State.drawn
          rw [if_pos he]
          show (match s.curCrew.rob with | [] => [] | e :: _ => e.banks) = _
          rw [hr]
        refine ⟨more, fun h => absurd rfl h, ?_, ?_⟩
        · rw [hrob] at hmore
          rw [hd]
          exact hmore
        · rw [hcc, hrobv, hrob, if_pos he]
          simp
    · have hr : s.curCrew.rob = [] := hhead.resolve_left he
      rw [if_neg he, hr] at hrob
      have hd : s.drawn = [] := by unfold State.drawn; rw [if_neg he]
      refine ⟨more, fun h => absurd rfl h, ?_, ?_⟩
      · rw [hrob] at hmore
        rw [hd]
        exact hmore
      · rw [hcc, hrobv, hrob, if_neg he, hr]
        rfl
  · intro l hl
    rw [← w.threads l hl]
    unfold State.thrAt
    rw [hcc, hvcrew, hc]
    rfl
  · rw [hcc, hvcrew, hucrew]
  · intro k hk
    rw [htc, d2 k hk]
    exact w.crews k hk
  · intro n hn
    rw [ht, n2 n hn, hvc]
    exact w.cores n hn
  · rw [ht, n1, hvc, w.core]
  · rw [ht, n3]
    show ({ v with cores := _ } : State) = _
    rw [d1, w.rest]

/-- Everything that retirement does, when a thread of the crew goes on living (R47 to R52, R60, R63): commit leaves what Retires says. -/
theorem State.commit_retires (s b b1 : State) (o : Operands) (eff : Nat → Eff) (hcur : b.cur = s.cur)
    (hb1 : b1 = { b with cores := b1.cores }) (hb1core : ∀ n, n ≠ s.curCore → b1.core n = b.core n)
    (hb1self : ∃ bs, b1.core s.curCore = { b.core s.curCore with clash := bs })
    (hcyc : b.cycleOf s.cur.crew = s.cycleOf s.cur.crew) (hcore : (b.crew s.cur.crew).core = some s.curCore)
    (hlast : (b.crew s.cur.crew).lastCore = s.curCore) (hgone : (b.crew s.cur.crew).gone = false)
    (hlaunch : (b.crew s.cur.crew).launch = s.curCrew.launch)
    (hlive : ∃ l, l < 32 ∧ (if s.inGroup l then
      threadAfter s ((b.crew s.cur.crew).thr l) (if s.inG l then eff l else {}) (s.readsDead o l)
      else (b.crew s.cur.crew).thr l).isLive = true)
    (hw : ∀ l, s.inG l = true → ∀ x ∈ (eff l).w, x.slot = none ∨ x.pend = true)
    (hrel : ∀ l r, r ∈ o.dst → r ∉ o.releasedAt s.cur.lu l)
    (hready : ∀ l, s.inG l = true → (eff l).trap.isSome = true → ((b.crew s.cur.crew).thr l).state ≠ .future) :
    Retires s b (b1.commit o s.active eff (maskOf (s.readsDead o)) s.cur.fresh) o eff := by
  obtain ⟨bs, hb1self⟩ := hb1self
  have hb1crew : ∀ n, b1.crew n = b.crew n := fun n => by rw [hb1]; rfl
  have hb1launch : ∀ n, b1.launch n = b.launch n := fun n => by rw [hb1]; rfl
  have hb1cur : b1.cur = s.cur := by rw [hb1]; exact hcur
  have hb1cyc : b1.cycleOf s.cur.crew = s.cycleOf s.cur.crew := by
    rw [← hcyc]
    unfold State.cycleOf
    rw [hb1crew, hcore]
    simp only [Option.getD_some]
    rw [hb1self]
  rw [State.commit_eq, hb1cur]
  dsimp only
  rw [hb1cyc]
  obtain ⟨w1, w2, w3, w4⟩ := State.writeRegs_spec s.cur.crew (writeMask s.active eff) (fun j l => (eff l).w.getD j {}) o.dst 0 b1.drawn
    (b1.setCrew s.cur.crew { b1.crew s.cur.crew with rob := (b1.crew s.cur.crew).behind s.cur })
  generalize (b1.setCrew s.cur.crew { b1.crew s.cur.crew with rob := (b1.crew s.cur.crew).behind s.cur }).writeRegs s.cur.crew
    (writeMask s.active eff) (fun j l => (eff l).w.getD j {}) o.dst 0 b1.drawn = s1 at *
  rw [State.crew_setCrew] at w3 w4
  have hb0lane : ∀ r l, ({ b1.crew s.cur.crew with rob := (b1.crew s.cur.crew).behind s.cur } : Crew).lane r l = (b1.crew s.cur.crew).lane r l :=
    fun _ _ => rfl
  obtain ⟨x1, x2⟩ := retireThreads_spec s.cur (s.cycleOf s.cur.crew) s.active eff (maskOf (s.readsDead o)) s.cur.fresh (s1.crew s.cur.crew)
  generalize retireThreads s.cur (s.cycleOf s.cur.crew) s.active eff (maskOf (s.readsDead o)) s.cur.fresh (s1.crew s.cur.crew) = c2 at *
  obtain ⟨y1, y2, y3⟩ := retireReads_spec s.cur (s.cycleOf s.cur.crew) o (s.active &&& ~~~ trapMask s.active eff) c2
  generalize retireReads s.cur (s.cycleOf s.cur.crew) o (s.active &&& ~~~ trapMask s.active eff) c2 = c4 at *
  obtain ⟨k1, k2, k3⟩ := retireCounts_spec s.cur (s.cycleOf s.cur.crew) o s.active eff c4
  generalize retireCounts s.cur (s.cycleOf s.cur.crew) o s.active eff c4 = c5 at *
  have hc5map : c5.map = c4.map := by rw [k1]
  have hc5core : c5.core = c4.core := by rw [k1]
  have hc5last : c5.lastCore = c4.lastCore := by rw [k1]
  have hc5gone : c5.gone = c4.gone := by rw [k1]
  have hc5num : c5.num = c4.num := by rw [k1]
  have hc5launch : c5.launch = c4.launch := by rw [k1]
  -- what the crew keeps
  have hk1 : s1.crew s.cur.crew = { b.crew s.cur.crew with
      rob := (b.crew s.cur.crew).behind s.cur, map := (s1.crew s.cur.crew).map } := by rw [w3, hb1crew]
  have hrob4 : c4.rob = (b.crew s.cur.crew).behind s.cur := by rw [y1, x1, hk1]
  have hcore4 : c4.core = (b.crew s.cur.crew).core := by rw [y1, x1, hk1]
  have hlast4 : c4.lastCore = (b.crew s.cur.crew).lastCore := by rw [y1, x1, hk1]
  have hgone4 : c4.gone = (b.crew s.cur.crew).gone := by rw [y1, x1, hk1]
  have hnum4 : c4.num = (b.crew s.cur.crew).num := by rw [y1, x1, hk1]
  have hlaunch4 : c4.launch = (b.crew s.cur.crew).launch := by rw [y1, x1, hk1]
  have hthr4 : ∀ l, c4.thr l = c2.thr l := fun l => by rw [y1]; rfl
  have hthr1 : ∀ l, (s1.crew s.cur.crew).thr l = (b.crew s.cur.crew).thr l := fun l => by rw [hk1]; rfl
  have hmap2 : c2.map = (s1.crew s.cur.crew).map := by rw [x1]
  obtain ⟨t1, t2, t3, t4, t5⟩ := State.takeTraps_spec s.cur.crew s.cur.pc (seqPc s.cur.pc s.cur.wide)
    (fun l => if s.active.getLsbD l then (eff l).trap else none) laneList List.nodup_range
    (fun l hl => (mem_laneList l).1 hl) (s1.setCrew s.cur.crew c5)
  generalize (s1.setCrew s.cur.crew c5).takeTraps s.cur.crew s.cur.pc (seqPc s.cur.pc s.cur.wide)
    (fun l => if s.active.getLsbD l then (eff l).trap else none) laneList = s3 at *
  rw [State.crew_setCrew] at t3 t4 t5
  -- the threads of the crew after the instruction
  have hpre : ∀ l, l < 32 → (s.inG l = true → (eff l).trap = none) → c4.thr l = if s.inGroup l then
      threadAfter s ((b.crew s.cur.crew).thr l) (if s.inG l then eff l else {}) (s.readsDead o l)
      else (b.crew s.cur.crew).thr l := by
    intro l hl htr
    rw [hthr4, x2 l hl, hthr1]
    have hGl : s.active.getLsbD l = s.inG l := rfl
    have hMl : s.cur.mask.getLsbD l = s.inGroup l := rfl
    rw [hGl, hMl]
    have hone : ∀ e : Eff, e.trap = none →
        retireThread ((b.crew s.cur.crew).thr l) e ((maskOf (s.readsDead o)).getLsbD l) s.cur.fresh (seqPc s.cur.pc s.cur.wide) (s.cycleOf s.cur.crew) =
          threadAfter s ((b.crew s.cur.crew).thr l) e (s.readsDead o l) := by
      intro e he
      simp only [getLsbD_maskOf, hl, decide_true, Bool.true_and]
      unfold retireThread threadAfter
      rw [he]
      dsimp only [State.nextPc]
      cases e.cc with
      | none => rfl
      | some p => rfl
    by_cases hG : s.inG l = true
    · have hM := State.inG_inGroup hG
      simp only [hG, hM, if_true, Bool.true_and, htr hG, Option.isSome_none, Bool.false_eq_true, if_false]
      exact hone _ (htr hG)
    · have hG' : s.inG l = false := by simpa using hG
      simp only [hG', Bool.false_and, Bool.false_eq_true, if_false]
      by_cases hM : s.inGroup l = true
      · simp only [hM, if_true]
        exact hone _ rfl
      · have hM' : s.inGroup l = false := by simpa using hM
        simp only [hM', Bool.false_eq_true, if_false]
  have htraps : trapMask s.active eff ≠ 0 ↔ s.traps1 eff = true := by
    unfold State.traps1
    rw [List.any_eq_true]
    constructor
    · intro h
      by_contra hno
      apply h
      apply maskOf_eq_zero
      intro l hl
      by_contra hx
      exact hno ⟨l, (mem_laneList l).2 hl, Bool.eq_true_of_not_eq_false hx⟩
    · rintro ⟨l, hl, h⟩ h0
      have : (trapMask s.active eff).getLsbD l = true := by
        unfold trapMask
        rw [getLsbD_maskOf]
        simp only [(mem_laneList l).1 hl, decide_true, Bool.true_and]
        exact h
      rw [h0] at this
      simp at this
  have hthr : ∀ l, l < 32 → (s3.crew s.cur.crew).thr l =
      let x := if s.inGroup l then
        threadAfter s ((b.crew s.cur.crew).thr l) (if s.inG l then eff l else {}) (s.readsDead o l)
        else (b.crew s.cur.crew).thr l
      if s.resumes b eff l = true ∧ x.state = .future then x.wake (s.cycleOf s.cur.crew) else x := by
    intro l hl
    rw [t4 l hl]
    simp only [mem_laneList, hl, if_true]
    have hGl : s.active.getLsbD l = s.inG l := rfl
    have hMl : s.cur.mask.getLsbD l = s.inGroup l := rfl
    have hcond : (trapMask s.active eff ≠ 0 ∧ (c4.rob.any fun e => e.issue.mask.getLsbD l) = true) ↔ s.resumes b eff l = true := by
      unfold State.resumes
      rw [Bool.and_eq_true, htraps, hrob4]
    have hk3 : c5.thr l = if s.resumes b eff l = true ∧ (c4.thr l).state = .future then (c4.thr l).wake (s.cycleOf s.cur.crew) else c4.thr l := by
      rw [k3 l hl]
      refine if_congr ?_ rfl rfl
      rw [← hcond, and_assoc]
    rw [hGl, hk3]
    by_cases htr : s.inG l = true ∧ (eff l).trap.isSome = true
    · obtain ⟨hG, hs⟩ := htr
      have hM := State.inG_inGroup hG
      obtain ⟨⟨cause, va⟩, hp⟩ := Option.isSome_iff_exists.1 hs
      have hnf : (c4.thr l).state ≠ .future := by
        rw [hthr4, x2 l hl, hthr1, hGl, hG, hp]
        have := hready l hG hs
        simp only [Option.isSome_some, Bool.and_self, if_true]
        split <;> exact this
      have hC : (if s.resumes b eff l = true ∧ (c4.thr l).state = .future then (c4.thr l).wake (s.cycleOf s.cur.crew) else c4.thr l) = c4.thr l :=
        if_neg fun h => hnf h.2
      have hta : (threadAfter s ((b.crew s.cur.crew).thr l) (eff l) (s.readsDead o l)).state ≠ .future := by
        unfold threadAfter; rw [hp]; exact ThreadState.noConfusion
      have hT : (if s.resumes b eff l = true ∧ (threadAfter s ((b.crew s.cur.crew).thr l) (eff l) (s.readsDead o l)).state = .future
          then (threadAfter s ((b.crew s.cur.crew).thr l) (eff l) (s.readsDead o l)).wake (s.cycleOf s.cur.crew)
          else threadAfter s ((b.crew s.cur.crew).thr l) (eff l) (s.readsDead o l)) =
          threadAfter s ((b.crew s.cur.crew).thr l) (eff l) (s.readsDead o l) := if_neg fun h => hta h.2
      rw [hC]
      simp only [hG, hM, if_true]
      rw [hT, hp, hthr4, x2 l hl, hthr1, hGl, hG, hp]
      simp only [Option.isSome_some, Bool.and_self, if_true, getLsbD_maskOf, hl, decide_true, Bool.true_and]
      unfold threadAfter
      rw [hp]
      dsimp only
      split <;> rfl
    · have hno : s.inG l = true → (eff l).trap = none := by
        intro hG
        by_contra h
        exact htr ⟨hG, Option.isSome_iff_ne_none.2 h⟩
      have hnone : (if s.inG l = true then (eff l).trap else none) = none := by
        by_cases hG : s.inG l = true
        · rw [if_pos hG]; exact hno hG
        · rw [if_neg hG]
      rw [hnone]
      dsimp only
      rw [hpre l hl hno]
  -- the cycle is accounted for
  have hn : c5.lastCore = s.curCore := by rw [hc5last, hlast4, hlast]
  rw [hn]
  obtain ⟨a1, a2, a3⟩ : let t := if s.cur.entry = true then s3 else s3.account s.curCore s.cur.crew s.cur.pays
      t = { s3 with cores := t.cores } ∧ (∀ k, k ≠ s.curCore → t.core k = s3.core k) ∧
      t.core s.curCore = { s3.core s.curCore with counted := (t.core s.curCore).counted, portUse := (t.core s.curCore).portUse } := by
    intro t
    by_cases he : s.cur.entry = true
    · rw [show t = s3 from if_pos he]; exact ⟨rfl, fun _ _ => rfl, rfl⟩
    · rw [show t = s3.account s.curCore s.cur.crew s.cur.pays from if_neg he]; exact State.account_spec _ _ _ _
  dsimp only at a1 a2 a3
  generalize (if s.cur.entry = true then s3 else s3.account s.curCore s.cur.crew s.cur.pays) = s4 at *
  have hcr : ∀ k, s4.crew k = s3.crew k := fun k => by rw [a1]; rfl
  have hlive3 : (s4.crew s.cur.crew).allExited = false := by
    obtain ⟨l, hl, h⟩ := hlive
    have h2 : ((s4.crew s.cur.crew).thr l).isLive = true := by
      rw [hcr, hthr l hl]
      generalize (if s.inGroup l = true then threadAfter s ((b.crew s.cur.crew).thr l) (if s.inG l = true then eff l else {}) (s.readsDead o l)
        else (b.crew s.cur.crew).thr l) = x at h ⊢
      dsimp only
      split
      · rfl
      · exact h
    unfold Crew.allExited
    rw [List.all_eq_false]
    exact ⟨l, (mem_laneList l).2 hl, by simp [h2]⟩
  have hleave : (s4.settleCore s.curCore).leaveIfDone s.cur.crew = s4.settleCore s.curCore := by
    unfold State.leaveIfDone
    rw [State.crew_settleCore, hlive3]
    rfl
  rw [hleave]
  -- crews and cores
  have hc3crew : ∀ k, k ≠ s.cur.crew → s3.crew k = b.crew k := by
    intro k hk
    rw [t2 k hk, State.crew_setCrew_ne _ _ hk, w2 k hk, State.crew_setCrew_ne _ _ hk, hb1crew]
  have hc3cores : s3.cores = b1.cores := by rw [t1]; show s1.cores = _; rw [w1]; rfl
  have hc3core : ∀ n, s3.core n = b1.core n := fun n => by unfold State.core; rw [hc3cores]
  rw [hc3core] at a3
  have hself : s4.core s.curCore = { b.core s.curCore with
      clash := (s4.core s.curCore).clash, counted := (s4.core s.curCore).counted, portUse := (s4.core s.curCore).portUse } := by
    rw [a3, hb1self]
  have hc3cmds : s3.cmds = b.cmds := by rw [t1]; show s1.cmds = _; rw [w1]; show b1.cmds = _; rw [hb1]
  have hcore3 : (s3.crew s.cur.crew).core = some s.curCore := by
    rw [t3]
    show c5.core = _
    rw [hc5core, hcore4, hcore]
  have hcrews : s4.crews = s3.crews := by rw [a1]
  have hmem : ∃ e ∈ s3.crews, e.2 = s3.crew s.cur.crew := by
    rcases tget_mem ({} : Crew) s3.crews s.cur.crew with h | h
    · exact ⟨_, h, rfl⟩
    · have h' : s3.crew s.cur.crew = {} := h
      rw [h'] at hcore3
      cases hcore3
  have hon : s4.crewsOn s.curCore ≠ [] := by
    obtain ⟨e, he, hk⟩ := hmem
    intro h
    have : e ∈ s4.crewsOn s.curCore := by
      unfold State.crewsOn
      rw [hcrews, List.mem_filter]
      refine ⟨he, ?_⟩
      rw [hk, hcore3]
      simp
    rw [h] at this
    cases this
  obtain ⟨z1, z2, z5⟩ := State.settleCore_self s4 s.curCore hon
  have hmap3 : (s3.crew s.cur.crew).map = c4.map := by rw [t3]; exact hc5map
  have hgood : ∀ l, (s.active &&& ~~~ trapMask s.active eff).getLsbD l = (s.inG l && (eff l).trap.isNone) := by
    intro l
    have hGl : s.active.getLsbD l = s.inG l := rfl
    simp only [BitVec.getLsbD_and, BitVec.getLsbD_not, trapMask, getLsbD_maskOf, hGl]
    by_cases h : s.inG l = true
    · have := mask_lt (m := s.active) (hGl ▸ h)
      cases (eff l).trap <;> simp [h, this]
    · have h' : s.inG l = false := by simpa using h
      simp [h']
  -- the lanes that the writes leave
  have hwl : ∀ r l, r < 64 → l < 32 → s.inG l = true → (eff l).trap = none → r ≠ 0 →
      (s1.crew s.cur.crew).lane r l = (o.lane (eff l) r).getD ((b.crew s.cur.crew).lane r l) := by
    intro r l hr hl hG htr h0
    rw [w4 r l hr hl, hb0lane, hb1crew]
    rw [writtenLane_zip (writeMask s.active eff) (fun j l => (eff l).w.getD j {}) r l h0 (eff l).w 0]
    · unfold Operands.lane; rw [if_neg h0]
    · intro j
      have hGl : s.active.getLsbD l = true := hG
      simp only [writeMask, getLsbD_maskOf, hl, hGl, htr, Option.isNone_none, decide_true, Bool.true_and, Nat.zero_add]
    · intro j _; simp
  have hwn : ∀ r l, r < 64 → l < 32 → (s.inG l = true → (eff l).trap = none → o.lane (eff l) r = none) →
      (s1.crew s.cur.crew).lane r l = (b.crew s.cur.crew).lane r l := by
    intro r l hr hl h
    by_cases h0 : r = 0
    · subst h0; rfl
    · by_cases hG : s.inG l = true ∧ (eff l).trap = none
      · rw [hwl r l hr hl hG.1 hG.2 h0, h hG.1 hG.2]; rfl
      · rw [w4 r l hr hl, writtenLane_none, hb0lane, hb1crew]
        right
        intro j
        have hGl : s.active.getLsbD l = s.inG l := rfl
        simp only [writeMask, getLsbD_maskOf, hGl]
        by_cases hG' : s.inG l = true
        · cases htr : (eff l).trap with
          | none => exact absurd ⟨hG', htr⟩ hG
          | some p => simp
        · have : s.inG l = false := by simpa using hG'
          simp [this]
  have hmem_lane : ∀ (e : Eff) r x, o.lane e r = some x → r ∈ o.dst ∧ x ∈ e.w ∧ r ≠ 0 := by
    intro e r x h
    unfold Operands.lane at h
    split at h
    · cases h
    · rename_i h0
      rw [Option.map_eq_some_iff] at h
      obtain ⟨p, hp, rfl⟩ := h
      have h1 := List.find?_some hp
      have h2 := List.mem_of_find?_eq_some hp
      rw [List.mem_reverse] at h2
      have h3 := List.of_mem_zip h2
      simp only [beq_iff_eq] at h1
      rw [h1] at h3
      exact ⟨h3.1, h3.2, h0⟩
  refine ⟨?_, ?_, ?_, ?_, ?_, ?_, ?_, ?_, ?_, ?_, ?_, ?_⟩
  · -- written
    intro r l x hr hl hG htr hx
    obtain ⟨hd, hxw, h0⟩ := hmem_lane _ _ _ hx
    have e1 : c2.lane r l = x := by
      rw [Crew.lane_congr hmap2, hwl r l hr hl hG htr h0, hx]; rfl
    rw [State.crew_settleCore, hcr, Crew.lane_congr hmap3, y3 r l hr hl, e1]
    · intro _
      rw [List.contains_append, Bool.or_eq_false_iff]
      constructor
      · have hn : r ∉ o.released s.cur.lu := by
          unfold Operands.released
          simp only [List.mem_filter]
          rintro ⟨-, h⟩
          simp [hd] at h
        simpa using hn
      · simpa using hrel l r hd
    · rw [e1]; exact hw l hG x hxw
  · -- others
    intro r l hr hl h
    rw [State.crew_settleCore, hcr, Crew.rd_congr hmap3, y2 r l hr hl, hgood, Crew.rd_congr hmap2]
    have e : (s1.crew s.cur.crew).rd r l = (b.crew s.cur.crew).rd r l := by
      unfold Crew.rd; rw [hwn r l hr hl h]
    rw [e]
    cases htr : (eff l).trap with
    | none => simp [Operands.ends, htr]
    | some p => simp [Operands.ends, htr]
  · -- threads
    intro l hl
    rw [State.crew_settleCore, hcr]
    exact hthr l hl
  · -- rob
    rw [State.crew_settleCore, hcr, t3]
    show c5.rob = _
    rw [k2, hrob4]
    by_cases h : trapMask s.active eff = 0
    · rw [if_pos h, if_neg (fun h2 => htraps.2 h2 h)]
    · rw [if_neg h, if_pos (htraps.1 h)]
  · -- crews
    intro k hk
    rw [State.crew_settleCore, hcr]
    exact hc3crew k hk
  · -- cores
    intro n hne
    rw [State.settleCore_ne _ hne, a2 n hne, hc3core, hb1core n hne]
  · -- crew
    rw [State.crew_settleCore, hcr, t3, k1, y1, x1, hk1]
  · -- core
    rw [z1, hself]
  · -- slots
    intro k hk64
    have h := z2 k hk64
    rw [hself] at h
    exact h
  · -- window
    · unfold Core.window
      rw [z5]
      rw [find_filter_of]
      · rw [hself]
      · intro w hwin
        obtain ⟨e, he, hk⟩ := hmem
        rw [Bool.or_eq_true]
        left
        rw [List.any_eq_true]
        refine ⟨e, hcrews ▸ he, ?_⟩
        have hlaunch3 : (s3.crew s.cur.crew).launch = s.curCrew.launch := by
          rw [t3]
          show c5.launch = _
          rw [hc5launch, hlaunch4, hlaunch]
        have hgone3 : (s3.crew s.cur.crew).gone = false := by
          rw [t3]
          show c5.gone = _
          rw [hc5gone, hgone4, hgone]
        unfold Crew.holdsWindow
        rw [hk, hlaunch3, hgone3, hcore3]
        simp only [beq_iff_eq] at hwin
        simp [hwin]
  · -- traps
    rw [State.settleCore_spec]
    show s4.traps = _
    rw [show s4.traps = s3.traps by rw [a1], t5]
    have ht1 : (s1.setCrew s.cur.crew c5).traps = b.traps := by show s1.traps = _; rw [w1]; show b1.traps = _; rw [hb1]
    have hd1 : (s1.setCrew s.cur.crew c5).dtime = b.dtime := by show s1.dtime = _; rw [w1]; show b1.dtime = _; rw [hb1]
    have hl1 : ∀ n, (s1.setCrew s.cur.crew c5).launch n = b.launch n := by
      intro n
      show s1.launch n = _
      rw [w1]
      show b1.launch n = _
      exact hb1launch n
    rw [ht1, hd1]
    congr 1
    apply List.filterMap_congr
    intro l hl
    have hl32 := (mem_laneList l).1 hl
    unfold trapOf
    have hGl : s.active.getLsbD l = s.inG l := rfl
    rw [hGl]
    by_cases hG : s.inG l = true
    · simp only [hG, if_true]
      cases htr : (eff l).trap with
      | none => rfl
      | some p =>
        obtain ⟨cause, va⟩ := p
        have htid : (c5.thr l).tid = ((b.crew s.cur.crew).thr l).tid := by
          have hk : (c5.thr l).tid = (c4.thr l).tid := by
            rw [k3 l hl32]
            split <;> rfl
          rw [hk, hthr4, x2 l hl32, hGl, hG, htr]
          simp only [Option.isSome_some, Bool.and_self, if_true]
          rw [← hthr1]
          split <;> rfl
        have hL : c5.launch = (b.crew s.cur.crew).launch := by rw [hc5launch, hlaunch4]
        simp only [Option.map_some, Option.some.injEq]
        have hnm : (s1.setCrew s.cur.crew c5).nameOf = b.nameOf := by
          funext x y; unfold State.nameOf; rw [hl1]
        rw [htid, hl1, hL, hc5num, hnum4, hc5last, hlast4, hnm]
        rfl
    · have hG' : s.inG l = false := by simpa using hG
      simp only [hG', Bool.false_eq_true, if_false, Option.map_none]
  · -- rest
    rw [State.settleCore_spec]
    rw [a1, t1]
    show ({ s1.setCrew s.cur.crew c5 with crews := s3.crews, traps := s3.traps, cores := _ } : State) = _
    rw [w1, hb1]
    rfl

/-- Whether a lane traps is a matter of the effects in the lanes of G. -/
theorem State.traps1_congr {s : State} {eff eff' : Nat → Eff} (he : ∀ l, s.inG l = true → eff l = eff' l) : s.traps1 eff = s.traps1 eff' := by
  unfold State.traps1
  congr 1
  funext l
  by_cases hG : s.inG l = true
  · rw [he l hG]
  · have hG' : s.inG l = false := by simpa using hG
    simp [hG']

/-- Retires speaks of the effects in the lanes of G only. -/
theorem Retires.congr {s b t : State} {o : Operands} {eff eff' : Nat → Eff} (h : Retires s b t o eff)
    (he : ∀ l, s.inG l = true → eff l = eff' l) : Retires s b t o eff' where
  written r l x hr hl hG htr hx := h.written r l x hr hl hG (he l hG ▸ htr) (by rw [he l hG]; exact hx)
  others r l hr hl hx := by
    by_cases hG : s.inG l = true
    · have e := he l hG
      rw [h.others r l hr hl (fun _ htr => by rw [e] at htr ⊢; exact hx hG htr), e]
    · have hG' : s.inG l = false := by simpa using hG
      rw [h.others r l hr hl (fun h1 => absurd h1 hG)]
      simp [hG']
  threads l hl := by
    rw [h.threads l hl, show s.resumes b eff l = s.resumes b eff' l by unfold State.resumes; rw [State.traps1_congr he]]
    by_cases hG : s.inG l = true
    · rw [he l hG]
    · have hG' : s.inG l = false := by simpa using hG
      simp [hG']
  rob := by rw [h.rob, State.traps1_congr he]
  crews := h.crews
  cores := h.cores
  crew := h.crew
  core := h.core
  slots := h.slots
  window := h.window
  traps := by
    rw [h.traps]
    congr 1
    apply List.filterMap_congr
    intro l _
    unfold trapOf
    by_cases hG : s.inG l = true
    · rw [he l hG]
    · have hG' : s.inG l = false := by simpa using hG
      simp [hG']
  rest := h.rest

theorem State.standing_spec {s : State} (h : s.standing = true) :
    s.curCrew.core = some s.curCore ∧ s.curCrew.gone = false ∧ (∀ l, s.inGroup l = true → (s.thrAt l).state = .ready) ∧
    ∃ l, l < 32 ∧ s.inGroup l = true ∧ (s.thrAt l).state = .ready := by
  unfold State.standing at h
  simp only [Bool.and_eq_true, beq_iff_eq, Bool.not_eq_true', bne_iff_ne, ne_eq, List.all_eq_true, mem_laneList, Bool.or_eq_true] at h
  obtain ⟨⟨⟨h1, h2⟩, h3⟩, h4⟩ := h
  refine ⟨h1, h2, fun l hl => (h4 l (mask_lt (m := s.cur.mask) hl)).resolve_left (by simp [hl]), ?_⟩
  by_contra hno
  apply h3
  apply BitVec.eq_of_getLsbD_eq
  intro l hl
  have hf : s.inGroup l = false := by
    by_contra hx
    have hx : s.inGroup l = true := by simpa using hx
    apply hno
    refine ⟨l, hl, hx, ?_⟩
    rcases h4 l hl with h5 | h5
    · rw [hx] at h5; cases h5
    · exact h5
  have : s.cur.mask.getLsbD l = false := hf
  rw [this]
  simp

/-- What poised says: the issue group stands on its core and its instruction is its crew's oldest, no source lane is pending, nothing that it names is
spilled, and its sources can be read. -/
theorem State.poised_spec {s : State} {o : Operands} (hp : s.poised o = true) :
    s.standing = true ∧ s.atHead o = true ∧ s.curCrew.pendingIn o s.active = 0 ∧
    (s.active ≠ 0 → s.curCrew.spilledOne (o.srcs ++ o.lanes.flatten ++ o.dst) = none) ∧
    ∀ l, s.inG l = true → s.curCrew.readTrap (s.curLaunch.control.getLsbD 7) (o.srcsAt l) (o.laneOf l) = none := by
  unfold State.poised State.unblocked at hp
  simp only [Bool.and_eq_true, Bool.not_eq_true', List.all_eq_true, mem_laneList, Bool.or_eq_true] at hp
  obtain ⟨⟨⟨⟨hst, hhead⟩, hpend⟩, hspill⟩, hread⟩ := hp
  have hG : ∀ l, s.active.getLsbD l = s.inG l := fun _ => rfl
  refine ⟨hst, hhead, ?_, fun ha => ?_, fun l hl => ?_⟩
  · unfold Crew.pendingIn
    rcases hpend with h | h
    · rw [h]; rfl
    · split
      · rfl
      · apply maskOf_eq_zero
        intro l hl
        rw [hG]
        rcases h l hl with h | h
        · rw [h]; rfl
        · rw [h, Bool.and_false]
  · unfold Crew.spilledOne
    rw [List.find?_eq_none]
    intro r hr
    rcases hspill with h | h
    · rw [beq_iff_eq] at h; exact absurd h ha
    · have := h r hr
      cases hq : s.curCrew.reg r with
      | none => simp
      | some q => rw [hq] at this; simpa using this
  · rcases hread l (mask_lt (m := s.active) hl) with h | h
    · rw [hl] at h; cases h
    · unfold State.readable at h; simpa using h

/-- An instruction at the head runs its body through executeHead. -/
theorem State.issue_atHead {s : State} {o : Operands} (h : s.atHead o = true) (body : State → Mask → Body) :
    s.issue o body = s.executeHead o body ∧ (s.cur.entry = true ∨ s.curCrew.rob = []) ∨ s.curCrew.core ≠ some s.curCore := by
  by_cases hcore : s.curCrew.core = some s.curCore
  · left
    unfold State.atHead at h
    rw [Bool.and_eq_true, Bool.and_eq_true, Option.isNone_iff_eq_none, Option.isNone_iff_eq_none, Bool.or_eq_true, Bool.and_eq_true,
      Bool.not_eq_true', List.isEmpty_iff] at h
    obtain ⟨⟨h1, h2⟩, h3⟩ := h
    refine ⟨?_, h3.imp id And.right⟩
    have e1 : s.crew s.cur.crew = s.curCrew := rfl
    have e2 : s.curCrew.core.getD s.curCrew.lastCore = s.curCrew.lastCore := by rw [hcore]; rfl
    unfold State.issue
    dsimp only
    rw [h1, h2, e1, e2]
    dsimp only
    rcases h3 with h3 | ⟨h3, h4⟩
    · simp [h3]
    · rw [h3, h4]; simp
  · right; exact hcore

/-- An instruction that can execute at once runs its body once, in the lanes of G, and retires with what the body says (R47 to R52,
R60, R63). -/
theorem State.issue_retires (s b : State) (o : Operands) (body : State → Mask → Body) (es : List Eff) (eff : Nat → Eff)
    (hp : s.poised o = true) (hr : s.room o = true) (hbody : s.active ≠ 0 → body s s.active = .done b es)
    (hzero : s.active = 0 → b = s) (hes : ∀ l, s.inG l = true → es.getD l {} = eff l)
    (hmay : s.mayAllocate s.cur.crew (o.allocs - s.drawn.length) = true → b.mayAllocate s.cur.crew (o.allocs - s.drawn.length) = true)
    (hcur : b.cur = s.cur)
    (hcyc : b.cycleOf s.cur.crew = s.cycleOf s.cur.crew) (hcore : (b.crew s.cur.crew).core = some s.curCore)
    (hlast : (b.crew s.cur.crew).lastCore = s.curCore) (hgone : (b.crew s.cur.crew).gone = false)
    (hlaunch : (b.crew s.cur.crew).launch = s.curCrew.launch)
    (hlive : ∃ l, l < 32 ∧ (if s.inGroup l then
      threadAfter s ((b.crew s.cur.crew).thr l) (if s.inG l then eff l else {}) (s.readsDead o l)
      else (b.crew s.cur.crew).thr l).isLive = true)
    (hw : ∀ l, s.inG l = true → ∀ x ∈ (eff l).w, x.slot = none ∨ x.pend = true)
    (hrel : ∀ l r, r ∈ o.dst → r ∉ o.releasedAt s.cur.lu l)
    (hready : ∀ l, s.inG l = true → (eff l).trap.isSome = true → ((b.crew s.cur.crew).thr l).state ≠ .future) :
    Retires s b (s.issue o body) o eff := by
  obtain ⟨hst, hhead, hp0, hspill, hpre⟩ := State.poised_spec hp
  obtain ⟨hc1, hc2, -⟩ := State.standing_spec hst
  obtain ⟨hiss, -⟩ := (State.issue_atHead hhead body).resolve_right (fun h => h hc1)
  have hG : ∀ l, s.active.getLsbD l = s.inG l := fun _ => rfl
  have hcoreEq : s.curCrew.core.getD s.curCrew.lastCore = s.curCore := by rw [hc1]; rfl
  have hg1 : (maskOf fun l => s.active.getLsbD l &&
      (s.curCrew.readTrap (s.curLaunch.control.getLsbD 7) (o.srcsAt l) (o.laneOf l)).isNone) = s.active := by
    apply BitVec.eq_of_getLsbD_eq
    intro l hl
    rw [getLsbD_maskOf, hG]
    by_cases h : s.inG l = true
    · rw [hpre l h]; simp [h, hl]
    · have h' : s.inG l = false := by simpa using h
      simp [h']
  have hdead : (maskOf fun l => s.active.getLsbD l && o.readsIn l && s.curCrew.readsReleased (o.srcsAt l) l) = maskOf (s.readsDead o) := rfl
  -- the effect that commit sees
  let es' : List Eff := if s.active = 0 then [] else es
  let eff' : Nat → Eff := effOf (fun l => s.curCrew.readTrap (s.curLaunch.control.getLsbD 7) (o.srcsAt l) (o.laneOf l)) es'
  have heff : ∀ l, s.inG l = true → eff' l = eff l := by
    intro l h
    have ha : s.active ≠ 0 := by
      intro ha
      unfold State.inG at h
      rw [ha] at h
      simp at h
    have : es' = es := if_neg ha
    show effOf _ es' l = eff l
    unfold effOf
    dsimp only
    rw [hpre l h, this]
    exact hes l h
  have hissue : s.issue o body =
      (if s.cur.entry then b else b.takeBanks s.curCore (o.banks s.curCrew)).commit o s.active eff' (maskOf (s.readsDead o)) s.cur.fresh := by
    rw [hiss]
    unfold State.executeHead
    dsimp only
    have e1 : s.crew s.cur.crew = s.curCrew := rfl
    have e2 : (s.crew s.cur.crew).guarded s.cur = s.active := rfl
    have e3 : s.launch s.curCrew.launch = s.curLaunch := rfl
    rw [e2, e1, hcoreEq, e3, hp0]
    simp only [bne_self_eq_false, Bool.false_eq_true, if_false]
    have hsp : (if s.active = 0 then none else s.curCrew.spilledOne (o.srcs ++ o.lanes.flatten ++ o.dst)) = none := by
      split
      · rfl
      · rename_i h; exact hspill h
    rw [hsp]
    dsimp only
    rw [hg1, hdead]
    have hcond : ∀ e : Nat → Eff, ¬((maskOf (fun l => s.active.getLsbD l && (e l).trap.isNone && !(e l).w.isEmpty) != 0 &&
        !b.mayAllocate s.cur.crew (o.allocs - s.drawn.length)) = true) := by
      intro e h
      simp only [Bool.and_eq_true, bne_iff_ne, ne_eq, Bool.not_eq_true'] at h
      unfold State.room at hr
      rw [Bool.or_eq_true, beq_iff_eq] at hr
      rcases hr with hr | hr
      · apply h.1
        apply maskOf_eq_zero
        intro l _
        simp [hr]
      · rw [hmay hr] at h
        exact absurd h.2 (by simp)
    by_cases ha : s.active = 0
    · rw [if_pos ha]
      dsimp only
      have hb := hzero ha
      rw [hb] at hcond
      rw [if_neg (hcond _), hb]
      have : es' = [] := if_pos ha
      simp only [eff', this]
    · rw [if_neg ha, hbody ha]
      dsimp only
      rw [if_neg (hcond _)]
      have : es' = es := if_neg ha
      simp only [eff', this]
  rw [hissue]
  refine Retires.congr (State.commit_retires s b _ o eff' hcur ?_ ?_ ?_ hcyc hcore hlast hgone hlaunch ?_ ?_ hrel ?_) heff
  · split <;> rfl
  · intro n hn
    split
    · rfl
    · exact State.core_setCore_ne _ _ hn
  · split
    · exact ⟨_, rfl⟩
    · exact ⟨_, State.core_setCore _ _ _⟩
  · obtain ⟨l, hl, h⟩ := hlive
    refine ⟨l, hl, ?_⟩
    by_cases hGl : s.inG l = true
    · have : eff' l = eff l := heff l hGl
      rw [this]; exact h
    · have hG' : s.inG l = false := by simpa using hGl
      rw [hG'] at h ⊢; exact h
  · intro l h
    have : eff' l = eff l := heff l h
    rw [this]; exact hw l h
  · intro l h ht
    rw [heff l h] at ht
    exact hready l h ht

/-- An instruction at the head whose results cannot allocate waits, draws what it can, and has no other effect (R56). -/
theorem State.issue_waits (s b : State) (o : Operands) (body : State → Mask → Body) (es : List Eff) (eff : Nat → Eff)
    (hp : s.poised o = true) (hbody : s.active ≠ 0 → body s s.active = .done b es) (hes : ∀ l, s.inG l = true → es.getD l {} = eff l)
    (hmay : b.mayAllocate s.cur.crew (o.allocs - s.drawn.length) = false) (hw : s.writes eff) : Waits s (s.issue o body) o 0 := by
  obtain ⟨hst, hhead, hp0, hspill, hpre⟩ := State.poised_spec hp
  obtain ⟨hc1, hc2, -⟩ := State.standing_spec hst
  obtain ⟨hiss, hrob⟩ := (State.issue_atHead hhead body).resolve_right (fun h => h hc1)
  obtain ⟨l, hl, hlG, hlt, hlw⟩ := hw
  have hG : ∀ l, s.active.getLsbD l = s.inG l := fun _ => rfl
  have ha : s.active ≠ 0 := by
    intro ha
    unfold State.inG at hlG
    rw [ha] at hlG
    simp at hlG
  have hg1 : (maskOf fun l => s.active.getLsbD l &&
      (s.curCrew.readTrap (s.curLaunch.control.getLsbD 7) (o.srcsAt l) (o.laneOf l)).isNone) = s.active := by
    apply BitVec.eq_of_getLsbD_eq
    intro l hl
    rw [getLsbD_maskOf, hG]
    by_cases h : s.inG l = true
    · rw [hpre l h]; simp [h, hl]
    · have h' : s.inG l = false := by simpa using h
      simp [h']
  have e1 : s.crew s.cur.crew = s.curCrew := rfl
  have e2 : (s.crew s.cur.crew).guarded s.cur = s.active := rfl
  have e3 : s.launch s.curCrew.launch = s.curLaunch := rfl
  have hstall : s.issue o body = (s.stall o 0).drawHead o := by
    rw [hiss]
    unfold State.executeHead
    dsimp only
    rw [e2, e1, e3, hp0]
    simp only [bne_self_eq_false, Bool.false_eq_true, if_false]
    rw [if_neg ha, hspill ha]
    dsimp only
    rw [hg1, if_neg ha, hbody ha]
    dsimp only
    rw [if_pos]
    rw [Bool.and_eq_true, hmay]
    refine ⟨?_, rfl⟩
    rw [bne_iff_ne]
    intro h0
    have : (maskOf fun l => s.active.getLsbD l && (effOf (fun l => s.curCrew.readTrap (s.curLaunch.control.getLsbD 7) (o.srcsAt l) (o.laneOf l)) es l).trap.isNone &&
        !(effOf (fun l => s.curCrew.readTrap (s.curLaunch.control.getLsbD 7) (o.srcsAt l) (o.laneOf l)) es l).w.isEmpty).getLsbD l = true := by
      rw [getLsbD_maskOf]
      unfold effOf
      dsimp only
      rw [hpre l hlG]
      dsimp only
      rw [hes l hlG, hG, hlG, hlt]
      simp [hl, hlw]
    rw [h0] at this
    simp at this
  rw [hstall]
  exact State.stall_drawHead_waits s o hc1 hrob

/-- A body that leaves the state as it is: what the statements about computing instructions rest on. -/
theorem State.issue_pure (s : State) (o : Operands) (body : State → Mask → Body) (es : List Eff) (eff : Nat → Eff)
    (hp : s.poised o = true) (hr : s.room o = true) (hbody : s.active ≠ 0 → body s s.active = .done s es)
    (hes : ∀ l, s.inG l = true → es.getD l {} = eff l)
    (hthr : ∀ l, s.inG l = true → (eff l).thr = none ∨ ∃ u, (eff l).thr = some u ∧ u.state = (s.thrAt l).state)
    (hw : ∀ l, s.inG l = true → ∀ x ∈ (eff l).w, x.slot = none ∨ x.pend = true) (hlanes : o.lanes = []) :
    Retires s s (s.issue o body) o eff := by
  obtain ⟨hc1, hc2, hall, l, hl, hlg, hlr⟩ := State.standing_spec (State.poised_spec hp).1
  refine State.issue_retires s s o body es eff hp hr hbody (fun _ => rfl) hes id rfl rfl hc1 rfl hc2 rfl ⟨l, hl, ?_⟩ hw ?_ ?_
  · rw [if_pos hlg]
    have hbase : (s.crew s.cur.crew).thr l = s.thrAt l := rfl
    rw [hbase]
    have hplain : ∀ e : Eff, (e.thr = none ∨ ∃ u, e.thr = some u ∧ u.state = (s.thrAt l).state) →
        (threadAfter s (s.thrAt l) e (s.readsDead o l)).isLive = true := by
      intro e he
      unfold threadAfter Thread.isLive
      split
      · rfl
      · rcases he with he | ⟨u, hu, hus⟩
        · simp only [he, Option.getD_none]
          split <;> simp only [hlr] <;> rfl
        · simp only [hu, Option.getD_some]
          split <;> simp only [hus, hlr] <;> rfl
    by_cases hG : s.inG l = true
    · rw [if_pos hG]; exact hplain _ (hthr l hG)
    · rw [if_neg hG]; exact hplain _ (Or.inl rfl)
  · intro l r _
    unfold Operands.releasedAt
    rw [hlanes]
    simp
  · intro l hG _
    show (s.thrAt l).state ≠ .future
    rw [hall l (State.inG_inGroup hG)]
    exact ThreadState.noConfusion

theorem getD_perLane (f : Nat → Eff) {l : Nat} (h : l < 32) : (perLane f).getD l {} = f l := by
  unfold perLane
  rw [getD_map_laneList, if_pos h]

/-- What alu does, for effects that keep a thread's state and write plain values (R47 to R52, R60). -/
theorem State.alu_retires (s : State) (o : Operands) (f : Crew → Nat → Eff) (hp : s.poised o = true) (hr : s.room o = true)
    (hthr : ∀ l, s.inG l = true → (f s.curCrew l).thr = none ∨
      ∃ u, (f s.curCrew l).thr = some u ∧ u.state = (s.thrAt l).state)
    (hw : ∀ l, s.inG l = true → ∀ x ∈ (f s.curCrew l).w, x.slot = none ∨ x.pend = true) (hlanes : o.lanes = []) :
    Retires s s (s.alu o f) o (f s.curCrew) :=
  State.issue_pure s o _ (perLane (f s.curCrew)) _ hp hr (fun _ => rfl)
    (fun _ hl => getD_perLane _ (mask_lt (m := s.active) hl)) hthr hw hlanes

/-- What a cross-lane instruction does (R351): its effects depend on the set G. -/
theorem State.cross_retires (s : State) (o : Operands) (f : Crew → Mask → Nat → Eff) (hp : s.poised o = true) (hr : s.room o = true)
    (hthr : ∀ l, (f s.curCrew s.active l).thr = none)
    (hw : ∀ l, ∀ x ∈ (f s.curCrew s.active l).w, x.slot = none ∨ x.pend = true) (hlanes : o.lanes = []) :
    Retires s s (s.cross o f) o (f s.curCrew s.active) :=
  State.issue_pure s o _ (perLane (f s.curCrew s.active)) _ hp hr (fun _ => rfl)
    (fun _ hl => getD_perLane _ (mask_lt (m := s.active) hl)) (fun l _ => Or.inl (hthr l)) (fun l _ => hw l) hlanes

end Sys2Proof.Machine
end

