-- ==== Sys2Proof/Tests/Slice0.lean ====
section
/-! SUPPORT. The model's own tests: a refused term for each limit that WellFormed checks, one word of every encoding written out from
spec/opcode_table.json and the encoding rules, single steps whose results the specification states, and for each statement with
hypotheses a state that meets them. -/

namespace Sys2Proof.Tests

open Sys2Proof Sys2Proof.Machine

set_option Elab.async false

/-! ### Limits of operands (R46, R72, R73, R76) -/

theorem test_refuse_cc : Instr.reasons (.add 1 2 3 false 1) = [.reserved] := by decide
theorem test_refuse_shift : Instr.reasons (.shlI 1 2 32) = [.operand] := by decide
theorem test_refuse_sel : (Instr.sel 1 2 3 0 15).wf = false ∧ (Instr.sel 1 2 3 0 0).wf = false ∧ (Instr.sel 1 2 3 0 14).wf = true := by decide
theorem test_refuse_pairs : Instr.reasons (.lea 1 2 3 false 0) = [.grouping] ∧ Instr.reasons (.add64 2 4 7 false 0) = [.grouping] ∧
    Instr.reasons (.cmp64 0 1 2) = [.grouping] ∧ Instr.reasons (.movi 1 3 0) = [.grouping] ∧ (Instr.movi 1 0 0).wf = true := by decide
theorem test_refuse_rounding : Instr.reasons (.fadd 1 2 3 5) = [.operand] ∧ Instr.reasons (.fsqrt 1 2 7) = [.operand] ∧
    Instr.reasons (.h2add 1 2 3 false 6) = [.operand] ∧ Instr.reasons (.mdrain 1 2 3 false false false 5 0) = [.operand] := by decide
theorem test_refuse_dot4 : Instr.reasons (.dot4 1 2 3 2 0) = [.operand] ∧ Instr.reasons (.dot4 1 2 3 6 0) = [.operand] := by decide
theorem test_refuse_cvt : Instr.reasons (.cvt 1 2 6 0 0 false 0) = [.operand] ∧ Instr.reasons (.cvt 1 2 1 0 2 false 0) = [.operand] ∧
    Instr.reasons (.cvt 1 2 3 0 3 false 0) = [] := by decide
theorem test_refuse_lanes : Instr.reasons (.scan 1 2 false false 6) = [.operand] ∧ Instr.reasons (.scan 1 2 true false 0) = [.operand] ∧
    Instr.reasons (.topk 1 2 3 9) = [.operand] ∧ Instr.reasons (.topk 1 2 1 4) = [.operand] := by decide
theorem test_refuse_memory : Instr.reasons (.ld 1 2 0 5 0 false) = [.operand] ∧ Instr.reasons (.ld 1 2 0 0 3 false) = [.operand] ∧
    Instr.reasons (.ld 1 2 0 2 0 true) = [.operand] ∧ Instr.reasons (.ld 1 2 0 3 0 false) = [.grouping] ∧
    Instr.reasons (.st 2 4 0 4 0) = [.grouping] ∧ Instr.reasons (.st 1 3 0 0 0) = [.grouping] ∧ Instr.reasons (.ldnc 1 2 0 0 1 false) = [.operand] ∧
    Instr.reasons (.stnc 1 2 0 0 1) = [.operand] := by decide
theorem test_refuse_atom : Instr.reasons (.atom 1 2 3 11 false false) = [.operand] ∧ Instr.reasons (.atom 2 2 4 10 true false) = [.operand] ∧
    Instr.reasons (.atom 1 2 4 0 true false) = [.grouping] := by decide
theorem test_refuse_control : Instr.reasons (.jmp 3) = [.grouping] ∧ Instr.reasons (.mjoin 2048) = [.operand] ∧
    Instr.reasons (.mdrop 0) = [.operand] ∧ Instr.reasons (.mdrop 17) = [.operand] ∧ Instr.reasons (.bar 4) = [.operand] ∧
    Instr.reasons (.spawn 1 9 0 0) = [.operand] ∧ Instr.reasons (.spawn 1 0 0 0) = [.reserved] := by decide
theorem test_refuse_copy : Instr.reasons (.copy 1 2 4 3 0 0 false) = [.operand] ∧ Instr.reasons (.copy 1 2 4 2 16 0 false) = [.operand] ∧
    Instr.reasons (.copy 1 2 4 2 0 1 false) = [.reserved] ∧ Instr.reasons (.copy 1 3 4 0 0 0 false) = [.grouping] ∧
    Instr.reasons (.copy 1 2 5 1 0 0 false) = [.grouping] := by decide
theorem test_refuse_engines : Instr.reasons (.mma 1 2 3 false false false false false 0 1 0) = [.reserved] ∧
    Instr.reasons (.bput 1 2 3 false 0) = [.grouping] ∧ Instr.reasons (.bscan 2 4 3 5) = [.grouping] ∧
    Instr.reasons (.nmload 1 3 2 0) = [.grouping] := by decide
theorem test_refuse_system : Instr.reasons (.scall 1 4 2048) = [.operand] ∧ Instr.reasons (.scall 1 2 1) = [.grouping] ∧
    Instr.reasons (.trap 2048) = [.operand] ∧ Instr.reasons (.sread 1 7) = [.operand] ∧ Instr.reasons (.sread 1 0x10) = [.grouping] ∧
    Instr.reasons (.swrite 1 0x17) = [.operand] ∧ Instr.reasons (.mLoop 0 0) = [.operand] := by decide
theorem test_refuse_guard : guardOk 0x10 = false ∧ guardOk 0x3f = false ∧ guardOk 0x31 = true := by decide
theorem test_refuse_last_use : lastUseOk (.mov 1 2) 2 = false ∧ lastUseOk (.ld 1 2 0 0 0 false) 2 = false ∧
    lastUseOk (.ld 1 2 3 0 0 false) 3 = true := by decide
theorem test_refuse_packet : Packet.fetch ⟨0x40000000, 0, 0, 0⟩ 0 = .error .gen ∧ Packet.fetch ⟨1, 0, 0, 0⟩ 0 = .error .reserved ∧
    Packet.fetch ⟨0, 0x3a100003, 0, 0⟩ 0 = .error .wide ∧ Packet.fetch ⟨0, 0xff000000, 0, 0⟩ 0 = .error .opcode ∧
    Packet.fetch ⟨0x10000000, 0, 0, 0⟩ 0 = .error .guard := by decide

/-! ### One word of every encoding -/

theorem test_decode_integer_1 :
    decode 0x00000000 0 = .ok (.nop) ∧
    decode 0x0150c686 0 = .ok (.add 20 12 26 true 2) ∧
    decode 0x0250c686 0 = .ok (.addc 20 12 26 true 2) ∧
    decode 0x0350c686 0 = .ok (.sub 20 12 26 true 2) ∧
    decode 0x0450c686 0 = .ok (.subb 20 12 26 true 2) ∧
    decode 0x0550c680 0 = .ok (.mul 20 12 26) ∧
    decode 0x0650c681 0 = .ok (.mulh 20 12 26 true) ∧
    decode 0x0750c6a7 0 = .ok (.mad 20 12 26 39) ∧
    decode 0x0850c681 0 = .ok (.div 20 12 26 true) ∧
    decode 0x0950c681 0 = .ok (.rem 20 12 26 true) ∧
    decode 0x0a50c681 0 = .ok (.min 20 12 26 true) ∧
    decode 0x0b50c681 0 = .ok (.max 20 12 26 true) := by
  refine ⟨?_, ?_, ?_, ?_, ?_, ?_, ?_, ?_, ?_, ?_, ?_, ?_⟩ <;> rfl

theorem test_decode_integer_2 :
    decode 0x0c50c000 0 = .ok (.abs 20 12) ∧
    decode 0x0d50c680 0 = .ok (.and 20 12 26) ∧
    decode 0x0e50c680 0 = .ok (.or 20 12 26) ∧
    decode 0x0f50c680 0 = .ok (.xor 20 12 26) ∧
    decode 0x1050c680 0 = .ok (.andn 20 12 26) ∧
    decode 0x1150c680 0 = .ok (.shl 20 12 26) ∧
    decode 0x1250c680 0 = .ok (.shr 20 12 26) ∧
    decode 0x1350c680 0 = .ok (.sar 20 12 26) ∧
    decode 0x1450c680 0 = .ok (.rot 20 12 26) ∧
    decode 0x1550c000 0 = .ok (.clz 20 12) ∧
    decode 0x1650c000 0 = .ok (.popc 20 12) ∧
    decode 0x1750c000 0 = .ok (.brev 20 12) := by
  refine ⟨?_, ?_, ?_, ?_, ?_, ?_, ?_, ?_, ?_, ?_, ?_, ?_⟩ <;> rfl

theorem test_decode_integer_3 :
    decode 0x1850c681 0 = .ok (.bfx 20 12 26 true) ∧
    decode 0x1950c6a7 0 = .ok (.bfi 20 12 26 39) ∧
    decode 0x1a50c6a7 0 = .ok (.perm 20 12 26 39) ∧
    decode 0x1b50c6a9 0 = .ok (.sel 20 12 26 2 9) ∧
    decode 0x1c08c680 0 = .ok (.cmp 2 12 26) ∧
    decode 0x1d50c68d 0 = .ok (.lea 20 12 26 true 5) ∧
    decode 0x1e50c681 0 = .ok (.clmul 20 12 26 true) ∧
    decode 0x1f50c000 0 = .ok (.mov 20 12) := by
  refine ⟨?_, ?_, ?_, ?_, ?_, ?_, ?_, ?_⟩ <;> rfl

theorem test_decode_immediates_1 :
    decode 0x2150ca01 0 = .ok (.addI 20 12 0xa01) ∧
    decode 0x2550ca01 0 = .ok (.mulI 20 12 0xa01) ∧
    decode 0x2a50ca01 0 = .ok (.minI 20 12 0xa01) ∧
    decode 0x2b50ca01 0 = .ok (.maxI 20 12 0xa01) ∧
    decode 0x2d50ca01 0 = .ok (.andI 20 12 0xa01) ∧
    decode 0x2e50ca01 0 = .ok (.orI 20 12 0xa01) ∧
    decode 0x2f50ca01 0 = .ok (.xorI 20 12 0xa01) ∧
    decode 0x3150c011 0 = .ok (.shlI 20 12 17) ∧
    decode 0x3250c011 0 = .ok (.shrI 20 12 17) ∧
    decode 0x3350c011 0 = .ok (.sarI 20 12 17) ∧
    decode 0x3450c011 0 = .ok (.rotI 20 12 17) ∧
    decode 0x3850c686 0 = .ok (.add64 20 12 26 true 2) := by
  refine ⟨?_, ?_, ?_, ?_, ?_, ?_, ?_, ?_, ?_, ?_, ?_, ?_⟩ <;> rfl

theorem test_decode_immediates_2 :
    decode 0x3908c680 0 = .ok (.cmp64 2 12 26) ∧
    decode 0x3c08ca01 0 = .ok (.cmpI 2 12 0xa01) := by
  refine ⟨?_, ?_⟩ <;> rfl

theorem test_decode_float_1 :
    decode 0x4050c683 0 = .ok (.fadd 20 12 26 3) ∧
    decode 0x4150c683 0 = .ok (.fsub 20 12 26 3) ∧
    decode 0x4250c683 0 = .ok (.fmul 20 12 26 3) ∧
    decode 0x4350c683 0 = .ok (.ffma 20 12 26 3) ∧
    decode 0x4450c680 0 = .ok (.fmin 20 12 26) ∧
    decode 0x4550c680 0 = .ok (.fmax 20 12 26) ∧
    decode 0x4608c680 0 = .ok (.fcmp 2 12 26) ∧
    decode 0x4750c000 0 = .ok (.fclass 20 12) ∧
    decode 0x4850c003 0 = .ok (.frcp 20 12 3) ∧
    decode 0x4950c003 0 = .ok (.frsq 20 12 3) ∧
    decode 0x4a50c003 0 = .ok (.fsqrt 20 12 3) ∧
    decode 0x4b50c003 0 = .ok (.fexp2 20 12 3) := by
  refine ⟨?_, ?_, ?_, ?_, ?_, ?_, ?_, ?_, ?_, ?_, ?_, ?_⟩ <;> rfl

theorem test_decode_float_2 :
    decode 0x4c50c003 0 = .ok (.flog2 20 12 3) ∧
    decode 0x4d50c6ab 0 = .ok (.dot4 20 12 26 5 3) := by
  refine ⟨?_, ?_⟩ <;> rfl

theorem test_decode_packed :
    decode 0x6050c68b 0 = .ok (.h2add 20 12 26 true 3) ∧
    decode 0x6150c68b 0 = .ok (.h2mul 20 12 26 true 3) ∧
    decode 0x6250c68b 0 = .ok (.h2fma 20 12 26 true 3) ∧
    decode 0x6350c688 0 = .ok (.h2min 20 12 26 true) ∧
    decode 0x6450c688 0 = .ok (.h2max 20 12 26 true) ∧
    decode 0x6550c31b 0 = .ok (.cvt 20 12 1 4 1 true 3) ∧
    decode 0x6650c6a7 0 = .ok (.dq4 20 12 26 39) := by
  refine ⟨?_, ?_, ?_, ?_, ?_, ?_, ?_⟩ <;> rfl

theorem test_decode_lanes :
    decode 0x7050c686 0 = .ok (.shfl 20 12 26 true 2) ∧
    decode 0x7150c002 0 = .ok (.vote 20 12 2) ∧
    decode 0x7250c01a 0 = .ok (.scan 20 12 true true 2) ∧
    decode 0x7350c688 0 = .ok (.topk 20 12 26 8) := by
  refine ⟨?_, ?_, ?_, ?_⟩ <;> rfl

theorem test_decode_memory :
    decode 0x8050c68d 0 = .ok (.ld 20 12 26 1 2 true) ∧
    decode 0x8250c68c 0 = .ok (.st 20 12 26 1 2) ∧
    decode 0x8450c68d 0 = .ok (.lda 20 12 26 1 2 true) ∧
    decode 0x8550c68c 0 = .ok (.strel 20 12 26 1 2) ∧
    decode 0x8650c68d 0 = .ok (.ldnc 20 12 26 1 2 true) ∧
    decode 0x8750c68c 0 = .ok (.stnc 20 12 26 1 2) ∧
    decode 0x8850c6a6 0 = .ok (.atom 20 12 26 9 true false) ∧
    decode 0x89000000 0 = .ok (.fenceCore) ∧
    decode 0x89000001 0 = .ok (.fenceDev) ∧
    decode 0x89000002 0 = .ok (.fenceSys) := by
  refine ⟨?_, ?_, ?_, ?_, ?_, ?_, ?_, ?_, ?_, ?_⟩ <;> rfl

theorem test_decode_control :
    decode 0xa0a00001 0 = .ok (.br 0xa00001) ∧
    decode 0xa1a00001 0 = .ok (.call 0xa00001) ∧
    decode 0xa200c000 0 = .ok (.jmp 12) ∧
    decode 0xa300c000 0 = .ok (.ret 12) ∧
    decode 0xa4a00001 0 = .ok (.mpush 0xa00001) ∧
    decode 0xa5000409 0 = .ok (.mjoin 0x409) ∧
    decode 0xa6000010 0 = .ok (.mdrop 16) ∧
    decode 0xa7000000 0 = .ok (.exit) ∧
    decode 0xa8000002 0 = .ok (.bar 2) ∧
    decode 0xa9000003 0 = .ok (.bara 3) ∧
    decode 0xaa000000 0 = .ok (.yield) := by
  refine ⟨?_, ?_, ?_, ?_, ?_, ?_, ?_, ?_, ?_, ?_, ?_⟩ <;> rfl

theorem test_decode_futures :
    decode 0xb050c001 0 = .ok (.fwait 20 12 true) ∧
    decode 0xb150c000 0 = .ok (.ftest 20 12) ∧
    decode 0xb200c000 0 = .ok (.fcancel 12) ∧
    decode 0xb350c000 0 = .ok (.fwany 20 12) ∧
    decode 0xb400c000 0 = .ok (.fwall 12) ∧
    decode 0xb550c000 0 = .ok (.ffirst 20 12) ∧
    decode 0xb750c681 0 = .ok (.copys 20 12 26 true) ∧
    decode 0xb824c000 0 = .ok (.ctset 9 12) ∧
    decode 0xb924c000 0 = .ok (.ctadd 9 12) ∧
    decode 0xba50c00b 0 = .ok (.fetch 20 12 11) ∧
    decode 0xbb50c000 0 = .ok (.launch 20 12) := by
  refine ⟨?_, ?_, ?_, ?_, ?_, ?_, ?_, ?_, ?_, ?_, ?_⟩ <;> rfl

theorem test_decode_matrixAndBags :
    decode 0xc250c680 0 = .ok (.mzero 20 12 26) ∧
    decode 0xc850c686 0 = .ok (.bput 20 12 26 true 2) ∧
    decode 0xc950c686 0 = .ok (.btake 20 12 26 true 2) ∧
    decode 0xca50c6a7 0 = .ok (.bdrain 20 12 26 39) ∧
    decode 0xcb50c6a7 0 = .ok (.bscan 20 12 26 39) ∧
    decode 0xcc50c000 0 = .ok (.bcount 20 12) ∧
    decode 0xcd50c680 0 = .ok (.binfo 20 12 26) := by
  refine ⟨?_, ?_, ?_, ?_, ?_, ?_, ?_⟩ <;> rfl

theorem test_decode_system :
    decode 0xd050c68f 0 = .ok (.nmload 20 12 26 15) ∧
    decode 0xd150c000 0 = .ok (.nmarm 20 12) ∧
    decode 0xd250c000 0 = .ok (.nmrun 20 12) ∧
    decode 0xd350c000 0 = .ok (.nmdisarm 20 12) ∧
    decode 0xd850c020 0 = .ok (.scall 20 12 32) ∧
    decode 0xd9000a01 0 = .ok (.trap 0xa01) ∧
    decode 0xda000000 0 = .ok (.tret) ∧
    decode 0xdb500018 0 = .ok (.sread 20 24) ∧
    decode 0xdc00c015 0 = .ok (.swrite 12 21) ∧
    decode 0xdd000a01 0 = .ok (.bkpt 0xa01) := by
  refine ⟨?_, ?_, ?_, ?_, ?_, ?_, ?_, ?_, ?_, ?_⟩ <;> rfl

theorem test_decode_wide :
    decode 0x3a100003 0x40000000 = .ok (.movi 4 3 0x40000000) ∧
    decode 0x8150c68d 0xfffffff0 = .ok (.ldWide 20 12 26 1 2 true 0xfffffff0) ∧
    decode 0x8350c692 0x00000100 = .ok (.stWide 20 12 26 2 1 0x100) ∧
    decode 0xab004003 0x00000202 = .ok (.spawn 4 3 2 2) ∧
    decode 0xac009000 0xfffffe10 = .ok (.regroup 9 0xfffffe 0x10) ∧
    decode 0xb650c682 0x01980020 = .ok (.copy 20 12 26 2 0x80020 9 true) ∧
    decode 0xc050825c 0x08040200 = .ok (.mma 20 8 9 false false true true true 0x200 2 64) ∧
    decode 0xc150c69d 0x00010002 = .ok (.mdrain 20 12 26 true false true 3 0x10002) := by
  refine ⟨?_, ?_, ?_, ?_, ?_, ?_, ?_, ?_⟩ <;> rfl

theorem test_decode_refused : decode 0xff000000 0 = .error .opcode ∧ decode 0x00000001 0 = .error .reserved ∧
    decode 0x05000001 0 = .error .reserved ∧ decode 0x89000003 0 = .error .operand ∧ decode 0xb6000002 0x02000000 = .error .reserved := by decide

theorem test_decode_micro :
    decodeMicro 0 = some .mEnd ∧ decodeMicro 0x1800000000000000 = some (.mRows 2) ∧
    decodeMicro 0x2600000000000000 = some (.mCols 1 true) ∧ decodeMicro 0x3000000000000000 = some .mBvec ∧
    decodeMicro 0x4000000000000000 = some .mMacb ∧ decodeMicro 0x5000000000000000 = some .mAxpy ∧
    decodeMicro 0x6000000000000000 = some .mRed ∧ decodeMicro 0x7000000000000000 = some .mActv ∧
    decodeMicro 0x8c00000000000000 = some (.mWcol 3) ∧ decodeMicro 0x9000000000000000 = some .mWmbx ∧
    decodeMicro 0xa000123400000015 = some (.mLoop 0x1234 0x15) ∧ decodeMicro 0xa000000000000015 = none ∧
    decodeMicro 0xb000000000000000 = none ∧ decodeMicro 0x0000000000000001 = none := by decide

theorem test_encode_words : encode (.add 4 5 6 true 2) = [0x01105186] ∧ encode (.movi 4 3 0x40000000) = [0x3a100003, 0x40000000] ∧
    encodeMicro (.mLoop 0x1234 0x15) = 0xa000123400000015 := by decide

/-! ### Single steps -/


/-- A machine whose crew has one thread, in lane 0, which issues an instruction at slot A of the packet at 0x10000, at DTIME 100. -/
def w0 : State := { State.reset.load ⟨0, 0, 0, 0⟩ with cur := { mask := 1, pc := 0x10004 }, dtime := 100 }

/-- The same machine with a register set in lane 0. -/
def withReg (r : Nat) (v : Word) (s : State) : State := s.setCrew 0 ((s.crew 0).write r 1 (fun _ => live v) 0 0)

/-- What a test looks at in the state that an instruction leaves. -/
def after {α : Type} (i : Instr) (s : State) (f : State → α) : Option α :=
  match exec i s with
  | .next t => some (f t)
  | _ => none

/-- Register r of lane 0 after an instruction. -/
def gets (i : Instr) (s : State) (r : Nat) : Option Word := after i s fun t => (t.crew 0).rd r 0

/-- Condition-code field n of lane 0 after an instruction. -/
def flagsAfter (i : Instr) (s : State) (n : Nat) : Option Flags := after i s fun t => ((t.crew 0).thr 0).cc.getD n {}

/-- The program counter of lane 0 after an instruction. -/
def pcAfter (i : Instr) (s : State) : Option Dword := after i s fun t => ((t.crew 0).thr 0).pc

/-- The cause word of the trap that lane 0 took. -/
def trapAfter (i : Instr) (s : State) : Option Word := after i s fun t => (((t.crew 0).thr 0).trap.map (·.cause)).getD 0

-- worked examples of the reference sections of spec/, of the rule that names the instruction
theorem test_add_wraps : gets (.add 5 6 7 true 0) (withReg 7 1 (withReg 6 0xffffffff w0)) 5 = some 0 ∧
    flagsAfter (.add 5 6 7 true 0) (withReg 7 1 (withReg 6 0xffffffff w0)) 0 = some { z := true, c := true } := by decide +kernel
theorem test_cmp : flagsAfter (.cmp 1 6 7) (withReg 7 5 (withReg 6 3 w0)) 1 = some { n := true } ∧
    flagsAfter (.cmp 1 6 7) (withReg 7 1 (withReg 6 0xffffffff w0)) 1 = some { n := true, c := true } := by decide +kernel
theorem test_cmp64 : flagsAfter (.cmp64 2 8 10) (withReg 10 0xffffffff (withReg 9 1 w0)) 2 = some { c := true } := by decide +kernel
theorem test_abs : gets (.abs 5 6) (withReg 6 0xfffffff9 w0) 5 = some 7 := by decide +kernel
theorem test_andn : gets (.andn 24 13 23) (withReg 23 0xedf83fc0 (withReg 13 0x40048820 w0)) 24 = some 0x00048020 := by decide +kernel
theorem test_bfx : gets (.bfx 5 6 7 true) (withReg 7 0x804 (withReg 6 0xf30 w0)) 5 = some 0xfffffff3 ∧
    gets (.bfx 5 6 7 false) (withReg 7 0x2020 (withReg 6 0xabcdef01 w0)) 5 = some 0xabcdef01 := by decide +kernel
theorem test_bfi : gets (.bfi 5 6 7 8) (withReg 8 0x408 (withReg 7 0xa0 (withReg 6 0xffffffff w0))) 5 = some 0xfffff0ff := by decide +kernel
theorem test_brev : gets (.brev 3 4) (withReg 4 0x0000ff00 w0) 3 = some 0x00ff0000 := by decide +kernel
theorem test_clmul : gets (.clmul 14 12 11 false) (withReg 12 0x36084040 (withReg 11 0xffffffff w0)) 14 = some 0xedf83fc0 := by decide +kernel
theorem test_clz : gets (.clz 3 4) (withReg 4 0x00010000 w0) 3 = some 15 ∧ gets (.clz 3 4) w0 3 = some 32 := by decide +kernel
theorem test_div : gets (.div 5 6 7 true) (withReg 7 2 (withReg 6 0xfffffff9 w0)) 5 = some 0xfffffffd ∧
    gets (.div 5 6 7 false) (withReg 7 2 (withReg 6 0xfffffff9 w0)) 5 = some 0x7ffffffc := by decide +kernel
theorem test_dot4 : gets (.dot4 10 11 12 5 0) (withReg 10 0x3f000000 (withReg 12 0xff010101 (withReg 11 0x01020304 w0))) 10 =
    some 0x41080000 := by decide +kernel
theorem test_dq4 : gets (.dq4 5 6 7 8) (withReg 8 0x30a (withReg 7 0x3f000000 (withReg 6 0xc000 w0))) 5 = some 0x40070000 := by decide +kernel
theorem test_cvt : gets (.cvt 5 6 0 3 1 true 0) (withReg 6 0x43eb0000 w0) 5 = some 0x00007e00 := by decide +kernel
theorem test_fclass : gets (.fclass 5 6) (withReg 6 0x80000000 w0) 5 = some 8 ∧ gets (.fclass 5 6) (withReg 6 0x7f800001 w0) 5 = some 0x100 := by
  decide +kernel
theorem test_fcmp : flagsAfter (.fcmp 1 5 6) (withReg 5 0x7fc00000 w0) 1 = some { v := true } := by decide +kernel
theorem test_ffma : gets (.ffma 5 6 7 0) (withReg 5 0xbf800000 (withReg 7 0x3f800800 (withReg 6 0x3f800800 w0))) 5 = some 0x3a000400 := by
  decide +kernel
theorem test_h2add : gets (.h2add 5 6 7 false 0) (withReg 7 0x3c003c00 (withReg 6 0x40003c00 w0)) 5 = some 0x42004000 := by decide +kernel
theorem test_lea : gets (.lea 10 8 12 false 2) (withReg 9 1 (withReg 12 0xffffffff w0)) 11 = some 4 ∧
    gets (.lea 10 8 12 true 2) (withReg 9 1 (withReg 12 0xffffffff w0)) 10 = some 0xfffffffc := by decide +kernel
theorem test_mad : gets (.mad 5 6 7 8) (withReg 8 10 (withReg 7 0xffffffff (withReg 6 3 w0))) 5 = some 7 := by decide +kernel
theorem test_min : gets (.min 5 6 7 false) (withReg 7 1 (withReg 6 0xffffffff w0)) 5 = some 1 ∧
    gets (.min 5 6 7 true) (withReg 7 1 (withReg 6 0xffffffff w0)) 5 = some 0xffffffff := by decide +kernel
theorem test_w0 : gets (.movi 0 0 5) w0 0 = some 0 := by decide +kernel
theorem test_movi : gets (.movi 8 2 0xfffffffb) w0 9 = some 0xffffffff := by decide +kernel
theorem test_shl_width : gets (.shl 5 6 7) (withReg 7 32 (withReg 6 1 w0)) 5 = some 0 := by decide +kernel
theorem test_call : gets (.call 3) w0 62 = some 0x10008 ∧ pcAfter (.call 3) w0 = some 0x10034 := by decide +kernel
theorem test_br : pcAfter (.br 0xfffffe) w0 = some 0xffe4 := by decide +kernel
theorem test_bar_herdless : trapAfter (.bar 0) w0 = some 0x0a := by decide +kernel
theorem test_trap : trapAfter (.trap 5) w0 = some 0x50c ∧ pcAfter (.trap 5) w0 = some 0x10004 := by decide +kernel
theorem test_bkpt : trapAfter (.bkpt 7) w0 = some 0x70d := by decide +kernel
theorem test_mjoin_empty : trapAfter (.mjoin 0) w0 = some 0x09 := by decide +kernel
theorem test_exit : after .exit w0 (fun t => (t.crew 0).gone) = some true := by decide +kernel
theorem test_ctadd : after (.ctadd 2 5) (withReg 5 1 w0) (fun t => (t.core 0).trig.getD 2 0) = some 1 := by decide +kernel
theorem test_ftest : gets (.ftest 21 20) (w0.setCrew 0 ((w0.crew 0).write 20 1 (fun _ => future 5) 0 0)) 21 = some 5 := by decide +kernel
theorem test_swrite : after (.swrite 5 0x15) (withReg 5 0xff w0) (fun t => ((t.crew 0).thr 0).fcw) = some 31 := by decide +kernel
theorem test_load : gets (.ld 6 4 0 2 0 false) (withReg 4 0x10004 w0) 6 = some 0 ∧
    trapAfter (.ld 6 4 0 2 0 false) (withReg 4 0x10002 w0) = some 1 := by decide +kernel
theorem test_scratch_outside : trapAfter (.st 6 4 0 2 1) (withReg 4 0x100 w0) = some 0x0e := by decide +kernel
theorem test_cap : after (.setPowerCap 3000) w0 (fun t => t.softCap) = some (some 2400) := by decide +kernel
theorem test_steps_run : (match step (State.reset.withFetchWord 32 0x211c7fff) with
    | .next t => (t.crew 0).rd 7 0
    | _ => 0) = 0xffffffff := by decide +kernel

/-! ### States that meet the hypotheses of the statements -/

theorem forall_inG {s : State} {P : Nat → Prop} (h : ∀ l, l < 32 → s.inG l = true → P l) : ∀ l, s.inG l = true → P l :=
  fun l hl => h l (mask_lt hl) hl

/-- The state of the thread in lane 0, changed. -/
def withThr (f : Thread → Thread) (s : State) : State := s.setCrew 0 ((s.crew 0).setThr 0 (f ((s.crew 0).thr 0)))

theorem getD_replicate_none {α : Type} (n r : Nat) : (List.replicate n (none : Option α)).getD r none = none := by
  simp only [List.getD_eq_getElem?_getD, List.getElem?_replicate]; split <;> rfl

theorem w0_reg (r : Nat) : (w0.crew 0).reg r = none := by
  change (if r = 0 then none else (List.replicate 64 none).getD r none) = none
  split
  · rfl
  · exact getD_replicate_none 64 r

theorem w0_lane (r l : Nat) : (w0.crew 0).lane r l = {} := by rw [Crew.lane_eq, w0_reg]; rfl

theorem w0_banks (o : Operands) : o.banks (w0.crew 0) = [] := by
  simp [Operands.banks, w0_reg]

theorem w0_atHead (o : Operands) : w0.atHead o = true := by
  have hc : w0.curCrew = w0.crew 0 := rfl
  have hr : (w0.crew 0).rob = [] := rfl
  have he : w0.cur.early = none := rfl
  have hh : w0.headResult = none := rfl
  simp [State.atHead, hc, hr, he, hh, w0_banks]

theorem w0_unblocked (o : Operands) : w0.unblocked o = true := by
  have h : w0.standing = true := by decide +kernel
  have hc : w0.curCrew = w0.crew 0 := rfl
  simp [State.unblocked, h, hc, w0_atHead, w0_lane, w0_reg]

theorem w0_readable (o : Operands) (l : Nat) : w0.readable o l = true := by
  have hc : w0.curCrew = w0.crew 0 := rfl
  have hd : w0.curLaunch.control.getLsbD 7 = false := by decide +kernel
  simp only [State.readable, Crew.readTrap, hc, hd, w0_reg]; simp

theorem w0_poised (o : Operands) : w0.poised o = true := by simp [State.poised, w0_unblocked, w0_readable]

theorem w0_room (o : Operands) (h : o.allocs ≤ 4) : w0.room o = true := by
  have h1 : (w0.crew w0.cur.crew).core = some 0 := rfl
  have h2 : w0.isOldest 0 w0.cur.crew = true := by decide +kernel
  have h3 : w0.freeRegs 0 = 1024 := by decide +kernel
  simp [State.room, State.mayAllocate, h1, h2, h3]; omega

theorem witness_SumsAndComparisons : w0.poised (opsRR 63 0 63) = true ∧ w0.room (opsRR 63 0 63) = true ∧ w0.poised (opsR 1 63) = true ∧
    w0.room (opsR 1 63) = true ∧ w0.poised { a := pairRegs 62, b := pairRegs 0, dst := pairRegs 62 } = true ∧
    w0.room { a := pairRegs 62, b := pairRegs 0, dst := pairRegs 62 } = true ∧ w0.active = 1 :=
  ⟨w0_poised _, w0_room _ (by decide), w0_poised _, w0_room _ (by decide), w0_poised _, w0_room _ (by decide), by decide +kernel⟩
theorem witness_MultiplyAndDivide : w0.poised (opsRRR 1 2 3 63) = true ∧ w0.room (opsRRR 1 2 3 63) = true ∧ w0.active = 1 :=
  ⟨w0_poised _, w0_room _ (by decide), by decide +kernel⟩
theorem witness_ChoicesAndFields : w0.poised (opsRRR 0 1 2 3) = true ∧ w0.room (opsRRR 0 1 2 3) = true := ⟨w0_poised _, w0_room _ (by decide)⟩
theorem witness_LogicAndShifts : w0.poised {} = true ∧ w0.room {} = true ∧ w0.room { dst := pairRegs 62 } = true :=
  ⟨w0_poised _, w0_room _ (by decide), w0_room _ (by decide)⟩
theorem witness_FloatArithmetic : w0.poised (opsAcc 5 6 7) = true ∧ w0.room (opsAcc 5 6 7) = true := ⟨w0_poised _, w0_room _ (by decide)⟩
theorem witness_PackedAndConvert : w0.poised (opsAcc 63 63 63) = true ∧ w0.room (opsAcc 63 63 63) = true :=
  ⟨w0_poised _, w0_room _ (by decide)⟩
theorem witness_CrossLane : w0.poised { a := [6], dst := [5, 7] } = true ∧ w0.room { a := [6], dst := [5, 7] } = true :=
  ⟨w0_poised _, w0_room _ (by decide)⟩
theorem witness_Branches : w0.poised { a := pairRegs 62 } = true ∧ w0.room { dst := [62, 63] } = true ∧
    (w0.target w0.curCore w0.curLaunch.asid 0x10014).toOption.isSome = true ∧
    (w0.target w0.curCore w0.curLaunch.asid 0x10010).toOption = none :=
  ⟨w0_poised _, w0_room _ (by decide), by decide +kernel, by decide +kernel⟩
theorem witness_FlagRule : w0.poised (opsRR 3 1 2) = true ∧ w0.room (opsRR 3 1 2) = true := ⟨w0_poised _, w0_room _ (by decide)⟩
theorem witness_UnaryRules : w0.poised (opsR 3 63) = true ∧ w0.room (opsR 3 63) = true := ⟨w0_poised _, w0_room _ (by decide)⟩
theorem witness_FloatClass : w0.poised (opsR 63 1) = true ∧ w0.room (opsR 63 1) = true := ⟨w0_poised _, w0_room _ (by decide)⟩

/-- The thread of lane 0 in meetings 0 to n - 1. -/
def inMeetings (n : Nat) : State := withThr (fun t => { t with stack := List.range n }) w0

theorem witness_Meetings : (inMeetings 0).poised {} = true ∧ (inMeetings 0).room {} = true ∧ (inMeetings 0).inG 0 = true ∧
    ((inMeetings 0).thrAt 0).stack = [] ∧ (inMeetings 15).poised {} = true ∧ ((inMeetings 15).thrAt 0).stack.length = 15 ∧
    (inMeetings 16).poised {} = true ∧ (inMeetings 16).room {} = true ∧ ((inMeetings 16).thrAt 0).stack.length = 16 := by decide +kernel

/-- A crew whose lane 0 waits in its one meeting of sib. -/
def meetingCrew (sib : Mask) (deadline : Option Nat) : Crew :=
  { meetings := [{ id := 0, sib := sib, wait := 1, deadline := deadline }], now := 64 }

/-- A crew whose lane 31 is in one meeting, which has released its siblings or not. -/
def arriving (released : Bool) : Crew :=
  { meetings := [{ id := 7, sib := 0x80000001, released := released }], threads := setAt 32 {} (List.replicate 32 {}) 31 { stack := [7] } }

theorem witness_MeetingArrival (r : Bool) : ((arriving r).thr 31).stack = [7] ∧
    ∃ m, (arriving r).meeting 7 = some m ∧ m.released = r := ⟨by cases r <;> decide +kernel, _, rfl, rfl⟩

theorem witness_MeetingsSettle : ((meetingCrew 1 none).meetings.map (·.id)).Nodup ∧
    (∀ m ∈ (meetingCrew 1 none).meetings, m.wait ||| m.dep = m.sib) ∧
    (∀ m ∈ (meetingCrew 3 (some 63)).meetings, m.expired (meetingCrew 3 (some 63)).now = true ∧ m.wait ||| m.dep ≠ m.sib) ∧
    (∀ m ∈ (meetingCrew 3 (some 64)).meetings, m.expired (meetingCrew 3 (some 64)).now = false ∧ m.wait ||| m.dep ≠ m.sib) := by
  decide +kernel

/-- The thread of lane 0 in herd 0 by its slot 3, whose barrier has one live member. -/
def inHerd : State := (withThr (fun t => { t with herds := [none, none, none, some 0] }) w0).setLaunch 0
  { w0.launch 0 with barriers := [(0, { live := 1 })] }

theorem witness_Barriers : (inHerd.poised { visible := true } = true ∧ inHerd.room { visible := true } = true ∧
    ((inHerd.thrAt 0).herd 3).isSome = true ∧ ((inHerd.thrAt 0).herd 0).isNone = true ∧ inHerd.curCrew.stepping = none) ∧
    ∀ l, inHerd.inG l = true → ((inHerd.thrAt l).herd 3).isSome = true → inHerd.fenced 1 inHerd.cur.crew l = true :=
  ⟨by decide +kernel, forall_inG (by decide +kernel)⟩

/-- Lanes 0 and 1, of different threads, are in herd 0, and both issue. -/
def pairInHerd : State :=
  let s : State := { inHerd with cur := { inHerd.cur with mask := 3 } }
  s.setCrew 0 ((s.crew 0).setThr 1 { (s.crew 0).thr 0 with tid := 1 })

theorem witness_BarrierArrivals : ∀ l k, pairInHerd.inG l = true → pairInHerd.inG k = true →
    (pairInHerd.thrAt l).tid = (pairInHerd.thrAt k).tid → l = k := by
  have h : ∀ l, l < 32 → ∀ k, k < 32 → pairInHerd.inG l = true → pairInHerd.inG k = true →
      (pairInHerd.thrAt l).tid = (pairInHerd.thrAt k).tid → l = k := by decide +kernel
  exact fun l k hl hk => h l (mask_lt hl) k (mask_lt hk) hl hk

/-- The debugger steps the crew of inHerd, whose thread stands before a BAR, or steps off one. -/
def steppedHerd (pass : Bool) : State :=
  let s := inHerd.setCrew 0 { inHerd.crew 0 with stepping := some 1 }
  withThr (fun _ => { (inHerd.crew 0).thr 0 with passBar := pass }) s

theorem witness_BarrierStep : (steppedHerd false).cur.entry = false ∧ (steppedHerd false).curCrew.stepping ≠ none ∧
    (steppedHerd false).inGroup 0 = true ∧ ((steppedHerd false).thrAt 0).passBar = false ∧
    (steppedHerd true).poised { visible := true } = true ∧ (steppedHerd true).inGroup 0 = true ∧
    ((steppedHerd true).thrAt 0).passBar = true := by decide +kernel

/-- The same herd in a phase. -/
def herdWith (b : Barrier) : State := (withThr (fun t => { t with state := .barrier, barrier := some 0 }) inHerd).setLaunch 0
  { w0.launch 0 with barriers := [(0, b)] }

theorem witness_BarrierPhase : (let b := ((herdWith { live := 1, arrived := [0] }).launch 0).barrier 0
    b.arrived.length = b.live ∧ 0 < b.live ∧ b.held.length ≠ b.live) ∧
    (let b := ((herdWith { live := 1, arrived := [0], held := [(0, true)] }).launch 0).barrier 0
    b.arrived.length = b.live ∧ 0 < b.live ∧ b.held.length = b.live) ∧
    (let b := ((herdWith { live := 2, arrived := [0] }).launch 0).barrier 0
    b.arrived.length ≠ b.live) ∧ ((herdWith {}).crew 0).launch = 0 ∧ (((herdWith {}).crew 0).thr 0).state = .barrier ∧
    (((herdWith {}).crew 0).thr 0).barrier = some 0 := by decide +kernel

/-- Two threads of the crew, of which lane 0 issues. -/
def twoLanes : State := w0.setCrew 0 ((w0.crew 0).setThr 1 { tid := 1, state := .ready, pc := 0x10014 })

theorem witness_ExitAndYield : w0.poised {} = true ∧ w0.room {} = true ∧ w0.active ≠ 0 ∧
    ((w0.endThreads w0.cur.crew w0.active).crew w0.cur.crew).allExited = true ∧
    twoLanes.poised {} = true ∧ twoLanes.active ≠ 0 ∧
    ((twoLanes.endThreads twoLanes.cur.crew twoLanes.active).crew twoLanes.cur.crew).allExited = false := by decide +kernel

/-- The cluster of w0 has a bin for SPAWN at slot A of the packet at 0x10000 with n threads in it. -/
def spawnBin (n : Nat) : State :=
  { w0 with clusters := [(0, { bins := [(5, { launch := 0, entry := 0x10004, threads := List.replicate n {} })] })] }

/-- All 256 bins of the cluster are another launch's, and the launch of w0 has a spill area, or none. -/
def fullBins (units : Nat) : State :=
  ({ w0 with clusters := [(0, { bins := (List.range 256).map fun i => (i, { launch := 9 }) })] } : State).setLaunch 0
    { w0.launch 0 with spillUnits := units }

theorem witness_Bins : ((spawnBin 30).cluster 0).bins.find? (fun e => e.2.launch == 0 && e.2.spawned == true && e.2.entry == 0x10004 && e.2.key == 0) =
      some (5, { launch := 0, entry := 0x10004, threads := List.replicate 30 {} }) ∧
    ((spawnBin 31).cluster 0).bins.find? (fun e => e.2.launch == 0 && e.2.spawned == true && e.2.entry == 0x10004 && e.2.key == 0) =
      some (5, { launch := 0, entry := 0x10004, threads := List.replicate 31 {} }) ∧
    (spawnBin 31).spilledOf 0 = [] ∧ (((spawnBin 31).cluster 0).bins.map (·.1)).Pairwise (· < ·) ∧
    (w0.cluster 0).bins = [] ∧ (List.range 256).find? (fun n => !thas (w0.cluster 0).bins n) = some 0 := by decide +kernel
theorem witness_BinsFull : ((fullBins 1).cluster 0).bins.find? (fun e => e.2.launch == 0) = none ∧
    (List.range 256).find? (fun n => !thas ((fullBins 1).cluster 0).bins n) = none ∧
    ((fullBins 1).launch 0).spill.length < ((fullBins 1).launch 0).spillUnits * 256 ∧
    ¬ ((fullBins 0).launch 0).spill.length < ((fullBins 0).launch 0).spillUnits * 256 := by decide +kernel
theorem witness_SpawnLane : (w0.enterBin 0 0 true 0x10004 0 64 {}).isSome = true ∧ w0.curLaunch.nextTid < 2 ^ 32 ∧
    (fullBins 0).enterBin 0 0 true 0x10004 0 64 {} = none ∧ (w0.enterBin 0 0 false 0x10004 9 64 {}).isSome = true ∧
    (fullBins 0).enterBin 0 0 false 0x10004 9 64 {} = none := by decide +kernel

theorem witness_SpawnAndRegroup : w0.poised { a := (List.range 8).map fun i => 56 + i, visible := true } = true ∧
    w0.room { a := [63], visible := true } = true ∧ w0.poised { a := [63], visible := true } = true ∧ w0.active ≠ 0 ∧
    w0.cur.crew < w0.nextCrew ∧ (∀ l, w0.inG l = true → w0.fenced 1 w0.cur.crew l = true) ∧
    (∀ l, w0.inG l = true → (w0.thrAt l).stack = [] → w0.curCrew.allPending l = [] ∧ w0.fenced 1 w0.cur.crew l = true) ∧
    (inMeetings 1).poised { a := [63], visible := true } = true ∧ ((inMeetings 1).thrAt 0).stack ≠ [] :=
  ⟨w0_poised _, w0_room _ (by decide), w0_poised _, by decide +kernel, by decide +kernel, forall_inG (by decide +kernel),
    forall_inG (by decide +kernel), by decide +kernel, by decide +kernel⟩

/-- A store of lane 0's thread is on its way to its home. -/
def storing : State := { w0 with flights := [{ launch := 0, tid := 0, core := 0, addr := 0x100, data := [1, 2, 3, 4] }] }

theorem witness_MemoryInstructions : w0.quietMemory ∧ w0.poised (opsStore 1 2 3 4 0) = true ∧ w0.room (opsLoad 4 2 3 4 0) = true ∧
    w0.poised (opsAtom 62 2 60 9 true false) = true ∧ w0.fencedAll 1 ∧ w0.fencedAll 2 ∧ storing.poised {} = true ∧ ¬ storing.fencedAll 1 ∧
    ¬ storing.fencedAll 2 ∧ storing.inGroup 0 = true :=
  ⟨⟨rfl, rfl, fun _ => rfl⟩, w0_poised _, w0_room _ (by decide), w0_poised _, forall_inG (by decide +kernel), forall_inG (by decide +kernel),
    by decide +kernel, fun h => absurd (h 0 (by decide +kernel)) (by decide +kernel),
    fun h => absurd (h 0 (by decide +kernel)) (by decide +kernel), by decide +kernel⟩

/-- A window of one scratch bank for the launch on core 0. -/
def scratchCore : State := w0.setCore 0 { w0.core 0 with windows := [{ launch := 0, banks := 1, joined := 1 }] }

theorem w0_computing (n : Nat) : (w0.pch n).computing = false := rfl

/-- A machine in which also the page at 0x20000 is mapped, readable and writable. -/
def dataPage : State := { w0 with mem := Memory.writeN w0.mem (cellOf 0x30010 false) (leBytes 8 0x50807) }

theorem witness_AddressAndLoad :
    scratchCore.accessAt 0 1 0 2 1 0 = .scratch 0 ∧ scratchCore.accessAt 0 1 0 2 1 0xfffc = .scratch 0xfffc ∧
    scratchCore.accessAt 0 1 0 2 1 0x10000 = .trap causeScratch 0x10000 ∧ scratchCore.accessAt 0 1 0 2 1 2 = .trap causeMisalign 2 ∧
    (scratchCore.loadLane 1 0 2 1 false false 0 0).isSome = true ∧ w0.accessAt 0 2 0 0 2 0 = .trap causeProt 0 ∧
    (withReg 3 0x1ffff (withReg 2 0xfffffffc w0)).accessAt 0 2 0 2 0 0 = .virt 0x1fffffffffffc ∧
    (withReg 3 0x20000 w0).accessAt 0 2 0 2 0 0 = .trap causeProt 0x2000000000000 ∧
    (dataPage.translate 0 1 .read 0x20000).toOption.isSome = true ∧ (dataPage.translate 0 1 .read 0x2fffc).toOption.isSome = true ∧
    (dataPage.translate 0 1 .read 0x30000).toOption = none ∧
    ((withReg 2 0x20000 dataPage).loadLane 2 0 2 0 false false 0 0).isSome = true ∧
    ((withReg 2 0x30000 dataPage).loadLane 2 0 2 0 false false 0 0).isSome = true ∧
    ((withReg 2 0x2fffc dataPage).loadLane 2 0 2 0 false true 0 0).isSome = true := by decide +kernel

theorem overflows_nearest (f : Fmt) (v : Rat) : f.overflows 0 v ↔
    f.greatest + f.spacing / 2 < |v| ∨ (|v| = f.greatest + f.spacing / 2 ∧ f.largest % 2 = 1) := Iff.rfl

theorem witness_Rounding : fp32.overflows 0 (2 ^ 128) ∧ ¬ fp32.overflows 0 1 ∧ ¬ e4m3.overflows 0 464 := by
  simp only [overflows_nearest]
  decide +kernel
theorem witness_FloatOnce : (({} : FCtx).operand fp32 0x3f800000).rat = some 1 ∧ (({} : FCtx).operand fp32 0xbf800000).rat = some (-1) ∧
    (({} : FCtx).operand fp32 1).rat = some (1 / 2 ^ 149) := by decide +kernel
theorem witness_Elements : (elemValue {} 5 0x80).rat = some (-128) ∧ (elemValue {} 1 0x7bff).rat = some 65504 ∧ isIntFmt 5 = true ∧
    isIntFmt 1 = false := by decide +kernel

theorem witness_StoreLane : ((withReg 2 0xfffc scratchCore).storeLane 5 2 0 2 1 false 0 0).isSome = true ∧
    ((withReg 2 0x10000 scratchCore).storeLane 5 2 0 2 1 false 0 0).isSome = true ∧
    ((withReg 2 0x20000 dataPage).storeLane 5 2 0 2 0 false 0 0).isSome = true ∧
    ((withReg 2 0x2fff0 dataPage).storeLane 4 2 0 4 0 true 0 0).isSome = true ∧
    ((withReg 2 0x10000 dataPage).storeLane 5 2 0 2 0 false 0 0).isSome = true ∧
    ((withReg 2 0x20002 dataPage).storeLane 5 2 0 2 0 false 0 0).isSome = true ∧
    (withReg 2 0x20000 dataPage).accessAt 0 2 0 2 0 0 = .virt 0x20000 ∧ (dataPage.translate 0 1 .write 0x20000).toOption.isSome = true ∧
    Memory.wf dataPage.mem = true ∧ dataPage.curLaunch.dbgmx = false := by decide +kernel

/-- The same store, applied at its home. -/
def applied : State := { w0 with flights := [{ launch := 0, tid := 0, core := 0, addr := 0x100, data := [1, 2, 3, 4], applied := true, ct := 9 }] }

theorem witness_StoreArrives : storing.flights[0]?.isSome = true ∧ storing.mayApply 0 = true ∧ Memory.wf storing.mem = true ∧
    (∃ f, applied.flights[0]? = some f ∧ f.applied = true ∧ (applied.crew 0).launch = f.launch ∧ ((applied.crew 0).thr 0).tid = f.tid ∧
      ((applied.crew 0).thr 0).state ≠ .exited) :=
  ⟨by decide +kernel, by decide +kernel, by decide +kernel, _, rfl, rfl, by decide +kernel, by decide +kernel, by decide +kernel⟩

theorem witness_AtomLane : ((withReg 2 0xfffc scratchCore).atomLane 5 2 6 0 false true 0).isSome = true ∧
    ((withReg 2 0xfff8 scratchCore).atomLane 62 2 60 9 true true 0).isSome = true ∧
    ((withReg 2 0x20000 dataPage).atomLane 5 2 6 10 false false 0).isSome = true ∧
    ((withReg 2 0x2fff8 dataPage).atomLane 62 2 60 9 true false 0).isSome = true ∧
    (withReg 2 0x2fff8 dataPage).atomPlace 0 2 true false = .virt 0x2fff8 ∧
    (dataPage.translate 0 1 .atomic 0x2fff8).toOption.isSome = true ∧ ((withReg 2 4 dataPage).atomLane 62 2 60 9 true false 0).isSome = true ∧
    Memory.wf dataPage.mem = true := by decide +kernel

/-- Lane 0 of register 20 is a pending future of slot 5, which a command holds. -/
def pending : State :=
  let s := w0.setCrew 0 ((w0.crew 0).write 20 1 (fun _ => future 5) 0 0)
  s.setCore 0 { s.core 0 with slots := setAt 64 .free (s.core 0).slots 5 (.busy 0) }

theorem witness_FuturesAndCounters : w0.poised { a := pairRegs 62, dst := [63] } = true ∧ w0.room { a := pairRegs 62, dst := [63] } = true ∧
    pending.poised { a := [20], dst := [21], peek := true } = true ∧ pending.room { a := [20], dst := [21], peek := true } = true ∧
    pending.poised { a := [20], peek := true } = true ∧ w0.poised { a := [63], visible := true } = true ∧
    (∀ l, w0.inG l = true → (w0.thrAt l).got.isSome = true ∨ w0.val2 62 l = 0 ∨
      ∃ k, k < 64 ∧ (w0.val2 62 l).getLsbD k = true ∧ ((w0.core w0.curCore).slot k).ready = true) ∧
    ∀ l, w0.inG l = true → (w0.thrAt l).got.isSome = true ∨
      ∀ k, k < 64 → (w0.val2 62 l).getLsbD k = true → ((w0.core w0.curCore).slot k).ready = true :=
  ⟨w0_poised _, w0_room _ (by decide), by decide +kernel, by decide +kernel, by decide +kernel, w0_poised _,
    forall_inG (by decide +kernel), forall_inG (by decide +kernel)⟩

theorem witness_PendingWaits : (Instr.add 5 1 20 false 0).encodable = true ∧ pending.standing = true ∧
    pending.atHead (operandsOf (.add 5 1 20 false 0) pending) = true ∧ pending.pendingMask (operandsOf (.add 5 1 20 false 0) pending) = 1 ∧
    (withReg 2 0x20 pending).poised { a := pairRegs 2 } = true ∧
    ((withReg 2 0x20 pending).inG 0 = true ∧ ((withReg 2 0x20 pending).thrAt 0).got = none ∧ ((withReg 2 0x20 pending).val2 2 0).getLsbD 5 = true ∧
      (((withReg 2 0x20 pending).core 0).slot 5).ready = false) := by decide +kernel

theorem w0_sent : w0.sent (lanesOf w0.active) = true := by decide +kernel

theorem witness_LaneEngines : w0.poised (opsCopy 5 2 4 0) = true ∧ w0.room (opsCopy 5 2 4 0) = true ∧
    w0.poised (opsFuture 63 (pairRegs 62) [61]) = true ∧ w0.room (opsFuture 63 (pairRegs 62) [61]) = true ∧
    w0.sent (lanesOf w0.active) = true ∧ (∀ f, (lanesOf w0.active).countP f ≤ (w0.core w0.curCore).freeSlots.length) :=
  ⟨w0_poised _, w0_room _ (by decide), w0_poised _, w0_room _ (by decide), w0_sent, fun _ =>
    List.countP_le_length.trans (by decide +kernel)⟩

/-- No completion slot of the core is free. -/
def noSlots : State := w0.setCore 0 { w0.core 0 with slots := List.replicate 64 (.held 0) }

theorem witness_LaneEnginesWait : noSlots.poised (opsFuture 63 (pairRegs 62) []) = true ∧ (noSlots.core noSlots.curCore).freeSlots = [] ∧
    (lanesOf noSlots.active).countP (fun _ => (LaneCmd.cmd (.nmrun 0 {}) .queued [] []).issues) = 1 ∧ noSlots.active ≠ 0 ∧
    noSlots.sent (lanesOf noSlots.active) = true ∧ storing.sent (lanesOf storing.active) = false ∧
    storing.poised (opsFuture 63 (pairRegs 62) []) = true := by decide +kernel

theorem witness_ArmBlock : (dataPage.translate 0 1 .read 0x20000).toOption.isSome = true ∧
    ((dataPage.readBlock 0 1 0x20000).2.map (·.1)).toOption = some false ∧ (dataPage.translate 0 1 .read 0x40000).toOption = none ∧
    ((({ dataPage with bad := [(cellOf 0x50000 false) / 8] } : State).readBlock 0 1 0x20000).2.map (·.1)).toOption = some true := by
  decide +kernel

theorem witness_SlotsOfCommands : (∀ c ∈ w0.cmds, c.id < w0.nextCmd) ∧
    (∀ f, (lanesOf (0xffffffff : Mask)).countP f ≤ (w0.core w0.curCore).freeSlots.length) ∧ (0xffffffff : Mask).getLsbD 31 = true :=
  ⟨by decide +kernel, fun _ => List.countP_le_length.trans (by decide +kernel), by decide +kernel⟩

theorem witness_MatrixCommands : (let o : Operands := { opsFuture 63 [62] [61] with only := some (leaderOf w0.active) }
      w0.poised o = true ∧ w0.room o = true) ∧ w0.active ≠ 0 ∧
    w0.sent (lanesOf w0.active) = true ∧ (w0.core w0.curCore).freeSlots.head? = some 0 ∧
    w0.matrixFull w0.curCore (.mzero 0 0) = false :=
  ⟨⟨w0_poised _, w0_room _ (by decide)⟩, by decide +kernel, w0_sent, by decide +kernel, by decide +kernel⟩

theorem witness_MatrixWaits : (let o : Operands := { opsFuture 63 [62] [61] with only := some (leaderOf noSlots.active) }
      noSlots.poised o = true) ∧ noSlots.active ≠ 0 ∧ noSlots.sent (lanesOf noSlots.active) = true ∧
    (noSlots.core noSlots.curCore).freeSlots = [] ∧ noSlots.matrixFull noSlots.curCore (.mzero 0 0) = false ∧
    ((withReg 62 1 w0).val 62 (leaderOf w0.active)).toNat % 4 ≠ 0 := by decide +kernel

/-- A machine in which the handle in w2:3 of lane 0 names a bag of slots of 16 bytes at 0x20000. -/
def withBag (g : Bag) : State := (withReg 3 1 dataPage).setBag 1 0 { g with live := true, base := 0x20000 }

theorem witness_BagInstructions : (withBag { cap := 4 }).poised { a := pairRegs 2, b := [4], visible := true } = true ∧
    (withBag { cap := 4 }).room { a := pairRegs 2, b := [4], visible := true } = true ∧
    (withBag { cap := 4 }).handle 1 ((withBag {}).val2 2 0) = some 0 ∧
    (let s := withBag { cap := 4 }
     s.poised { a := pairRegs 2, b := [4], lanes := laneList.map (s.putRegs 63 2), visible := true } = true ∧
     s.poised { a := pairRegs 2, b := [4], dst := s.takeRegs 60 2, visible := true } = true ∧
     s.room { a := pairRegs 2, b := [4], dst := s.takeRegs 60 2, visible := true } = true ∧
     s.poised { a := pairRegs 2, b := [4], c := [5], dst := quadRegs 60, visible := true } = true ∧
     s.room { a := pairRegs 2, b := [4], c := [5], dst := quadRegs 60, visible := true } = true ∧
     s.sent (lanesOf s.active) = true) ∧
    (∀ i j, ((w0.bag w0.curLaunch.asid i).share j).placing = false) ∧
    ∀ i j, let h := (w0.bag w0.curLaunch.asid i).share j; h.ct = 0 ∨ h.ct < w0.dtime :=
  ⟨by decide +kernel, by decide +kernel, by decide +kernel, by decide +kernel, fun _ _ => rfl, fun _ _ => .inl rfl⟩

theorem witness_PutAndTake : (let g : Bag := { cap := 4, resident := 3 }; g.resident + g.reserved < g.cap) ∧
    (let g : Bag := { cap := 4, resident := 3, reserved := 1 }; ¬ g.resident + g.reserved < g.cap) ∧
    ((withBag { cap := 1 }).putLane 62 2 4 true 3 0).isSome = true ∧
    ((withBag { cap := 1, resident := 1 }).putLane 62 2 4 false 0 0).isSome = true ∧
    (withBag {}).handle (withBag {}).curLaunch.asid ((withBag {}).val2 2 0) = some 0 ∧
    (62 : Reg).toNat + (((withBag {}).bag 1 0).slot - 8) / 4 ≤ 64 ∧
    ((withBag { cap := 1, resident := 1, shares := [(0, { c := 1 })] }).takeLane 60 2 4 true 3 0).isSome = true ∧
    ((withBag {}).takeLane 60 2 4 false 0 0).isSome = true ∧ Memory.wf (withBag {}).mem = true ∧
    ((withBag {}).val 4 0).toNat < ((withBag {}).bag 1 0).count ∧ (60 : Reg).toNat + ((withBag {}).bag 1 0).slot / 4 ≤ 64 := by
  decide +kernel

theorem witness_TakenSlot : (dataPage.slotPlace 0 1 0x20000).2.toOption = some (cellOf 0x50000 false) ∧
    (dataPage.slotPlace 0 1 0x20000).1.sectorBad (cellOf 0x50000 false) = false ∧ (dataPage.slotPlace 0 1 0x4000000000).2.toOption = none ∧
    (({ dataPage with bad := [cellOf 0x50000 false / 8] } : State).slotPlace 0 1 0x20000).1.sectorBad (cellOf 0x50000 false) = true ∧ ({ cap := 4, resident := 3, reserved := 1 } : Bag).reserve 0 none 5 [] = none ∧
    (({ cap := 4, resident := 3 } : Bag).reserve 0 none 5 []).isSome = true := by decide +kernel

/-- A thread in its trap handler: its local window is the page of data, where a frame that goes on at 0x10004 lies. -/
def inHandler : State :=
  let s : State := { dataPage with mem := Memory.writeN dataPage.mem (cellOf 0x50000 false) (leBytes 8 0x10004) }
  (withThr (fun t => { t with lbase := 0x20000 }) s).setLaunch 0 { s.launch 0 with lsize := 1 }

theorem witness_TrapsAndReturn : w0.poised { a := [63] } = true ∧ w0.room { a := [63] } = true ∧ w0.poised {} = true ∧
    inHandler.poised { more := [60, 61], dst := [60, 61, 62, 63] } = true ∧ inHandler.room { more := [60, 61], dst := [60, 61, 62, 63] } = true ∧
    inHandler.quietMemory ∧ ((inHandler.tretLane 0).map fun r => r.2.trap) = some none ∧ (withReg 60 192 inHandler).tretLane 0 ≠ none ∧
    (withReg 60 193 inHandler).tretLane 0 ≠ none ∧ (withReg 60 208 inHandler).tretLane 0 ≠ none :=
  ⟨w0_poised _, w0_room _ (by decide), w0_poised _, by decide +kernel, by decide +kernel, ⟨rfl, rfl, fun _ => rfl⟩, by decide +kernel, by decide +kernel,
    by decide +kernel, by decide +kernel⟩

/-- The outcome of an access meets a test of its state and its bytes. -/
def okWith (d : Done) (f : State → List Byte → Bool) : Bool :=
  match d with
  | .ok s bs => f s bs
  | _ => false

/-- The access traps. -/
def traps (d : Done) : Bool :=
  match d with
  | .trap _ => true
  | _ => false

/-- The frame resumes at an address that can be executed. -/
def resumes (s : State) (f : List Byte) : Bool := (s.target 0 1 (BitVec.ofNat 64 (field f 0 8))).toOption.isSome

theorem witness_FrameRead : ([0, 16, 32, 48].all fun o => (inHandler.translate 0 1 .read (0x20000 + o)).toOption.isSome) = true ∧
    okWith (inHandler.readFrame 0x20000 4 []) resumes = true ∧ okWith (dataPage.readFrame 0x20000 4 []) (fun s f => !resumes s f) = true ∧
    traps (({ inHandler with bad := [cellOf 0x50030 false / 8] } : State).readFrame 0x20000 4 []) = true ∧ (inHandler.translate 0 1 .read 0x2fff0).toOption.isSome = true ∧
    (inHandler.translate 0 1 .read 0x30000).toOption = none := by decide +kernel

theorem witness_SpecialRegisters : w0.poised { dst := if sreadPair 0x10 then pairRegs 62 else [62] } = true ∧
    w0.room { dst := if sreadPair 0x10 then pairRegs 62 else [62] } = true := ⟨w0_poised _, w0_room _ (by decide)⟩

theorem witness_CallsAndLaunches : w0.poised (opsFuture 63 (quadRegs 60) []) = true ∧ w0.room (opsFuture 63 (quadRegs 60) []) = true ∧
    w0.active ≠ 0 ∧ w0.sent (lanesOf w0.active) = true ∧ (w0.core w0.curCore).freeSlots.head? = some 0 ∧
    w0.poised (opsFuture 63 (pairRegs 62) []) = true ∧ w0.room (opsFuture 63 (pairRegs 62) []) = true ∧
    (lanesOf w0.active).countP (fun l => (w0.val2 62 l).toNat % 128 == 0) ≤ (w0.core w0.curCore).freeSlots.length ∧
    (w0.val2 62 0).toNat % 128 = 0 ∧ ((withReg 62 127 w0).val2 62 0).toNat % 128 ≠ 0 :=
  ⟨w0_poised _, w0_room _ (by decide), by decide +kernel, w0_sent, by decide +kernel, w0_poised _, w0_room _ (by decide), by decide +kernel,
    by decide +kernel, by decide +kernel⟩

/-- A machine whose pseudo-channel n runs. -/
def unitRuns (n : Nat) (p : Pch) : State := { State.reset with nmCur := n, pchs := [(n, { p with run := some 0 })] }

theorem unitRuns_ready (n : Nat) (p : Pch) (hp : p.resumeAt = none ∧ p.ended = false ∧ p.due = 0) : (unitRuns n p).unitReady := by
  have h : (unitRuns n p).pch n = { p with run := some 0 } := by simp [unitRuns, State.pch, tget]
  obtain ⟨h1, h2, h3⟩ := hp
  refine ⟨?_, ?_, ?_⟩ <;> simp [show (unitRuns n p).nmCur = n from rfl, h, Pch.computing, Pch.ready, h1, h2, h3]

theorem witness_UnitArithmetic : (unitRuns 511 {}).unitReady ∧ ((unitRuns 511 {}).pch 511).fault = false :=
  ⟨unitRuns_ready 511 {} (by decide), by decide +kernel⟩
theorem witness_UnitSum : [0x3f800000, 0x40000000].map (fun x => (fp32.value x).rat) = [(1 : Rat), 2].map some := by decide +kernel
theorem witness_UnitStreams : (unitRuns 0 { rix := [some 0, none, none, none], ep := [16, 0, 0, 0] }).unitReady ∧ (unitRuns 0 {}).unitReady ∧
    ((unitRuns 0 {}).pch 0).fault = false ∧ ((unitRuns 0 {}).pch 0).col.getD 3 none ≠ some 15 :=
  ⟨unitRuns_ready 0 _ (by decide), unitRuns_ready 0 {} (by decide), by decide +kernel, by decide +kernel⟩
theorem witness_UnitControl : (unitRuns 511 { counters := [(0, 2)] }).unitReady ∧ (unitRuns 511 { counters := [(0, 1)] }).unitReady :=
  ⟨unitRuns_ready 511 _ (by decide), unitRuns_ready 511 _ (by decide)⟩

/-- A machine into which a packet with ADD w7, w7, -1 in slot A has been loaded. -/
def loaded : State := State.reset.load ⟨0, 0x211c7fff, 0, 0⟩

theorem witness_StepRunsDecoded : isEvent (.dtimePassed 5) = true ∧ State.reset.lets (.dtimePassed 5) = true ∧
    ({ loaded with flights := storing.flights } : State).agenda.isSome = true ∧
    State.reset.agenda = none ∧ State.reset.nextCore = none ∧ loaded.inbox = [] ∧ loaded.tripped = false ∧ loaded.agenda = none ∧
    loaded.nextCore = some 0 ∧ (loaded.best 0).isSome = true ∧
    ((loaded.setCore 0 { loaded.core 0 with ports := [0, 1, 2, 3] }).best 0).isNone = true ∧
    ((loaded.best 0).map fun g => (loaded.target 0 1 g.pc).toOption.isSome) = some true ∧
    (loaded.target 0 1 0x20004).toOption = none := by decide +kernel

/-- The crew has one unretired entry, and its group stands behind it. -/
def queuedEntry : State := loaded.setCrew 0 { loaded.crew 0 with rob := [{ issue := { mask := 1, instr := .movi 5 0 7 } }] }

theorem witness_HeadExecutes : queuedEntry.inbox = [] ∧ queuedEntry.tripped = false ∧ queuedEntry.agenda = none ∧
    queuedEntry.nextCore = some 0 ∧ queuedEntry.nextHead 0 = some 0 ∧ loaded.nextHead 0 = none := by decide +kernel

theorem witness_EncodeDecode : (Instr.cvt 63 63 5 5 3 true 4).encodable = true ∧ (Instr.cvt 63 63 5 5 3 true 4).wf = true ∧
    (Instr.movi 62 3 0xffffffff).wf = true ∧ (Instr.ldWide 60 62 63 4 0 false 0xffffffff).wf = true ∧
    (decode 0x01105186 0).toOption.isSome = true ∧ (decodeMicro 0).isSome = true ∧ (Instr.mLoop 1 0).isMicro = true ∧ (Instr.mLoop 1 0).wf = true ∧
    decodeMicro 0xffffffffffffffff = none := by decide +kernel

theorem witness_SlotChecks : (⟨0, 0, 0, 0⟩ : Packet).isExtension 0 = false ∧ ((⟨0, 0, 0, 0⟩ : Packet).fetch 2).toOption.isSome = true ∧
    ((⟨1, 0, 0, 0⟩ : Packet).fetch 2).toOption = none ∧ (⟨1, 0, 0, 0⟩ : Packet).isExtension 2 = false := by decide +kernel

theorem witness_GuardFalse : (let s : State := { w0 with cur := { w0.cur with guard := 15 } }
    s.standing = true ∧ (s.core s.curCore).clash = [] ∧ s.curCrew.rob = [] ∧ s.active = 0 ∧ s.inGroup 0 = true ∧ s.curCrew.stepping = none) ∧
    (Instr.exit).encodable = true ∧
    (Instr.st 1 2 3 2 0).encodable = true ∧ (Instr.trap 5).encodable = true := by decide +kernel

/-- Registers 1 and 2 in lane 0, the second with its lower half poisoned. -/
def poisoned : State :=
  let s := withReg 2 5 (withReg 1 3 w0)
  s.setCrew 0 ((s.crew 0).onRegs fun r q => if r = 2 then q.map fun p => { p with poisonLo := true } else q)

/-- The launch's option to trap a read of a released lane, and register 1 released in lane 0. -/
def debugReads : State :=
  let s := withReg 1 3 (w0.setLaunch 0 { w0.launch 0 with control := 0x80 })
  s.setCrew 0 ((s.crew 0).onRegs fun r q => if r = 1 then q.map fun p => p.onLanes fun _ x => { x with st := .released } else q)

theorem witness_SourceTraps : poisoned.unblocked (opsRR 3 1 2) = true ∧ poisoned.room (opsRR 3 1 2) = true ∧
    poisoned.curLaunch.control.getLsbD 7 = false ∧ poisoned.readable (opsRR 3 1 2) 0 = false ∧ poisoned.inG 0 = true ∧
    debugReads.unblocked (opsR 3 1) = true ∧ debugReads.room (opsR 3 1) = true ∧ debugReads.curLaunch.control.getLsbD 7 = true ∧
    debugReads.inG 0 = true ∧ (debugReads.curCrew.lane 1 0).st = .released := by decide +kernel

theorem witness_AnySourceTraps : (Instr.st 2 1 0 2 0).encodable = true ∧ poisoned.unblocked (operandsOf (.st 2 1 0 2 0) poisoned) = true ∧
    poisoned.curCrew.stepping = none ∧ poisoned.active = 1 ∧
    poisoned.curCrew.readTrap false ((operandsOf (.st 2 1 0 2 0) poisoned).srcsAt 0) ((operandsOf (.st 2 1 0 2 0) poisoned).laneOf 0) =
      some (causePoison, 0) := by decide +kernel

/-- Core 0 holds 15 older crews with 62 registers each, 31 in each bank: 94 of 1024 are free. -/
def crowded : State :=
  let regs := none :: none :: (List.range 62).map fun r => some ({ bank := some (r % 2) } : PReg)
  { w0 with crews := (0, { w0.crew 0 with admitSeq := some 99 }) ::
      (List.range 15).map fun k => (k + 1, { launch := 0, core := some 0, admitSeq := some k, map := regs }) }

theorem witness_AllocationAndBanks : (crowded.crew 0).core = some 0 ∧ crowded.isOldest 0 0 = false ∧ crowded.isOldest 0 1 = true ∧
    crowded.freeRegs 0 = 94 ∧ crowded.poised (opsRR 3 1 2) = true ∧ crowded.active ≠ 0 ∧ crowded.room (opsRR 3 1 2) = false ∧
    (let s := withReg 1 3 w0
     let t := s.setCore 0 { s.core 0 with clash := [0] }
     t.standing = true ∧ t.cur.entry = false ∧ t.curCrew.stepping = none ∧
     ((operandsOf (.mul 3 1 2) t).banks t.curCrew).any (t.core t.curCore).clash.contains = true) ∧
    (let s := w0.setCrew 0 { w0.crew 0 with rob := [{ why := some 0, since := 7 }] }
     s.standing = true ∧ s.cur.entry = false ∧ s.curCrew.rob ≠ [] ∧ s.curCrew.waitsSince = some 7 ∧
     ((operandsOf (.mul 3 1 2) s).banks s.curCrew).any (s.core s.curCore).clash.contains = false) := by decide +kernel

theorem crowded_writes : crowded.writes fun _ => gives 5 := ⟨0, by decide, by decide +kernel, rfl, List.cons_ne_nil _ _⟩

/-- With no room for its result, an instruction of each shape waits. -/
theorem witness_ResultsWait : crowded.writes (fun _ => gives 5) ∧ crowded.poised (opsLoad 3 1 0 2 1) = true ∧ crowded.room (opsLoad 3 1 0 2 1) = false ∧
    crowded.mayAllocate crowded.cur.crew (opsLoad 3 1 0 2 1).allocs = false ∧ crowded.poised (opsFuture 3 (pairRegs 62) []) = true ∧
    crowded.room (opsFuture 3 (pairRegs 62) []) = false ∧ crowded.sent (lanesOf crowded.active) = true ∧
    (crowded.core crowded.curCore).freeSlots.length = 64 :=
  ⟨crowded_writes, by decide +kernel⟩
theorem witness_LoadsWait : crowded.quietMemory := ⟨rfl, rfl, fun _ => rfl⟩

theorem witness_CellPlacement : 2 ^ 39 - 2 ^ 16 < 2 ^ 39 ∧ (2 ^ 39 - 2 ^ 16) % 2 ^ 16 = 0 ∧ (2 ^ 39 - 256) % 256 = 0 ∧
    cellOf (2 ^ 39 - 1) true = cellOf (2 ^ 39 - 1) true := by decide

theorem witness_kept : (match step loaded with
    | .next _ => true
    | _ => false) = true ∧ Memory.wf loaded.mem = true ∧ (∀ e ∈ loaded.crews, e.1 < loaded.nextCrew) ∧
    ∀ c ∈ loaded.clusters, ∀ k ∈ c.2.queue, k < loaded.nextCrew := by decide +kernel

theorem next_of_match {o : Host.Outcome State Fault Refusal} (h : (match o with
    | .next _ => true
    | _ => false) = true) : ∃ t, o = .next t := by
  cases o <;> simp_all
theorem witness_MemoryCanonical : (∃ t, step loaded = .next t) ∧ Memory.wf loaded.mem = true := ⟨next_of_match witness_kept.1, witness_kept.2.1⟩
theorem witness_TimeForward : ∃ t, step loaded = .next t := next_of_match witness_kept.1
theorem witness_CrewsNumbered : (∃ t, step loaded = .next t) ∧ loaded.numbered := ⟨next_of_match witness_kept.1, witness_kept.2.2⟩

theorem forall_inGroup {s : State} {P : Nat → Prop} (h : ∀ l, l < 32 → s.inGroup l = true → P l) : ∀ l, s.inGroup l = true → P l :=
  fun l hl => h l (mask_lt hl) hl

/-- The thread of lane 0 stands in a page that is not mapped. -/
def offPage : State :=
  { withThr (fun t => { t with pc := 0x20004 }) w0 with cur := { mask := 1, pc := 0x20004 } }

/-- The thread of lane 0 is in a trap of a cause, with its record on its way; its launch has a policy, a local page at 0x20000 and
a registered range. -/
def inTrap (cause : Word) (va : Dword) (policy : Word) : State :=
  let i : TrapInfo := ⟨cause, 0x10004, 0x10008, va⟩
  let s := withThr (fun t => { t with state := .trapped, trap := some i, lbase := 0x20000 }) (withReg 60 128 dataPage)
  let s := (s.setLaunch 0 { s.launch 0 with control := policy <<< 9, lsize := 1 }).setAspace 1
    { s.aspace 1 with ranges := [⟨0x30000, 1, none⟩] }
  { s with traps := [{ asid := 1, info := i }], vis := [(0, { granted := [(0, 2 ^ 22)], memQuota := 1 })] }

theorem witness_TrapEvents : (offPage.curCrew.running = true ∧ offPage.curCrew.rob = [] ∧ offPage.cur.mask ≠ 0 ∧
      (∀ l, offPage.inGroup l = true → (offPage.thrAt l).eligible = true ∧ (offPage.thrAt l).pc = offPage.cur.pc) ∧
      ∃ e, offPage.target offPage.curCore offPage.curLaunch.asid offPage.cur.pc = .error e) ∧
    ((inTrap 2 0x3fffc 0).trapThread { asid := 1, info := ⟨2, 0x10004, 0x10008, 0x3fffc⟩ }).isSome = true ∧
    ((inTrap 2 0x3fffc 0).repairFor { asid := 1, info := ⟨2, 0x10004, 0x10008, 0x3fffc⟩ }).isSome = true ∧
    ((inTrap 2 0x1fffffffffffc 0).repairFor { asid := 1, info := ⟨2, 0x10004, 0x10008, 0x1fffffffffffc⟩ }).isNone = true ∧
    (inTrap 2 0x1fffffffffffc 0).traps.length = 1 :=
  ⟨⟨by decide +kernel, by decide +kernel, by decide +kernel, forall_inGroup (by decide +kernel), (causeNotPresent, 0x20000), by decide +kernel⟩,
    by decide +kernel⟩

theorem witness_TrapPolicies : ((inTrap 9 0 0).launch 0).policy = 0 ∧ ((inTrap 9 0 1).launch 0).policy = 1 ∧
    ((inTrap 9 0 2).launch 0).policy = 2 ∧ ((inTrap 9 0 3).launch 0).policy = 3 ∧ ((inTrap 9 0 2).launch 0).debugger = false ∧
    (∀ r ∈ (inTrap 9 0 0).traps, r.dtime < (inTrap 9 0 0).dtime ∧ ∀ q ∈ (inTrap 9 0 0).traps, q.launch = r.launch → q.comesBefore r = false) ∧
    (((inTrap 9 0 2).dropTrap 0).unspill 0 [60, 61, 62, 63]).isSome = true ∧
    ((inTrap 9 0 2).crew 0).core.isSome = true ∧ (inTrap 9 0 2).mayAllocate 0 ((inTrap 9 0 2).crew 0).framesRegs.length = true ∧
    ((((inTrap 9 0 2).crew 0).rd2 60 0 &&& ~~~ 15) - 64).toNat + 64 ≤ ((inTrap 9 0 2).launch 0).localBytes ∧
    (let s := withReg 60 320 (inTrap 9 0 2)
     (s.launch 0).localBytes < (((s.crew 0).rd2 60 0 &&& ~~~ 15) - 64).toNat + 64) ∧
    okWith (((inTrap 9 0 2).dropTrap 0).storeFrame 0 1 0 0 0x20040
      (chunks 16 4 (trapFrame ((inTrap 9 0 2).crew 0) 0 ⟨9, 0x10004, 0x10008, 0⟩))) (fun _ _ => true) = true ∧
    traps (({ (inTrap 9 0 2).dropTrap 0 with vis := [] } : State).storeFrame 0 1 0 0 0x40000
      (chunks 16 4 (trapFrame ((inTrap 9 0 2).crew 0) 0 ⟨9, 0x10004, 0x10008, 0⟩))) = true := by decide +kernel

/-- The same under a debugger. -/
def heldTrap (cause : Word) : State := (inTrap cause 0 3).setLaunch 0 { (inTrap cause 0 3).launch 0 with debugger := true }

theorem witness_Debugged : ((heldTrap 0x50d).traps.map fun r => ((heldTrap 0x50d).trapThread r).isSome && causeCode r.info.cause == 0x0d) = [true] ∧
    (((heldTrap 0x50d).threadCrews 0 0).map fun n => ((heldTrap 0x50d).crew n).halted) = [false] ∧
    (let t : State := { heldTrap 0x50c with traps := [] }
     (t.launch 0).debugger = true ∧ t.findThread 0 0 = some (0, 0) ∧ ((t.crew 0).thr 0).trap.isSome = true ∧ t.traps.length = 0) := by
  decide +kernel

/-- Crew 0 has lane 0 in a meeting whose deadline has come. -/
def meetingDue : State := w0.setCrew 0 { w0.crew 0 with meetings := [{ id := 3, sib := 3, wait := 1, deadline := some 0 }], now := 1 }

/-- Lane 0 is held back by a YIELD until cycle y of its core. -/
def heldBack (y : Nat) : State := withThr (fun t => { t with hold := some y }) w0

/-- Cluster 7 has a bin with one thread, which has a live register 63. -/
def withBin : State := { w0 with clusters := [(7, { cycle := 64, bins := [(31, { launch := 0, timer := 63, threads := [{ regs := [(63, 5)] }] })] })] }

theorem witness_TimedReleases : (∃ m, (meetingDue.crew 0).meeting 3 = some m ∧ m.deadline = some 0 ∧ 0 < (meetingDue.crew 0).now ∧ m.wait ≠ 0) ∧
    (((heldBack 0).crew 0).thr 0).hold = some 0 ∧ 0 ≤ (heldBack 0).cycleOf 0 ∧
    thas (withBin.cluster 7).bins 31 = true ∧ (tget {} (withBin.cluster 7).bins 31).timer < (withBin.cluster 7).cycle ∧
    withBin.spilledOf 7 = [] :=
  ⟨⟨_, rfl, rfl, by decide +kernel⟩, by decide +kernel, by decide +kernel, by decide +kernel, by decide +kernel, by decide +kernel⟩

/-- Core 0 of the one crew, changed. -/
def coreWith (f : Core → Core) : State := w0.setCore 0 (f (w0.core 0))

/-- Register 1 of the crew lies in its spill slot. -/
def spilled : State := w0.setCrew 0 { w0.crew 0 with map := setAt 64 none (w0.crew 0).map 1 (some { spilled := true }) }

theorem witness_PoolAndWindows : (let s : State := { w0 with clusters := [(0, { queue := [5] })] }
     s.crewsOn 0 ≠ [] ∧ (s.core 0).poolBanks < 16 ∧ 4 < (s.core 0).l1Banks ∧ (s.core 0).grow = none ∧ (s.cluster (clusterOf 0)).queue ≠ []) ∧
    (let s := coreWith fun c => { c with grow := some 0 }
     (s.core 0).grow = some 0 ∧ 0 ≤ (s.core 0).cycle) ∧
    (let s := coreWith fun c => { c with poolIdle := [none, none, some 0], cycle := 65536 }
     (s.core 0).staleBank = some 2) ∧
    (let s := coreWith fun c => { c with exhausted := some 0, cycle := 4096 }
     (s.core 0).exhausted = some 0 ∧ 0 + 4096 ≤ (s.core 0).cycle) ∧
    ((spilled.crew 0).reg 1 = some { spilled := true } ∧ (spilled.crew 0).core = some 0 ∧ spilled.mayAllocate 0 1 = true) ∧
    (let s := coreWith fun c => { c with windows := [{ launch := 0, banks := 2, joined := 1, joinAt := some 0 }] }
     (s.core 0).windows.find? (fun v => v.launch == 0) = some { launch := 0, banks := 2, joined := 1, joinAt := some 0 } ∧ 0 ≤ (s.core 0).cycle) ∧
    (let s := coreWith fun c => { c with cycle := 256, portUse := [0, 0, 0, 7] }
     (s.core 0).cycle % 256 = 0 ∧ (s.core 0).port = 0 ∧ (s.core 0).portUse.getD 3 0 ≠ 0) := by decide +kernel

/-- Every other crew of core 0 has an unretired entry that names all its registers, or none. -/
def spilling (busy : Bool) : State :=
  let s := { crowded with crews := crowded.crews.map fun (e : Nat × Crew) =>
    (e.1, { e.2 with area := some 8, rob := if busy then [{ srcs := List.range 64, dst := List.range 64 }] else [] }) }
  s.setCore 0 { s.core 0 with exhausted := some 0, cycle := 4096 }

theorem witness_PoolSpill : (spilling false).freeRegs 0 < 192 ∧ (spilling true).freeRegs 0 < 192 ∧ ((spilling false).nextSpill 0).isSome = true ∧
    (spilling true).nextSpill 0 = none ∧ ((spilling true).youngestBusy 0).isSome = true ∧
    (((spilling false).nextSpill 0).map fun x => (((spilling false).crew x.1).reg x.2).isSome) = some true ∧
    Memory.wf (spilling false).mem = true := by decide +kernel

theorem exists_ok {ε α : Type} {x : Except ε α} (h : x.toOption.isSome = true) : ∃ a, x = .ok a := by
  cases x with
  | error e => simp [Except.toOption] at h
  | ok a => exact ⟨a, rfl⟩

theorem exists_done {d : Done} (h : (match d with
    | .ok _ _ => true
    | _ => false) = true) : ∃ b bs, d = .ok b bs := by
  cases d <;> simp_all

theorem witness_HomeEvents : (0x2fffc : Dword).toNat < 2 ^ 49 ∧ (dataPage.aspace 1).live = true ∧ (∃ e, dataPage.lookupDie 3 1 0x2fffc = .ok e) ∧
    (∃ e, dataPage.translate 127 1 .read 0x2fffc = .ok e ∧ e.uc = false ∧ dataPage.inFlight 127 (e.cell 0x2fffc) = false ∧
      dataPage.ownedBy (e.cell 0x2fffc / 64 * 64) 64 = false ∧ dataPage.serves (e.cell 0x2fffc) = true ∧ 0 < (dataPage.core 127).l1Usable) ∧
    Memory.wf dataPage.mem = true ∧ (∃ u bs, dataPage.atomVirt 127 1 dataPage.nextLaunch 0 false 9 true 0x2fff8 1 0 = .ok u bs) ∧
    (∃ u bs, dataPage.atomVirt 127 1 dataPage.nextLaunch 0 false 10 false 0x20000 1 0 = .ok u bs) ∧
    (scratchCore.core 0).windows.find? (fun v => v.launch == 0) = some { launch := 0, banks := 1, joined := 1 } ∧
    ((spilled.crew 0).core = some 0 ∧ (spilled.crew 0).reg 1 = some { spilled := true }) := by
  refine ⟨by decide +kernel, by decide +kernel, exists_ok (by decide +kernel), ⟨{ asid := 1, va := 0x20000, size := 65536, leaf := 0x50807 }, ?_, ?_⟩, by decide +kernel,
    exists_done (by decide +kernel), exists_done (by decide +kernel), by decide +kernel, by decide +kernel⟩
  · decide +kernel
  · decide +kernel

/-- Command c of core 0 with its slot bound in register 20 of lane 0. -/
def withCmd (c : Cmd) (s : State) : State :=
  let s := s.setCrew 0 ((s.crew 0).write 20 1 (fun _ => future c.slot) 0 0)
  let s := s.setCore 0 { s.core 0 with slots := setAt 64 .free (s.core 0).slots c.slot (.busy c.id) }
  { s with cmds := s.cmds ++ [c], nextCmd := c.id + 1 }

/-- A command of the launch, in a phase. -/
def cmdOf (kind : CmdKind) (phase : CmdPhase) : Cmd := { id := 3, slot := 63, asid := 1, kind := kind, phase := phase }

theorem awaits_of {s : State} {c : Cmd} {st : Word} {ct : Nat} (h : s.cmd c.id = some c) (hs : c.slot < 64) (hp : c.phase = .written ct st)
    (ht : ct = 0 ∨ ct < s.dtime) : s.awaits c st := ⟨h, hs, ct, hp, ht⟩

theorem witness_CancelSlot : (let c := cmdOf (.nmrun 0x20000 {}) .queued
      let s := withCmd c dataPage
      (s.core 0).slot 63 = .busy 3 ∧ s.cmd 3 = some c ∧ c.core = 0 ∧ c.slot = 63 ∧ c.phase = .queued) ∧
    (let c := cmdOf (.launch 5) .queued
     let s := (withCmd c dataPage).setLaunch 5 { phase := .sending, deps := [.command 7] }
     (s.core 0).slot 63 = .busy 3 ∧ s.cmd 3 = some c ∧ (s.launch 5).phase = .sending ∧ (s.judgeDep (s.launch 5) (.command 7)).2 ≠ .met) := by
  decide +kernel

/-- A shape of one row of one element. -/
def oneByOne : Shape := { rows := 1, cols := 1, rowStride := 4, elemStride := 4 }

/-- A machine whose interface has its queue pair 15 bound, and a block record of one block of 512 bytes to 0x20100 at 0x20000. -/
def withRecord : State :=
  let m := Memory.writeN dataPage.mem (cellOf 0x50000 false) (leBytes 4 7 ++ leBytes 4 1 ++ leBytes 8 0 ++ leBytes 8 0x20100)
  ({ dataPage with mem := m } : State).setVi 0 { dataPage.vi 0 with qps := [(15, { ctrl := 1, nsid := 7, lba := 512 })] }

theorem witness_CopyRuns : (let c := cmdOf (.copy 0 0x20000 0 oneByOne none) .queued
    let s := withCmd c dataPage
    s.cmd c.id = some c ∧ c.phase = .queued ∧ s.mayWrite c.id = true) := by decide +kernel
theorem witness_CopyAndFetch :
    (let c := cmdOf (.copy 2 0x20000 0x20100 oneByOne (some 15)) (.written 99 (stDone 1))
     (withCmd c dataPage).awaits c (stDone 1)) ∧
    (let c := cmdOf (.fetch 15 0x20000 none) (.written 0 (stRefused 0))
     (withCmd c dataPage).awaits c (stRefused 0)) :=
  ⟨awaits_of (ct := 99) (by decide +kernel) (by decide) rfl (by decide +kernel), awaits_of (ct := 0) (by decide +kernel) (by decide) rfl (by decide +kernel)⟩

/-- What the start of a FETCH by a queue pair finds: the pair is bound, the record can be read, and its namespace is the pair's. -/
def fetchFinds (q : Nat) (record : Dword) : Bool × Bool × Bool :=
  let c := cmdOf (.fetch q record none) .queued
  let s := withCmd c withRecord
  let p := (s.vi (s.cmdVi c)).pair q
  let r := (s.engineLoad 0 1 record.toNat 32).2.toOption
  (p.isSome, r.isSome, (r.bind fun bs => p.map fun p => field (bs.map (·.val)) 0 4 == p.nsid).getD false)

theorem witness_FetchStarts : fetchFinds 0 0x20000 = (false, true, false) ∧ fetchFinds 15 0x40000 = (true, false, false) ∧
    fetchFinds 15 0x20020 = (true, true, false) ∧ fetchFinds 15 0x20000 = (true, true, true) ∧
    (let c := cmdOf (.fetch 15 0x20000 none) .queued
     (withCmd c withRecord).cmd c.id = some c ∧ c.phase = .queued ∧ (withCmd c withRecord).fetchBehind c 15 = false) := by decide +kernel
theorem witness_FetchDelivers :
    (let r : FetchReq := { count := 1, size := 512, dst := 0x20100 }
     let c := cmdOf (.fetch 15 0x20000 (some r)) .started
     let s := withCmd c withRecord
     s.cmd c.id = some c ∧ s.mayWrite c.id = true ∧ (List.replicate 512 (0 : Byte)).length = r.count * r.size ∧
     (s.fetchCells c r).2.map (·.isSome) = [true] ∧ (s.fetchCells c { r with dst := 0x40000 }).2.map (·.isSome) = [false]) := by decide +kernel

/-- An MMA of the tile of one element, in Q1 with a trigger or in Q0. -/
def mmaOf (t : Option (Nat × Nat)) : CmdKind := .mma oneByOne oneByOne false false true t.isSome t 0 false false

/-- An MDRAIN of the tile of one element by both scales. -/
def drainOf : CmdKind := .mdrain oneByOne true true false 0 false 0 1 0

theorem witness_MmaStart : (let c := cmdOf (mmaOf none) .queued
      let s := withCmd c scratchCore
      (∀ d ∈ s.cmds, d.core = 0 → d.kind.isMma = true → d.phase ≠ .started) ∧ s.startable 0 false = some c) ∧
    (let c := cmdOf (mmaOf (some (15, 0))) .queued
     let s := withCmd c scratchCore
     s.startable 0 false = none ∧ s.startable 0 true = some c) := by decide +kernel
theorem witness_DrainStart : (let c := cmdOf (.mzero 0 1) .queued
    let s := withCmd c scratchCore
    (∀ d ∈ s.cmds, d.core = 0 → d.kind.isDrain = true → d.phase ≠ .started) ∧
    (s.cmdsOf 0).find? (fun d => d.kind.isDrain && d.phase == .queued) = some c ∧
    ∀ d ∈ s.cmds, d.core = 0 → d.kind.isMma = true → d.alive = true → d.id < c.id → c.overlaps d = false) := by decide +kernel

/-- Command c is the one that completes next on core 0 among those of a kind. -/
def completesNext (f : CmdKind → Bool) (c : Cmd) : Bool :=
  (withCmd c scratchCore).completing 0 f == some c && (withCmd c scratchCore).cmd c.id == some c

theorem witness_MatrixEvents : ∀ p, p = CmdPhase.started ∨ p = .written 0 (stRefused 1) →
    completesNext CmdKind.isMma (cmdOf (mmaOf none) p) = true ∧
    completesNext (fun k => match k with | .mdrain .. => true | _ => false) (cmdOf drainOf p) = true ∧
    completesNext (fun k => match k with | .mzero .. => true | _ => false) (cmdOf (.mzero 0 1) p) = true ∧
    completesNext (fun k => match k with | .copys .. => true | _ => false) (cmdOf (.copys true 0 1023 1) p) = true := by
  rintro _ (rfl | rfl) <;> decide +kernel
theorem witness_MatrixAwaits (k : CmdKind) :
    (withCmd (cmdOf k (.written 0 (stRefused 1))) scratchCore).awaits (cmdOf k (.written 0 (stRefused 1))) (stRefused 1) :=
  awaits_of (ct := 0) rfl (show 63 < 64 by decide) rfl (.inl rfl)

/-- A record of 8 bytes on its way. -/
def record : Placement := { owner := some (0, 0), key := 5, data := List.replicate 8 7 }

theorem witness_BagEvents :
    (let s : State := { withBag { cap := 1 } with reservations := [⟨1, .put 1 0 0 5 (List.replicate 8 7)⟩] }
     s.reservations[0]? = some ⟨1, .put 1 0 0 5 (List.replicate 8 7)⟩ ∧ (s.bag 1 0).resident + (s.bag 1 0).reserved < (s.bag 1 0).cap ∧
     (s.bag 1 0).live = true ∧ (s.bag 1 0).gen = 0 ∧ (List.replicate 8 (7 : Byte)).length + 8 = 16 * 2 ^ (s.bag 1 0).size) ∧
    (let s := withBag { cap := 1, reserved := 1, shares := [(0, { queue := [record] })] }
     ((s.bag 1 0).share 0).queue ≠ [] ∧ ((s.bag 1 0).share 0).placing = false ∧ Memory.wf s.mem = true) ∧
    (let s := withBag { cap := 1, reserved := 1, shares := [(0, { queue := [{ record with written := some (0, 9) }] })] }
     ((s.bag 1 0).share 0).queue = [{ record with written := some (0, 9) }]) ∧
    (let c := cmdOf (.bdrain 0 0 1 0 0) .queued
     let s := (withCmd c (withBag { cap := 1, resident := 1, shares := [(0, { c := 1 })] })).setCore 0 (scratchCore.core 0)
     s.cmd c.id = some c ∧ ((s.bag 1 0).share 0).placing = false ∧ 0 < ((s.bag 1 0).share 0).c ∧
     ((s.core 0).windows.find? (fun v => v.launch == 0)).isSome = true ∧ Memory.wf s.mem = true ∧
     Memory.wf ((s.core 0).window 0).scratch = true) ∧
    (let c := cmdOf (.bdrain 0 0 1 0 1) .started
     let s := withCmd c (withBag { cap := 1, resident := 1 })
     s.cmd c.id = some c ∧ ((s.bag 1 0).share 0).placing = false) ∧
    (let c := cmdOf (.bdrain 0 0 1 0 1) (.written 99 (stDone 1))
     (withCmd c dataPage).awaits c (stDone 1)) := by
  refine ⟨by decide +kernel, by decide +kernel, by decide +kernel, by decide +kernel, by decide +kernel, ?_⟩
  exact awaits_of (ct := 99) (by decide +kernel) (by decide) rfl (by decide +kernel)

/-- A machine with a parameter block at 0x20000 that names pseudo-channel 0 and uses no stream. -/
def withBlock : State :=
  ({ dataPage with mem := Memory.writeN dataPage.mem (cellOf 0x50008 false) [1] } : State).setPch 0 { tag := some 1, store := [(0, encodeMicro .mEnd)] }

/-- The block as it is read. -/
def block : NmBlock := nmBlockOf (List.replicate 8 0 ++ [1] ++ List.replicate 247 0)

theorem witness_NearMemoryEvents :
    (let c := cmdOf (.nmload 0x20000 511 64) .queued
     (withCmd c dataPage).cmd c.id = some c ∧ (withCmd c dataPage).nmFirst c = true ∧ c.slot < 64) ∧
    (let c := cmdOf (.nmload 0x20000 0 1) .queued
     let s := (withCmd c dataPage).setVi 0 { dataPage.vi 0 with pcs := [0] }
     s.cmd c.id = some c ∧ s.nmFirst c = true ∧ (0 : Nat) ∈ (s.vi (s.aspace 1).vi).pcs ∧ (s.engineRecord 0 1 0x20000 1).2.toOption.isSome = true) ∧
    (let c := cmdOf (.nmarm block [0x20000]) .queued
     (withCmd c dataPage).cmd c.id = some c ∧ ([0x20000].any fun va => ((withCmd c dataPage).sealOf c.asid va).isSome) = false ∧
     (withCmd c dataPage).pageQuiet c.asid 0x20000 = true) ∧
    (let c := cmdOf (.nmarm block [0x20000]) (.written 0 (stRefused 0))
     (withCmd c dataPage).awaits c (stRefused 0)) ∧
    (let c := cmdOf (.nmrun 0x20000 {}) .queued
     let s := withCmd c withBlock
     s.firstRun 0 = some (c, 0x20000) ∧ s.cmd c.id = some c ∧ s.nmFirst c = true ∧
     ((s.readBlock 0 1 0x20000).2.map fun r => (r.1, decide (r.2 = block))).toOption = some (false, true) ∧
     (s.readBlock 0 1 0x20000).1.runOk 1 block = true ∧ ((s.readBlock 0 1 0x20000).1.admitsRun block).isSome = true) ∧
    (let c := cmdOf (.nmrun 0x20000 block) .started
     let s := (withCmd c withBlock).setPch 0 { run := some 3, ended := true }
     s.cmd c.id = some c ∧ (∀ n ∈ block.pchs, (s.pch n).run = some 3 ∧ (s.pch n).ended = true ∧ (s.pch n).ready s.dtime = true) ∧ block.pchs = [0]) ∧
    (let c := cmdOf (.nmrun 0x20000 block) (.written 99 (stDone 0))
     (withCmd c withBlock).awaits c (stDone 0)) ∧
    (let c := cmdOf (.nmdisarm 0x20000) .queued
     let s := withCmd c withBlock
     s.cmd c.id = some c ∧ s.nmFirst c = true ∧ block.ok = true ∧ (s.readBlock 0 1 0x20000).1.allSealed 1 block = true) ∧
    (let s := State.reset.setPch 511 { run := some 0 }
     (s.pch 511).resumeAt = none ∧ (s.pch 511).computing = true ∧ (s.pch 511).ready s.dtime = true) ∧
    (let s := State.reset.setPch 511 { run := some 0, resumeAt := some 0 }
     (s.pch 511).resumeAt = some 0 ∧ 0 ≤ s.dtime) := by
  refine ⟨by decide +kernel, by decide +kernel, by decide +kernel, ?_, by decide +kernel, by decide +kernel, ?_, by decide +kernel, by decide +kernel,
    by decide +kernel⟩
  · exact awaits_of (ct := 0) (by decide +kernel) (by decide) rfl (.inl rfl)
  · exact awaits_of (ct := 99) (by decide +kernel) (by decide) rfl (by decide +kernel)

/-- A call of a service by lane 0, with its request and the replies so far. -/
def call (n : Nat) (x y : Nat) (replies : List (Option Word)) : State :=
  withCmd (cmdOf (.scall n 1 [] [leBytes 8 x ++ leBytes 8 y] replies) .queued) (dataPage.setVi 0 { dataPage.vi 0 with memQuota := 64 })

theorem witness_ServiceEvents :
    ((call 1 1 0x20000 (List.replicate 32 none)).request 3 0 1).isSome = true ∧
    (((call 1 1 0x20000 (List.replicate 32 none)).request 3 0 1).map fun r =>
      (call 1 1 0x20000 (List.replicate 32 none)).serviceHeld r.1 0x20000 8) = some false ∧
    ((call 2 0x1000000000000 0 (List.replicate 32 none)).request 3 0 2).isSome = true ∧
    (let s := call 2 0x1000000000000 0 (List.replicate 32 none)
     let t := s.setAspace 1 { s.aspace 1 with allocs := [⟨0x1000000000000, 1, none⟩] }
     ((t.aspace 1).allocs.find? fun r => r.base == 0x1000000000000).isSome = true ∧ t.rangeQuiet 1 0x1000000000000 1 = true) ∧
    ((call 0x10 0x20000 0 (List.replicate 32 none)).request 3 0 0x10).isSome = true ∧
    (((call 0x10 0x20000 0 (List.replicate 32 none)).request 3 0 0x10).map fun r =>
      (call 0x10 0x20000 0 (List.replicate 32 none)).serviceHeld r.1 0x20018 8) = some false ∧
    (let s := (call 0x11 0x100000000 0 (List.replicate 32 none)).setBag 1 0 { live := true, cap := 1, base := 0x20000 }
     (s.request 3 0 0x11).isSome = true ∧ s.handle 1 0x100000000 = some 0 ∧ s.freeing 3 0 = none ∧ s.bagBusy 1 0 = false ∧
     s.rangeQuiet 1 0x20000 1 = true) ∧
    (let s := (call 0x11 0x100000000 0 (List.replicate 32 none)).setBag 1 0 { gen := 1, cap := 1, base := 0x20000, freeing := some (3, 0) }
     s.freeing 3 0 = some (1, 0) ∧ s.bagBusy 1 0 = false ∧ s.rangeQuiet 1 0x20000 1 = true) ∧
    ((call 0x20 0x20000 0 (List.replicate 32 none)).request 3 0 0x20).isSome = true ∧
    (let s := call 1 1 0x20000 (some 0 :: List.replicate 31 none)
     (s.cmds.map (·.id)) = [3] ∧ (s.launch 0).killCause = none ∧ (s.cmd 3).map (·.ct) = some 0) ∧
    ((call 3 0 0 []).cmd 3).isSome = true ∧
    ((call 3 0 0 []).setLaunch 0 { (call 3 0 0 []).launch 0 with killCause := some 9 }).cmd 3 = (call 3 0 0 []).cmd 3 := by
  decide +kernel

/-- Crew k of launch 0 waits in the queue of its cluster. -/
def waiting (k : Nat) : State := { w0 with crews := w0.crews ++ [(k, { launch := 0 })], clusters := [(0, { queue := [k] })], nextCrew := k + 1 }

/-- The crews of core 0 are of class 1; 11 crews of a launch of class 0 wait for that core. -/
def outclassed : State :=
  { crowded with
    crews := crowded.crews ++ (List.range 11).map fun k => (20 + k, { launch := 1, chosen := some 0 }), clusters := [(0, { queue := (List.range 11).map (20 + ·), cycle := 1 })]
    launches := [(0, { w0.launch 0 with cls := 1 }), (1, { asid := 1 })] }

/-- Launch 5, of address space 1, in a phase. -/
def launch5 (x : Launch) : State := { dataPage with launches := dataPage.launches ++ [(5, { x with asid := 1 })], nextLaunch := 6 }

theorem witness_LaunchEvents :
    (let s := w0.setVi 3 { queues := [(7, { asid := 1, base := 0x20000, log2 := 4, head := 15, tail := 0 })] }
     thas (s.vi 3).queues 7 = true ∧ (15 : Word).toNat < 2 ^ (tget {} (s.vi 3).queues 7).log2 ∧
     (tget {} (s.vi 3).queues 7).head ≠ (tget {} (s.vi 3).queues 7).tail) ∧
    (let s := launch5 { phase := .sending, parent := some (0, 0) }
     thas s.launches 5 = true ∧ (s.launch 5).phase = .sending ∧ (s.launch 5).parent = some (0, 0) ∧
     s.outstanding 0 (((s.cmd 0).map (·.tid)).getD 0) = false) ∧
    (let s := launch5 { phase := .accepted, count := 33, entry := 0x10004 }
     let x := s.launch 5
     thas s.launches 5 = true ∧ x.phase = .accepted ∧ x.startAfter = 0 ∧ x.deps = [] ∧ x.aff ≠ 2 ∧ x.cp = false ∧ x.herdsBad x.count = false ∧
     0 < x.count ∧ x.windowBytes < 65536) ∧
    (let s := launch5 { phase := .accepted, count := 1, lsize := 256 }
     let x := s.launch 5
     65536 ≤ x.windowBytes ∧ (s.reserve x.asid ((x.count + 65536) * (x.windowBytes / 65536))).isSome = true) ∧
    (let s := launch5 { phase := .accepted, deps := [.known (stFaulted 0)], startAfter := 99 }
     (s.mapM (fun s d => s.judgeDep (s.launch 5) d) (s.launch 5).deps).2.contains .faulted ∨
       (s.mapM (fun s d => s.judgeDep (s.launch 5) d) (s.launch 5).deps).2.contains .other) ∧
    (let s := launch5 { phase := .accepted, deps := [.event 0x40000] }
     (s.mapM (fun s d => s.judgeDep (s.launch 5) d) (s.launch 5).deps).2.contains .faulted) ∧
    (let s := launch5 { phase := .closing (stRefused 0), event := 0x20008 }
     thas s.launches 5 = true ∧ s.launchOutcome 5 = some (stRefused 0) ∧ (s.writeEvent 5 (stRefused 0)).isSome = true ∧
     (s.launch 5).event % 8 = 0) ∧
    (let s := launch5 { phase := .running, parent := some (0, 3) }
     let c := cmdOf (.launch 5) .queued
     let t := { withCmd c s with launches := s.launches }
     t.launchOutcome 5 = some (stDone 0) ∧ (t.writeEvent 5 (stDone 0)).isSome = true ∧ t.cmd 3 = some c ∧ c.slot < 64) ∧
    (waiting 5).admitNext 0 = some (0, 5, 0) := by decide +kernel

theorem witness_Preemption :
    (let s := w0.setCrew 0 { w0.crew 0 with leaving := true }
     s.readyVictim 0 = some 0) ∧
    (outclassed.crews.map (·.1)).Pairwise (· < ·) ∧ outclassed.readyVictim 0 = none ∧
    (outclassed.cluster 0).preempted < (outclassed.cluster 0).cycle ∧ 0 ∈ outclassed.viOrder 0 ∧ 20 ∈ outclassed.waitingOf 0 0 ∧
    outclassed.admitCore 20 = none ∧
    (∀ n, n < 16 → outclassed.freeSoon (16 * 0 + n) < 96 * (outclassed.cluster 0).queue.countP fun n =>
      (outclassed.crew n).launch == (outclassed.crew 20).launch && (outclassed.crew n).herdSet == (outclassed.crew 20).herdSet) ∧
    (outclassed.victimOn (16 * 0 + 0) (outclassed.launch (outclassed.crew 20).launch).cls).isSome = true := by decide +kernel

theorem witness_OutsideWrites : (isHost hostBase = true ∧ hostBase + [(7 : Byte)].length ≤ 2 ^ 46) ∧
    (isHost 0x500ff = false ∧ physForm 0x500ff 1 = true) ∧ (State.reset.vi 0).grants 0x50000 = false ∧
    ((dataPage.vi 0).grants 0x50000 = true ∧ dataPage.codeLocked 0x50000 = false) ∧
    ({ dataPage with locked := [5] } : State).codeLocked 0x500ff = true ∧ (dataPage.ckpt = .idle ∧ dataPage.held = []) ∧
    dataPage.ownedBy (cellOf 0x500ff false) 1 = false ∧ dataPage.ownedBy (cellOf 0x50000 false) 256 = false ∧ 0x50000 % 256 = 0 := by
  decide +kernel
theorem witness_Ports : (tget {} w0.supex 47).down = false ∧ (tget {} w0.supex 47).retries + 1 ≠ 16 ∧
    (let s : State := { w0 with supex := [(47, { retries := 15 })] }
     (tget {} s.supex 47).down = false ∧ (tget {} s.supex 47).retries + 1 = 16) ∧
    (let s : State := { w0 with peerReads := [(46, 0), (47, 0x50000)] }
     s.peerReads.find? (fun r => r.1 == 47) = some (47, 0x50000)) ∧ 0 < 512 ∧ 512 % 256 = 0 := by decide +kernel
theorem witness_Remote : w0.ueDown.contains 1 = false ∧ w0.ckpt = .idle ∧ w0.ueFlights = [] ∧
    (let s := w0.setVi 3 { queues := [(7, { asid := 1, base := 0x20000, log2 := 4, head := 1, tail := 15 })] }
     thas (s.vi 3).queues 7 = true ∧ (15 + 1) % 2 ^ 4 ≠ (tget {} (s.vi 3).queues 7).head) ∧
    (let s := dataPage.setVi 3 { queues := [(7, { asid := 1, base := 0x20000, log2 := 4 })] }
     (s.translateRepair 0 1 .write 0x20000).2.toOption.isSome = true ∧ (s.queueRecord 3 7 (List.replicate 128 1)).isSome = true) := by
  decide +kernel
theorem witness_LinkTrain : 7 ∈ [5, 6, 7, 9] ∧ ∀ g ∈ [5, 6, 7, 9], g ≤ 7 ∨ 7 < g := by decide
theorem witness_HostAndFabric : ({ State.reset with boot := .recovery } : State).boot = .recovery ∧ (w0.crews.map (·.1)).Pairwise (· < ·) ∧
    ({ State.reset with ckpt := .quiescing } : State).unsettled = false ∧
    (let s : State := { dataPage with ckpt := .streaming, held := [⟨some 0, some 47, 0x50000, [1], [], false⟩] }
     s.ckpt = .streaming ∧ s.held = [⟨some 0, some 47, 0x50000, [1], [], false⟩] ∧ s.ueFlights = [] ∧ s.owned = [] ∧ Memory.wf s.mem = true) := by
  decide +kernel
theorem witness_MapExecutable : (dataPage.aspace 1).live = true ∧ dataPage.pageAsked 1 0x30000 0x6080b false = true ∧
    dataPage.pageAsked 1 0x30000 0x6080f false = true ∧ dataPage.pageAsked 1 0x40000000 0x2000080b true = true ∧
    ([0x30000, 0x40000000].map fun (v : Dword) => v.toNat).Pairwise (· < ·) ∧ (dataPage.leafAddr 1 0x30000).isSome = true ∧
    Memory.wf dataPage.mem = true := by decide +kernel
theorem witness_Shootdown : (dataPage.entryAddr 1 0x20000 3).isSome = true ∧
    ((dataPage.entryAddr 1 0x20000 3).map fun pa => pteV (dataPage.readPhys pa)) = some true ∧
    dataPage.pagesIn 1 0x20000 3 0 = [] ∧
    (dataPage.pagesIn 1 0x20000 3 0x60803).map (fun p => (pteX p.leaf, dataPage.leafQuiet 1 p)) = [(false, true)] ∧
    (dataPage.pagesIn 1 0x20000 3 0x50807).map (fun p => (pteX p.leaf, dataPage.leafQuiet 1 p)) = [(false, true)] := by decide +kernel

/-- A debugger is attached to the launch, whose one crew is in herd 0. -/
def debugged : State := inHerd.setLaunch 0 { inHerd.launch 0 with debugger := true, herds := [⟨0, 1, 1, 0⟩] }

theorem witness_Mailbox : w0.walk (w0.aspace 1).root (2 ^ 49 - (512 - 511) * 65536) = .error causeNotPresent ∧
    w0.walk (w0.aspace 1).root (2 ^ 49 - (512 - 0) * 65536) = .error causeNotPresent := by decide +kernel
theorem witness_SystemSoftware :
    debugged.haltSet 0 (.herd 0) = some [0] ∧
    (let s := w0.setLaunch 0 { w0.launch 0 with debugger := true }
     s.haltSet 0 (.thread 0) = some [0]) ∧
    (let s := debugged.setCrew 0 { debugged.crew 0 with halted := true }
     s.haltSet 0 (.herd 0) = some [0] ∧ (s.crew 0).halted = true ∧ (s.crew 0).stepping = none) ∧
    (thas (launch5 { phase := .sending }).launches 5 = true ∧ ((launch5 { phase := .sending }).launch 5).phase = .sending ∧
      ((launch5 {}).launch 5).phase = .accepted) ∧
    (thas w0.launches 0 = true ∧ (w0.launch 0).phase = .running ∧ (w0.launch 0).killCause = none ∧ (w0.crews.map (·.1)).Pairwise (· < ·) ∧
      (w0.crew 0).launch = 0) ∧
    (thas w0.vis 1023 = false ∧ thas w0.vis 0 = true) ∧
    (let s := w0.setVi 0 { w0.vi 0 with asidQuota := 2 }
     (s.aspace 4095).live = false ∧ (s.aspaces.countP fun e => e.2.live && e.2.vi == 0) < (s.vi 0).asidQuota ∧ 0x50000 % 1024 = 0 ∧
     backed 0x50000 = true ∧ 256 ≤ 16384 ∧ 16384 % 256 = 0) ∧
    (let s : State := { w0 with launches := [(0, { w0.launch 0 with phase := .done (stDone 0) })] }
     (s.aspace 1).live = true ∧ s.spaceBusy 1 = false) ∧
    w0.asidsOf 0 = [1] ∧ ((w0.aspace 1).live = true ∧ (0x1ffffffff0000 : Dword).toNat % 65536 = 0 ∧ (0x1ffffffff0000 : Dword).toNat + 1 * 65536 ≤ 2 ^ 49) ∧
    (500 ≤ w0.capWatts) ∧ 0 < 2 ^ 30 ∧ 0 + 2 ^ 30 ≤ 2 ^ 30 := by decide +kernel

/-! ### The same for instructions that issue or execute behind others, and for what the rules add -/

/-- A crew none of whose registers has been written hides no source. -/
theorem clears_of_empty {v : Crew} (h : ∀ r, v.reg r = none) (o : Operands) (g : Mask) : v.clears o g := by
  refine ⟨.inr fun l r _ _ => ?_, fun _ r _ q hq => ?_⟩
  · rw [Crew.lane_eq, h]; rfl
  · rw [h] at hq; cases hq

/-- The crew of w0 has unretired entries, of which the last may execute. -/
def behind (es : List RobEntry) : State := w0.setCrew 0 { w0.crew 0 with rob := es }

/-- A load that has not executed. -/
def loading : RobEntry := { issue := { mask := 1, instr := .ld 5 4 0 2 0 false }, srcs := [4], dst := [5] }

/-- An instruction of lane 0 behind the load. -/
def later (i : Instr) (o : Operands) : State :=
  let s := behind [loading, { issue := { mask := 1, instr := i }, srcs := o.srcs, dst := o.dst }]
  { s with cur := { s.cur with instr := i, early := some 1 } }

theorem behind_reg (es : List RobEntry) (r : Nat) : (behind es).curCrew.reg r = none := by
  have h : (behind es).curCrew = { w0.crew 0 with rob := es } := by
    change (w0.setCrew 0 _).crew 0 = _
    simp
  have := w0_reg r
  unfold Crew.reg at *
  rw [h]
  exact this

theorem witness_BehindOthers : (let s := behind [loading]
      s.standing = true ∧ s.cur.early = none ∧ s.cur.entry = false ∧ s.curCrew.stepping = none ∧ s.curCrew.rob ≠ [] ∧
      ((opsRR 3 1 2).banks s.curCrew).any (s.core s.curCore).clash.contains = false ∧
      s.curCrew.ready 1 s.cur.mask [1, 2] [] = true ∧ s.curCrew.ready 1 s.cur.mask [5] [] = false ∧
      executesEarly (.mul 3 1 2) = true ∧ executesEarly (.ld 3 1 0 2 0 false) = false) ∧
    (let s := pending.setCrew 0 { pending.crew 0 with rob := [loading] }
     s.standing = true ∧ ((s.curCrew.seen 1).guarded s.cur).getLsbD 0 = true ∧ s.curCrew.ready 1 (laneMask 0) [20] [] = true ∧
     ((s.curCrew.seen 1).lane 20 0).pend = true) ∧
    (let s := (withReg 2 0x20 pending).setCrew 0 { (withReg 2 0x20 pending).crew 0 with rob := [loading] }
     s.standing = true ∧ (s.thrAt 0).got = none ∧ ((s.curCrew.seen 1).rd2 2 0).getLsbD 5 = true ∧ ((s.core s.curCore).slot 5).ready = false) := by
  decide +kernel
theorem witness_IssuesBehind : (behind [loading]).issuesBehind (opsRR 3 1 2) ∧
    ((behind [loading]).curCrew.seen 1).clears (opsRR 3 1 2) 1 :=
  ⟨⟨by decide +kernel, rfl, rfl, .inr (.inl rfl), by decide +kernel, List.cons_ne_nil _ _⟩, clears_of_empty (behind_reg [loading]) _ _⟩
theorem witness_ExecutesEarly : (later (.mul 3 1 2) (opsRR 3 1 2)).cur.early = some 1 ∧
    ((later (.mul 3 1 2) (opsRR 3 1 2)).curCrew.rob[1]?.map fun e => e.res.isNone) = some true ∧
    (later (.mul 3 1 2) (opsRR 3 1 2)).curCrew.core = some (later (.mul 3 1 2) (opsRR 3 1 2)).curCore ∧
    ((later (.mul 3 1 2) (opsRR 3 1 2)).curCrew.seen 1).clears (opsRR 3 1 2) 1 :=
  ⟨rfl, by decide +kernel, by decide +kernel, clears_of_empty (fun r => behind_reg [loading, { issue := { mask := 1, instr := .mul 3 1 2 }, srcs := [1, 2], dst := [3] }] r) _ _⟩

/-- The machine whose oldest entry has executed with a result, or with none. -/
def executed (r : Result) : State :=
  let s := behind [{ issue := { mask := 1, instr := .mul 5 1 2 }, srcs := [1, 2], dst := [5], res := some r, banks := [0] }]
  { s with cur := { s.cur with entry := true } }

theorem witness_Results : (let r : Result := { go := 1, eff := [gives 7] }
      let s := executed r
      s.standing = true ∧ s.cur.early = none ∧ s.cur.entry = true ∧ (s.curCrew.rob.map fun e => (e.res.isSome, e.lacks, e.dst, e.ends)) = [(true, 0, [5], [])] ∧
      r.go &&& s.cur.mask = s.active ∧ s.cur.fresh = false) ∧
    (∀ l, l < 32 → (0 : Mask).getLsbD l = (executed { go := 1, eff := [gives 7] }).readsDead (opsRR 5 1 2) l) := by decide +kernel

theorem witness_Seen : (behind [{ issue := { mask := 1, guard := 15 } }]).standing = true ∧
    (let s : State := { w0 with cur := { w0.cur with guard := 15 } }
     s.cur.early = none ∧ s.headResult.isNone = true) := by decide +kernel

/-- The packet at 0x10010 marks its slot B as an extension word. -/
def extended : State := { w0 with mem := Memory.writeN w0.mem (cellOf 0x40010 false) (leBytes 4 2) }

theorem witness_Targets : w0.target 0 1 0x10014 = .ok ⟨0, 0, 0, 0⟩ ∧ w0.target 0 1 0x10010 = .error (causeMisalign, 0x10010) ∧
    w0.target 0 1 0x2000000000004 = .error (causeProt, 0x2000000000004) ∧ w0.target 0 1 0x20004 = .error (causeNotPresent, 0x20000) ∧
    dataPage.target 0 1 0x20004 = .error (causeProt, 0x20000) ∧ extended.target 0 1 0x10018 = .error (causeMisalign, 0x10018) ∧
    (extended.target 0 1 0x10014).toOption.isSome = true := by decide +kernel

/-- The leaf of the page at 0x20000, or the second entry above it. -/
def withLeaf (leaf : Nat) : State := { w0 with mem := Memory.writeN w0.mem (cellOf 0x30010 false) (leBytes 8 leaf) }

theorem witness_Walk : (w0.walk 0x10000 0x20000).toOption = none ∧ ((withLeaf 0x50807).walk 0x10000 0x20000).toOption.isSome = true ∧
    ((withLeaf 0x50003).walk 0x10000 0x20000).toOption = none ∧
    (({ w0 with mem := Memory.writeN w0.mem (cellOf 0x20008 false) (leBytes 8 0x20000807) } : State).walk 0x10000 0x20000000).toOption.isSome = true := by
  decide +kernel
theorem witness_Permissions : ((withLeaf 0x50807).translate 0 1 .write 0x20000).toOption.isSome = true ∧
    (withLeaf 0x50803).translate 0 1 .write 0x20000 = .error causeProt ∧ (withLeaf 0x50827).translate 0 1 .write 0x20000 = .error causeProt ∧
    ({ withLeaf 0x50807 with locked := [5] } : State).translate 0 1 .write 0x20000 = .error causeProt ∧
    (withLeaf 0x50807).translate 0 1 .fetch 0x20000 = .error causeProt ∧ w0.translate 0 1 .read 0x2000000000000 = .error causeProt ∧
    ({ withLeaf 0x50807 with vis := [] } : State).translate 0 1 .read 0x20000 = .error causeProt := by decide +kernel

/-- The one crew is off its core, with an eviction area at frame 8. -/
def evicted (s : State) : State :=
  s.setCrew 0 { s.crew 0 with
    core := none, evicted := true, area := some 8
    map := setAt 64 none (s.crew 0).map 60 (some { lanes := [live 128] }) }

theorem witness_TrapOrder : ((inTrap 9 0 2).launch 0).phase = .running ∧ ((inTrap 9 0 2).launch 0).killCause = none ∧
    ((inTrap 9 0 2).unspill 0 [60, 61, 62, 63]).isSome = true ∧ ((inTrap 9 0 2).traps.map (inTrap 9 0 2).kills) = [false] ∧
    ((inTrap 9 0 0).traps.map (inTrap 9 0 0).kills) = [true] ∧
    (let s : State := { inTrap 9 0 0 with dtime := 0 }
     s.traps.map (fun r => decide (r.dtime < s.dtime)) = [false]) ∧
    (let s := evicted (inTrap 9 0 2)
     (s.trapThread { asid := 1, info := ⟨9, 0x10004, 0x10008, 0⟩ }).isSome = true ∧
     ((s.dropTrap 0).unspill 0 [60, 61, 62, 63]).isSome = true ∧ (s.crew 0).core = none ∧ (s.crew 0).area.isSome = true ∧
     (((s.crew 0).rd2 60 0 &&& ~~~ 15) - 64).toNat + 64 ≤ (s.launch 0).localBytes ∧ Memory.wf s.mem = true ∧
     okWith ((s.dropTrap 0).storeFrame 0 1 0 0 0x20040 (chunks 16 4 (trapFrame (s.crew 0) 0 ⟨9, 0x10004, 0x10008, 0⟩))) (fun _ _ => true) = true) := by
  decide +kernel
theorem witness_HoldClocks : 0 ≤ (heldBack 0).holdClock 0 ∧ 0 ≤ (evicted (heldBack 0)).holdClock 0 ∧ ((evicted (heldBack 0)).crew 0).core = none ∧
    ((coreWith fun c => { c with cycle := 256, portUse := [0, 0, 0, 7] }).core 0).ports = [] := by decide +kernel
theorem witness_Starving : (behind [{ why := some 0 }]).starving 0 = true ∧ (behind [{ why := some 4 }]).starving 0 = false ∧
    ((behind [{ why := some 0 }]).crewsOn 0).length = 1 := by decide +kernel
theorem witness_CopyServes : (let c := cmdOf (.copy 0 0x20000 0 oneByOne none) .queued
      (withCmd c dataPage).servesCmd c = true) ∧
    (let c := cmdOf (.fetch 15 0x20000 none) .queued
     (withCmd c withRecord).servesCmd c = true) ∧
    (let c := cmdOf (.fetch 15 0x20000 (some { count := 1, size := 512, dst := 0x20100 })) .started
     (withCmd c withRecord).servesCmd c = true) := by decide +kernel

/-- An MMA runs, and another that was refused has its status. -/
def refusedBehind : State :=
  withCmd { cmdOf (mmaOf none) (.written 0 (stRefused 1)) with id := 4, slot := 62 } (withCmd (cmdOf (mmaOf none) .started) scratchCore)

theorem witness_RefusedFirst : (refusedBehind.completing 0 CmdKind.isMma).map (·.id) = some 4 ∧
    ((refusedBehind.cmdsOf 0).find? fun d => d.kind.isMma && d.phase != .queued && d.phase != .started).map (·.id) = some 4 := by decide +kernel
theorem witness_RefusedAwaits : refusedBehind.awaits { cmdOf (mmaOf none) (.written 0 (stRefused 1)) with id := 4, slot := 62 } (stRefused 1) :=
  awaits_of (ct := 0) rfl (show 62 < 64 by decide) rfl (.inl rfl)
theorem witness_BagOpens : (let s := withBag { cap := 1, reserved := 1, shares := [(0, { queue := [record] })] }
      s.opens ((s.bag 1 0).pch 0) = true) ∧
    (dataPage.slotPlace 0 1 0x20000).2.toOption.isSome = true ∧ ((withLeaf 0x50827).slotPlace 0 1 0x20000).2.toOption = none ∧
    (({ withLeaf 0x50807 with locked := [5] } : State).slotPlace 0 1 0x20000).2.toOption = none := by decide +kernel
theorem witness_NearMemoryServes : (let c := cmdOf (.nmload 0x20000 511 64) .queued
      (withCmd c dataPage).servesCmd c = true) ∧
    (let c := cmdOf (.nmdisarm 0x20000) .queued
     (withCmd c withBlock).servesCmd c = true) ∧
    (let c := cmdOf (.nmrun 0x20000 {}) .queued
     let s := withCmd c withBlock
     s.servesVas c.core c.asid ((List.range 4).map fun i => 0x20000 + 64 * i) = true ∧
     (s.readBlock 0 1 0x20000).1.servesVas c.core c.asid ((List.range block.vecLen).map fun i => block.vecSrc + 4 * i) = true) ∧
    (State.reset.setPch 511 { run := some 0, resumeAt := some 0 }).cmds = [] := by decide +kernel
theorem witness_RecordServes : (let s := dataPage.setVi 3 { queues := [(7, { asid := 1, base := 0x20000, log2 := 4, head := 15, tail := 0 })] }
      s.servesVas 0 1 (s.recordVas { asid := 1 } (0x20000 + 128 * 15)) = true) ∧
    (let s := launch5 { phase := .sending, parent := some (0, 0), record := 0x20000 }
     s.servesVas (s.launchCore (s.launch 5)) (s.launch 5).asid (s.recordVas (s.launch 5) 0x20000) = true) ∧
    (call 0x20 0x20000 0 (List.replicate 32 none)).servesVas 0 1 ((List.range 256).map fun i => 0x20000 + i) = true := by decide +kernel
theorem witness_EventWord : (let s := launch5 { phase := .closing (stRefused 0), event := 0x20008 }
    let r := s.translateRepair (s.launchCore (s.launch 5)) 1 .write 0x20008
    r.2.toOption.isSome = true ∧ r.1.ownedBy (cellOf 0x50008 false) 8 = false ∧ r.1.serves (cellOf 0x50008 false) = true ∧ Memory.wf r.1.mem = true) := by
  decide +kernel

/-- An evicted crew of launch 0 waits in the queue of its cluster, its register 60 in its eviction area. -/
def readmitted : State := evicted { w0 with clusters := [(0, { queue := [0] })] }

theorem witness_Readmitted : (readmitted.admitNext 0).isSome = true ∧ (readmitted.crew 0).evicted = true ∧ (readmitted.crew 0).area.isSome = true ∧
    ((readmitted.crew 0).lane 60 0).st = .live ∧ ((readmitted.crew 0).reg 60).map (fun p => (p.bank, p.spilled)) = some (none, false) ∧
    (let s := (withReg 60 5 w0).setCrew 0 { (withReg 60 5 w0).crew 0 with leaving := true, area := some 8 }
     s.readyVictim 0 = some 0 ∧ (s.crew 0).saved.length ≤ 32768 ∧ Memory.wf s.mem = true ∧ (((s.crew 0).reg 60).bind (·.bank)).isSome = true) := by
  decide +kernel
theorem witness_HeldWrites : (let h : HeldWrite := ⟨some 0, some 47, 0x50000, [1], [], false⟩
      (dataPage.vi 0).grants 0x50000 = true ∧ dataPage.codeLocked 0x50000 = false ∧ dataPage.ownedBy (cellOf h.pa false) 1 = false ∧
      dataPage.serves (cellOf h.pa false) = true ∧ ({ dataPage with locked := [5] } : State).codeLocked h.pa = true ∧
      (({ dataPage with vis := [] } : State).vi 0).grants h.pa = false) ∧
    dataPage.leafAddr 1 0x30000 = some (0x30018, 2 ^ 16) ∧ dataPage.serves (cellOf 0x50000 false) = true := by decide +kernel
theorem witness_QuietGrant : (let s := dataPage.setVi 1 {}
      thas s.vis 1 = true ∧ (∀ f ∈ s.flights, f.applied = true) ∧ s.owned = [] ∧ (∀ e ∈ s.crews, e.2.area = none) ∧
      ∀ e ∈ s.launches, e.2.areas ++ e.2.broodAreas = []) ∧
    (let s := storing.setVi 1 {}
     (∃ f ∈ s.flights, f.applied = false ∧ f.addr = 0x100) ∧ (s.vi 0).grants (paOfPlain 0x100) = true) := by decide +kernel

end Sys2Proof.Tests
end

namespace Sys2Proof.Machine

/-! # What every step but a reset keeps: memory in its canonical form, and DTIME not before what it was -/

/-- Memory of s is canonical when that of r is (log 4), and DTIME has not gone back from r to s (R127). -/
def Follows (r s : State) : Prop := (Memory.wf r.mem = true → Memory.wf s.mem = true) ∧ r.dtime ≤ s.dtime

/-- The state that a function may give follows r. -/
def FollowsOpt (r : State) : Option State → Prop
  | none => True
  | some s => Follows r s

/-- The state that a function may give, with something else, follows r. -/
def FollowsFst {β : Type} (r : State) : Option (State × β) → Prop
  | none => True
  | some x => Follows r x.1

/-- The state after a completed access follows r. -/
def FollowsDone (r : State) : Done → Prop
  | .ok s _ => Follows r s
  | _ => True

/-- The state after an execution, if it changes one, follows r. -/
def FollowsBody (r : State) : Body → Prop
  | .hold s _ | .done s _ => Follows r s
  | .wait _ => True

/-- The next state, if there is one, follows r. -/
def FollowsOut (r : State) : Host.Outcome State Fault Refusal → Prop
  | .next s => Follows r s
  | _ => True

section
variable {r s t : State} {α β : Type}

/-! ### The relation -/

theorem Follows.refl (s : State) : Follows s s := ⟨id, Nat.le_refl _⟩

/-- Only memory and DTIME count. -/
theorem Follows.of_eq (h : Follows r s) (hm : t.mem = s.mem) (hd : t.dtime = s.dtime) : Follows r t := by
  unfold Follows
  rw [hm, hd]
  exact h

/-- A change of memory that keeps the canonical form. -/
theorem Follows.of_wf (h : Follows r s) (hm : Memory.wf s.mem = true → Memory.wf t.mem = true) (hd : t.dtime = s.dtime) : Follows r t :=
  ⟨fun hr => hm (h.1 hr), hd ▸ h.2⟩

/-- A change of what nothing but a choice of the model depends on. -/
theorem Follows.withFresh (h : Follows r s) {n : Nat} : Follows r { s with fresh := n } := h

theorem Follows.ite {c : Prop} {inst : Decidable c} (hs : Follows r s) (ht : Follows r t) : Follows r (if c then s else t) := by
  split
  · exact hs
  · exact ht

theorem Follows.foldl {f : State → α → State} (hf : ∀ s x, Follows r s → Follows r (f s x)) (xs : List α) (h : Follows r s) :
    Follows r (xs.foldl f s) := by
  induction xs generalizing s with
  | nil => exact h
  | cons x xs ih => exact ih (hf s x h)

theorem Follows.mapM {f : State → α → State × β} (hf : ∀ s x, Follows r s → Follows r (f s x).1) (xs : List α)
    (h : Follows r s) : Follows r (s.mapM f xs).1 := by
  induction xs generalizing s with
  | nil => exact h
  | cons x xs ih => exact ih (hf s x h)

theorem FollowsOpt.just (h : Follows r s) : FollowsOpt r (some s) := h
theorem FollowsFst.just (h : Follows r s) {b : β} : FollowsFst r (some (s, b)) := h
theorem FollowsDone.ok (h : Follows r s) {bs} : FollowsDone r (.ok s bs) := h
theorem FollowsBody.hold (h : Follows r s) {m} : FollowsBody r (.hold s m) := h
theorem FollowsBody.done (h : Follows r s) {es} : FollowsBody r (.done s es) := h
theorem FollowsOut.next (h : Follows r s) : FollowsOut r (.next s) := h

theorem FollowsOpt.getD {o : Option State} (ho : FollowsOpt r o) (h : Follows r s) : Follows r (o.getD s) := by
  cases o with
  | none => exact h
  | some t => exact ho

theorem FollowsOpt.of_some {o : Option State} (ho : FollowsOpt r o) (hx : o = some s) : Follows r s := by
  subst hx
  exact ho

theorem FollowsFst.of_some {o : Option (State × β)} {x : State × β} (ho : FollowsFst r o) (hx : o = some x) : Follows r x.1 := by
  subst hx
  exact ho

theorem FollowsFst.ite {c : Prop} {inst : Decidable c} {o p : Option (State × β)} (ho : FollowsFst r o) (hp : FollowsFst r p) :
    FollowsFst r (if c then o else p) := by
  split
  · exact ho
  · exact hp

theorem Follows.of_fst {x : State × β} {b : β} (h : Follows r x.1) (hx : x = (s, b)) : Follows r s := by
  subst hx
  exact h

theorem Follows.fst (h : Follows r s) {b : β} : Follows r (s, b).1 := h

theorem FollowsDone.ite {c : Prop} {inst : Decidable c} {d e : Done} (hd : FollowsDone r d) (he : FollowsDone r e) :
    FollowsDone r (if c then d else e) := by
  split
  · exact hd
  · exact he

theorem FollowsBody.ite {c : Prop} {inst : Decidable c} {d e : Body} (hd : FollowsBody r d) (he : FollowsBody r e) :
    FollowsBody r (if c then d else e) := by
  split
  · exact hd
  · exact he

theorem FollowsDone.of_ok {d : Done} {bs : List Byte} (hd : FollowsDone r d) (hx : d = .ok s bs) : Follows r s := by
  subst hx
  exact hd

theorem FollowsOpt.map {f : α → State} (o : Option α) (hf : ∀ x, o = some x → Follows r (f x)) : FollowsOpt r (o.map f) := by
  cases o with
  | none => trivial
  | some x => exact hf x rfl

theorem FollowsOpt.map_state {f : State → State} {o : Option State} (ho : FollowsOpt r o) (hf : ∀ s, Follows r s → Follows r (f s)) :
    FollowsOpt r (o.map f) :=
  .map o fun _ hx => hf _ (ho.of_some hx)

theorem FollowsOpt.bind {f : α → Option State} (o : Option α) (hf : ∀ x, o = some x → FollowsOpt r (f x)) :
    FollowsOpt r (o.bind f) := by
  cases o with
  | none => trivial
  | some x => exact hf x rfl

theorem FollowsOpt.ite {c : Prop} {inst : Decidable c} {o p : Option State} (ho : FollowsOpt r o) (hp : FollowsOpt r p) :
    FollowsOpt r (if c then o else p) := by
  split
  · exact ho
  · exact hp

/-! ### The parts of the state -/

theorem Follows.setCore (h : Follows r s) {n c} : Follows r (s.setCore n c) := h
theorem Follows.setCrew (h : Follows r s) {n c} : Follows r (s.setCrew n c) := h
theorem Follows.setCluster (h : Follows r s) {n c} : Follows r (s.setCluster n c) := h
theorem Follows.setDie (h : Follows r s) {n d} : Follows r (s.setDie n d) := h
theorem Follows.setStack (h : Follows r s) {n x} : Follows r (s.setStack n x) := h
theorem Follows.setPch (h : Follows r s) {n p} : Follows r (s.setPch n p) := h
theorem Follows.setLaunch (h : Follows r s) {n x} : Follows r (s.setLaunch n x) := h
theorem Follows.setAspace (h : Follows r s) {n a} : Follows r (s.setAspace n a) := h
theorem Follows.setVi (h : Follows r s) {n v} : Follows r (s.setVi n v) := h
theorem Follows.post (h : Follows r s) {p} : Follows r (s.post p) := h
theorem Follows.onThr (h : Follows r s) {k l f} : Follows r (s.onThr k l f) := h

/-! ### Memory at its home (R126, R130) -/

theorem Follows.writeHome (h : Follows r s) {cell data} : Follows r (s.writeHome cell data) :=
  h.of_wf (Memory.wf_writeN _ _ _) rfl
theorem Follows.writeBad (h : Follows r s) {cell data} : Follows r (s.writeBad cell data) :=
  h.of_wf (Memory.wf_writeN _ _ _) rfl
theorem Follows.markLine (h : Follows r s) {line} : Follows r (s.markLine line) := h
theorem Follows.holdTlb (h : Follows r s) {core e} : Follows r (s.holdTlb core e) := h
theorem Follows.fill (h : Follows r s) {core lease e va} : Follows r (s.fill core lease e va) := h
theorem Follows.applyHome (h : Follows r s) {cell data} : Follows r (s.applyHome cell data).1 := h.writeHome
theorem Follows.raiseWct (h : Follows r s) {lid tid ct} : Follows r (s.raiseWct lid tid ct) := h

theorem Follows.loadVirt (h : Follows r s) {core asid dbg home va n} : FollowsDone r (s.loadVirt core asid dbg home va n) := by
  unfold State.loadVirt
  split
  · trivial
  · dsimp only
    split
    · exact .ite trivial h
    · exact .ite trivial (.ite trivial (.ite trivial (.ok (.ite h.holdTlb h.holdTlb.fill))))

theorem Follows.storeVirt (h : Follows r s) {core asid lid tid dbg drop va data} :
    FollowsDone r (s.storeVirt core asid lid tid dbg drop va data) := by
  unfold State.storeVirt
  split
  · trivial
  · exact .ite h.holdTlb.writeHome (.ite (.ite trivial (.ite trivial (.ok h.holdTlb.setCore.applyHome.raiseWct))) h)

theorem Follows.applyFlight (h : Follows r s) {k} : FollowsOpt r (s.applyFlight k) :=
  .ite (.map _ fun _ _ => h.applyHome) trivial

theorem Follows.returnFlight (h : Follows r s) {k} : FollowsOpt r (s.returnFlight k) := by
  unfold State.returnFlight
  split
  · trivial
  · exact .ite h trivial

theorem Follows.atomVirt (h : Follows r s) {core asid lid tid dbg o b64 va x k} :
    FollowsDone r (s.atomVirt core asid lid tid dbg o b64 va x k) := by
  unfold State.atomVirt
  split
  · trivial
  · exact .ite trivial (.ite trivial (.ite trivial (.ok h.holdTlb.setCore.applyHome.raiseWct)))

theorem Follows.setWindow (h : Follows r s) {core w} : Follows r (s.setWindow core w) := h
theorem Follows.loadScratch (h : Follows r s) {core lid off n} : FollowsDone r (s.loadScratch core lid off n) :=
  .ite trivial (.ite trivial h)
theorem Follows.storeScratch (h : Follows r s) {core lid off data} : FollowsDone r (s.storeScratch core lid off data) := .ite trivial h
theorem Follows.atomScratch (h : Follows r s) {core lid o b64 off x k} : FollowsDone r (s.atomScratch core lid o b64 off x k) :=
  .ite trivial (.ite trivial h)

/-! ### Registers, slots and windows of a core (R48, R51, R54) -/

theorem Follows.writeReg (h : Follows r s) {k d g v b} : Follows r (s.writeReg k d g v b) := h

theorem Follows.writeRegs (h : Follows r s) {k g v ds j bs} : Follows r (s.writeRegs k g v ds j bs) := by
  induction ds generalizing s j bs with
  | nil => exact h
  | cons d ds ih => exact ih h.writeReg

theorem Follows.sweepSlots (h : Follows r s) {core} : Follows r (s.sweepSlots core) := .ite h h
theorem Follows.notePool (h : Follows r s) {core} : Follows r (s.notePool core) := .ite h h
theorem Follows.clearTriggers (h : Follows r s) {core} : Follows r (s.clearTriggers core) := .ite h h
theorem Follows.returnWindows (h : Follows r s) {core} : Follows r (s.returnWindows core) := .ite h h
theorem Follows.settleCore (h : Follows r s) {core} : Follows r (s.settleCore core) :=
  h.sweepSlots.notePool.clearTriggers.returnWindows

/-! ### Herds and the end of threads (R31, R302) -/

theorem Follows.onBarrier (h : Follows r s) {lid n f} : Follows r (s.onBarrier lid n f) := h
theorem Follows.wakeBarrier (h : Follows r s) {lid n go} : Follows r (s.wakeBarrier lid n go) := h

theorem Follows.settleBarrier (h : Follows r s) {lid n fuel} : Follows r (s.settleBarrier lid n fuel) := by
  induction fuel generalizing s with
  | zero => exact h
  | succ fuel ih => exact .ite (ih h.wakeBarrier.onBarrier) h

theorem Follows.leaveHerds (h : Follows r s) {lid ts} : Follows r (s.leaveHerds lid ts) :=
  .foldl (fun _ _ h => h.settleBarrier) _ (.foldl (fun _ _ h => .foldl (fun _ _ h => h.onBarrier) _ h) _ h)

theorem Follows.leaveQueue (h : Follows r s) {k} : Follows r (s.leaveQueue k) := .ite h h
theorem Follows.crewLeaves (h : Follows r s) {k} : Follows r (s.crewLeaves k) :=
  .ite h h.setLaunch.leaveQueue.setCrew.settleCore.settleCore
theorem Follows.freeWindows (h : Follows r s) {lid ts} : Follows r (s.freeWindows lid ts) := h
theorem Follows.leaveIfDone (h : Follows r s) {k} : Follows r (s.leaveIfDone k) := .ite h.crewLeaves h
theorem Follows.endThreads (h : Follows r s) {k m} : Follows r (s.endThreads k m) := h.setCrew.leaveHerds.freeWindows.settleCore
theorem Follows.exitLanes (h : Follows r s) {k m} : Follows r (s.exitLanes k m) := h.endThreads.leaveIfDone

/-! ### Halts and steps of a debugger (R257 to R259) -/

theorem Follows.onBrooded (h : Follows r s) {f} : Follows r (s.onBrooded f) := h
theorem Follows.haltCrews (h : Follows r s) {ks} : Follows r (s.haltCrews ks) :=
  .ite (.foldl (fun _ _ h => h.setCrew) ks h) (.foldl (fun _ _ h => h.setCrew) ks h)
theorem Follows.reportHalts (h : Follows r s) : Follows r s.reportHalts := h
theorem Follows.endSteps (h : Follows r s) : Follows r s.endSteps :=
  .foldl (fun _ _ h => .ite h.haltCrews h) _ h.reportHalts
theorem Follows.beginStep (h : Follows r s) {ks more} : Follows r (s.beginStep ks more) :=
  .foldl (fun _ _ h => h.setCrew) _ h.onBrooded
theorem Follows.breakpoint (h : Follows r s) {k l} : Follows r (s.breakpoint k l) := .ite h h.beginStep

/-! ### How an instruction issues, executes and retires (R47 to R52, R59 to R63) -/

theorem Follows.takeTrap (h : Follows r s) {k l cause va pc next} : Follows r (s.takeTrap k l cause va pc next) := h

theorem Follows.takeTraps (h : Follows r s) {k pc next why ls} : Follows r (s.takeTraps k pc next why ls) := by
  induction ls generalizing s with
  | nil => exact h
  | cons l ls ih =>
    unfold State.takeTraps
    split
    · exact ih h
    · exact ih h.takeTrap

theorem Follows.account (h : Follows r s) {core k pays} : Follows r (s.account core k pays) := h
theorem Follows.takeBanks (h : Follows r s) {core bs} : Follows r (s.takeBanks core bs) := h
theorem Follows.enrob (h : Follows r s) {o why} : Follows r (s.enrob o why) := h
theorem Follows.stall (h : Follows r s) {o why} : Follows r (s.stall o why) := .ite h h.enrob

theorem Follows.drawUp (h : Follows r s) {k e n} : Follows r (s.drawUp k e n) := by
  induction n generalizing s with
  | zero => exact h
  | succ n ih => exact .ite (ih h.setCrew) h

theorem Follows.drawHead (h : Follows r s) {o} : Follows r (s.drawHead o) := h.drawUp.notePool
theorem Follows.drawFor (h : Follows r s) {k e} : Follows r (s.drawFor k e) := h.drawUp.setCrew.notePool

theorem Follows.refill (h : Follows r s) {k d} : FollowsOpt r (s.refill k d) := by
  unfold State.refill
  dsimp only
  split
  · trivial
  · exact .ite h.setCrew.notePool trivial

theorem Follows.commit (h : Follows r s) {o g eff rlsd fresh} : Follows r (s.commit o g eff rlsd fresh) := by
  rw [State.commit_eq]
  refine (Follows.ite ?_ (Follows.account ?_)).settleCore.leaveIfDone <;> exact h.setCrew.writeRegs.setCrew.takeTraps

/-- What the body of an instruction must do: whatever state it starts from, what it leaves follows that. -/
def Keeping (body : State → Mask → Body) : Prop := ∀ r s g, Follows r s → FollowsBody r (body s g)

theorem Follows.executeAt (h : Follows r s) {o body k} (hb : Keeping body) : Follows r (s.executeAt o body k) := by
  unfold State.executeAt
  dsimp only
  refine .ite h.drawFor (.ite h.setCrew ?_)
  split
  · exact (h.refill.getD h).setCrew
  · split
    case h_1 s' es hx =>
      have hs' : FollowsBody r (.done s' es) := by
        rw [← hx]
        exact .ite h (hb _ _ _ (.ite h h))
      exact (Follows.ite hs' h).setCrew.drawFor
    case h_2 => exact h

theorem Follows.issueBehind (h : Follows r s) {o body} (hb : Keeping body) : Follows r (s.issueBehind o body) := by
  unfold State.issueBehind
  dsimp only
  refine .ite h.setCrew ?_
  split
  · exact h.setCrew
  · exact .ite (h.enrob.executeAt hb) h.enrob

theorem Follows.retireResult (h : Follows r s) {o x} : Follows r (s.retireResult o x) := .ite h.drawFor.commit h.drawFor

theorem Follows.executeHead (h : Follows r s) {o body} (hb : Keeping body) : Follows r (s.executeHead o body) := by
  unfold State.executeHead
  dsimp only
  refine .ite h.setCrew ?_
  split
  · exact (h.refill.getD h).stall
  · have hbody : ∀ c : Prop, ∀ _ : Decidable c, ∀ g, FollowsBody r (if c then Body.done s [] else body s g) :=
      fun _ _ _ => .ite h (hb _ _ _ h)
    split
    case h_1 => exact h.stall
    case h_2 s' m hx =>
      have hs' : FollowsBody r (.hold s' m) := hx ▸ hbody _ _ _
      exact Follows.setCrew hs'
    case h_3 s' es hx =>
      have hs' : FollowsBody r (.done s' es) := hx ▸ hbody _ _ _
      exact .ite h.stall.drawHead (Follows.ite hs' (Follows.takeBanks hs')).commit

theorem Follows.issue (h : Follows r s) {o body} (hb : Keeping body) : Follows r (s.issue o body) := by
  unfold State.issue
  dsimp only
  split
  · exact h.executeAt hb
  · refine .ite h.setCrew.account (.ite (h.issueBehind hb) ?_)
    split
    · exact h.retireResult
    · exact h.executeHead hb

theorem Follows.alu (h : Follows r s) {o f} : Follows r (s.alu o f) := h.issue fun _ _ _ h => h
theorem Follows.cross (h : Follows r s) {o f} : Follows r (s.cross o f) := h.issue fun _ _ _ h => h

end
end Sys2Proof.Machine

namespace Sys2Proof.Machine

section
variable {r s t : State} {α β : Type}

/-! ### Fetching and the passing of time (R77, R127) -/

theorem Follows.holdFetch (h : Follows r s) {core asid pc} : Follows r (s.holdFetch core asid pc) := by
  unfold State.holdFetch
  split
  · exact h
  · exact h.holdTlb

/-- Time that does not go back. -/
theorem Follows.passTime (h : Follows r s) {n : Nat} (hn : s.dtime ≤ n) : Follows r (s.passTime n) := ⟨h.1, h.2.trans hn⟩

theorem Follows.round (h : Follows r s) : Follows r s.round := by
  unfold State.round
  refine (Follows.passTime ?_ ?_).endSteps
  · exact h
  · exact Nat.le_add_right _ _

theorem Follows.tick (h : Follows r s) {core} : Follows r (s.tick core) := .ite (Follows.round h) h
theorem Follows.charge (h : Follows r s) {core g} : Follows r (s.charge core g) := h

/-! ### Memory instructions, lane by lane (R47, R134 to R138) -/

/-- What one lane does must follow the state it starts from. -/
def KeepingLane (f : State → Nat → Option (State × Eff)) : Prop := ∀ r s l, Follows r s → FollowsFst r (f s l)

theorem Follows.eachLane (h : Follows r s) {f ls} (hf : KeepingLane f) : FollowsFst r (s.eachLane f ls) := by
  induction ls generalizing s with
  | nil => exact h
  | cons l ls ih =>
    unfold State.eachLane
    split
    case h_1 => trivial
    case h_2 s' e hx =>
      have hs' : Follows r s' := (hf _ _ _ h).of_some hx
      split
      case h_1 => trivial
      case h_2 s'' es hy =>
        have hs'' : Follows r s'' := (ih hs').of_some hy
        exact hs''

theorem Follows.memory (h : Follows r s) {o why f} (hf : KeepingLane f) : Follows r (s.memory o why f) :=
  h.issue fun r s g h => by
    split
    case h_1 => trivial
    case h_2 s' es hx => exact .done ((h.eachLane hf).of_some hx)

/-- The access of one lane: it waits, traps, or goes on in the state that the access leaves. -/
theorem FollowsDone.lane (h : Follows r s) {d : Done} (hd : FollowsDone r d) (f : Word → Eff) (g : List Byte → Eff) :
    FollowsFst r (match d with
      | .wait => none
      | .trap c => some (s, f c)
      | .ok s' bs => some (s', g bs)) := by
  cases d with
  | wait => trivial
  | trap c => exact h
  | ok s' bs => exact hd

theorem Follows.loadLane (h : Follows r s) {a b z p x home off l} : FollowsFst r (s.loadLane a b z p x home off l) := by
  refine FollowsDone.lane h ?_ _ _
  split
  · trivial
  · exact h.loadScratch
  · exact h.loadVirt

theorem Follows.load1 (h : Follows r s) {d a b z p x home off} : Follows r (s.load1 d a b z p x home off) :=
  h.memory fun _ _ _ h => h.loadLane

theorem Follows.storeLane (h : Follows r s) {d a b z p drop off l} : FollowsFst r (s.storeLane d a b z p drop off l) := by
  refine FollowsDone.lane h ?_ _ _
  split
  · trivial
  · exact h.storeScratch
  · exact h.storeVirt

theorem Follows.store1 (h : Follows r s) {d a b z p drop off} : Follows r (s.store1 d a b z p drop off) :=
  h.memory fun _ _ _ h => h.storeLane

theorem Follows.fence (h : Follows r s) {kind} : Follows r (s.fence kind) := h.issue fun _ _ _ h => .ite h h

theorem Follows.atomLane (h : Follows r s) {d a b o b64 scratch l} : FollowsFst r (s.atomLane d a b o b64 scratch l) := by
  refine FollowsDone.lane h ?_ _ _
  split
  · trivial
  · exact h.atomScratch
  · exact h.atomVirt

theorem Follows.readFrame (h : Follows r s) {va n acc} : FollowsDone r (s.readFrame va n acc) := by
  induction n generalizing s va acc with
  | zero => exact h
  | succ n ih =>
    unfold State.readFrame
    split
    case h_1 => trivial
    case h_2 => trivial
    case h_3 s' bs hx => exact ih (h.loadVirt.of_ok hx)

theorem Follows.tretLane (h : Follows r s) {l} : FollowsFst r (s.tretLane l) := by
  unfold State.tretLane
  dsimp only
  refine .ite h (.ite h ?_)
  split
  case h_1 => trivial
  case h_2 => exact h
  case h_3 s' f hx =>
    have hs' : Follows r s' := by
      refine FollowsDone.of_ok ?_ hx
      split
      · trivial
      · exact h.readFrame
    split
    · exact hs'
    · exact hs'

/-! ### Page tables (R112, R113, R118) -/

theorem Follows.zeroFrame (h : Follows r s) {frame bl} : Follows r (s.zeroFrame frame bl) := h.of_wf (Memory.wf_filter _ _) rfl
/-- A frame is taken and set to zero (R111). -/
theorem Follows.takeZeroed (h : Follows r s) {fs frame bl} : Follows r ({ s with frames := fs }.zeroFrame frame bl) :=
  Follows.zeroFrame (s := { s with frames := fs }) h
theorem Follows.writePte (h : Follows r s) {pa e} : Follows r (s.writePte pa e) := h.writeHome.markLine

theorem Follows.nextTable (h : Follows r s) {pa} : Follows r (s.nextTable pa).1 := by
  unfold State.nextTable
  dsimp only
  split
  · exact h
  · exact h.takeZeroed.writePte

theorem Follows.leafSlot (h : Follows r s) {asid va} : Follows r (s.leafSlot asid va).1 := h.nextTable.nextTable
theorem Follows.mapPage (h : Follows r s) {asid va e} : Follows r (s.mapPage asid va e) := h.leafSlot.writePte
theorem Follows.mapLarge (h : Follows r s) {asid va e} : Follows r (s.mapLarge asid va e) := h.nextTable.writePte
theorem Follows.dropTlb (h : Follows r s) {asid va} : Follows r (s.dropTlb asid va) := h

theorem Follows.unmapPage (h : Follows r s) {asid va} : Follows r (s.unmapPage asid va) := by
  rw [State.unmapPage]
  split
  · exact h
  · dsimp only
    split
    · exact h.dropTlb.writePte.of_eq rfl rfl
    · exact h

theorem Follows.unmapRange (h : Follows r s) {asid va n} : Follows r (s.unmapRange asid va n) := by
  induction n generalizing s va with
  | zero => exact h
  | succ n ih => exact ih h.unmapPage

theorem Follows.dropTlbRange (h : Follows r s) {asid base size} : Follows r (s.dropTlbRange asid base size) := h
theorem Follows.setBag (h : Follows r s) {asid idx b} : Follows r (s.setBag asid idx b) := h

theorem Follows.repair (h : Follows r s) {asid va cluster} : FollowsOpt r (s.repair asid va cluster) := by
  unfold State.repair
  dsimp only
  split
  · trivial
  · refine .ite trivial ?_
    split
    · trivial
    · exact .just h.takeZeroed.setVi.mapPage
  · split
    · trivial
    · exact .just h.takeZeroed.mapPage

theorem Follows.takeFrames (h : Follows r s) {vi n} : Follows r (s.takeFrames vi n).1 := by
  induction n generalizing s with
  | zero => exact h
  | succ n ih =>
    unfold State.takeFrames
    split
    · exact h
    · exact ih h

theorem Follows.setAside (h : Follows r s) {lid n} : Follows r (s.setAside lid n) := h.takeFrames.setLaunch
theorem Follows.setBrood (h : Follows r s) {lid} : Follows r (s.setBrood lid) := h.takeFrames.setLaunch

theorem Follows.translateRepair (h : Follows r s) {core asid k va} : Follows r (s.translateRepair core asid k va).1 := by
  unfold State.translateRepair
  extract_lets look q
  have hq : Follows r q.1 := by
    unfold q
    split
    · split
      · split
        case h_1 => exact h
        case h_2 s' hs' => exact h.repair.of_some hs'
      · exact h
    · exact h
  split
  · exact hq
  · split
    · exact hq.setDie
    · exact hq

end
end Sys2Proof.Machine

namespace Sys2Proof.Machine

section
variable {r s t : State} {α β : Type}

/-! ### Engine commands (R146, R149, R153) -/

theorem Follows.setCmd (h : Follows r s) {c} : Follows r (s.setCmd c) := h
theorem Follows.accept (h : Follows r s) {core slot lid asid tid kind phase bad} :
    Follows r (s.accept core slot lid asid tid kind phase bad) := h
theorem Follows.wakeFutures (h : Follows r s) {core} : Follows r (s.wakeFutures core) := h

theorem Follows.finish (h : Follows r s) {id st} : Follows r (s.finish id st) := by
  unfold State.finish
  split
  · exact h
  · refine Follows.settleCore (Follows.wakeFutures ?_)
    exact h

theorem Follows.written (h : Follows r s) {c ct st} : Follows r (s.written c ct st) := h
theorem Follows.bump (h : Follows r s) {core n v} : Follows r (s.bump core n v) := h

theorem Follows.engineMem (h : Follows r s) {ws} : Follows r (s.engineMem ws).1 := by
  refine .foldl (fun _ _ h => h.markLine) _ ?_
  exact h.of_wf (Memory.wf_foldl_write ws EByte.addr EByte.val s.mem) rfl

theorem Follows.engineWrite (h : Follows r s) {c ws} : Follows r (s.engineWrite c ws).1 := by
  unfold State.engineWrite
  dsimp only
  split
  · exact h.engineMem
  · exact h.engineMem

theorem Follows.engineLoad (h : Follows r s) {core asid va n} : Follows r (s.engineLoad core asid va n).1 := by
  unfold State.engineLoad
  split
  next hx => exact h.translateRepair.of_fst hx
  next hx => exact h.translateRepair.of_fst hx

theorem Follows.engineCells (h : Follows r s) {core asid va n} : Follows r (s.engineCells core asid va n).1 := by
  unfold State.engineCells
  split
  next hx => exact h.translateRepair.of_fst hx
  next hx => exact h.translateRepair.of_fst hx

theorem Follows.engineRecord (h : Follows r s) {core asid va n} : Follows r (s.engineRecord core asid va n).1 := by
  induction n generalizing s va with
  | zero => exact h
  | succ n ih =>
    unfold State.engineRecord
    split
    next hx => exact h.engineLoad.of_fst hx
    next hx =>
      have hs := ih (va := va + 8) (h.engineLoad.of_fst hx)
      split
      next hy => exact hs.of_fst hy
      next hy => exact hs.of_fst hy

theorem Follows.conclude (h : Follows r s) {c st} : Follows r (s.conclude c st) := by
  unfold State.conclude
  dsimp only
  split
  · exact Follows.finish (.ite h.bump h)
  · exact h.finish

theorem Follows.concluded (h : Follows r s) {c} : FollowsOpt r (s.concluded c) := .map _ fun _ _ => h.conclude

theorem Follows.judgeDep (h : Follows r s) {x d} : Follows r (s.judgeDep x d).1 := by
  unfold State.judgeDep
  split
  · exact h
  · exact h
  · exact h
  · dsimp only
    split
    · exact h
    · split
      · exact h.engineLoad
      · exact h.engineLoad

theorem Follows.repairWrites (h : Follows r s) {core asid vas} : Follows r (s.repairWrites core asid vas) :=
  .foldl (fun _ _ h => h.translateRepair) _ h
theorem Follows.own (h : Follows r s) {id core asid vas} : Follows r (s.own id core asid vas) := h.repairWrites

theorem Follows.laneCommands (h : Follows r s) {mk ls slots} : Follows r (s.laneCommands mk ls slots).1 := by
  induction ls generalizing s slots with
  | nil => exact h
  | cons l ls ih =>
    unfold State.laneCommands
    split
    · exact ih h
    · exact ih h.accept.own

theorem Follows.perLaneWhen (h : Follows r s) {o served mk} : Follows r (s.perLaneWhen o served mk) :=
  h.issue fun _ _ _ h => .ite trivial (.ite trivial (.ite trivial (.done h.laneCommands)))
theorem Follows.perLaneEngine (h : Follows r s) {o mk} : Follows r (s.perLaneEngine o mk) := h.perLaneWhen

theorem Follows.groupEngine (h : Follows r s) {o mk full} : Follows r (s.groupEngine o mk full) :=
  h.issue fun _ _ _ h => by
    dsimp only
    refine .ite trivial ?_
    split
    · exact h
    · exact .ite trivial (.ite trivial (.done h.accept.own))

/-! ### Futures, COPY and FETCH (R149 to R158, R296 to R315) -/

theorem Follows.waitSlots (h : Follows r s) {o all a w} : Follows r (s.waitSlots o all a w) :=
  h.issue fun _ _ _ h => .ite h h

theorem Follows.cancelLaunch (h : Follows r s) {lid} : Follows r (s.cancelLaunch lid) := by
  unfold State.cancelLaunch
  dsimp only
  split
  · exact h
  · exact .ite h h
  · exact h

theorem Follows.cancelCmd (h : Follows r s) {c} : Follows r (s.cancelCmd c) := by
  unfold State.cancelCmd
  refine .ite ?_ h
  split
  · exact h.cancelLaunch
  · exact h.finish

theorem Follows.cancelSlot (h : Follows r s) {core slot} : Follows r (s.cancelSlot core slot) := by
  unfold State.cancelSlot
  split
  · split
    · exact h.cancelCmd
    · exact h
  · exact h

theorem Follows.counterOp (h : Follows r s) {n a f} : Follows r (s.counterOp n a f) := h.issue fun _ _ _ h => h

theorem Follows.copyRead (h : Follows r s) {c scratch n x} : Follows r (s.copyRead c scratch n x).1 := by
  unfold State.copyRead
  split
  · exact h
  · exact h.engineLoad

theorem Follows.copyCells (h : Follows r s) {c scratch n x} : Follows r (s.copyCells c scratch n x).1 := by
  unfold State.copyCells
  split
  · exact h
  · exact h.engineCells

theorem Follows.copyElem (h : Follows r s) {c dir n e} : Follows r (s.copyElem c dir n e).1 := h.copyRead.copyCells

theorem Follows.copyRun (h : Follows r s) {c dir src dst x} : Follows r (s.copyRun c dir src dst x) := by
  have hread : ∀ n es, Follows r (s.mapM (fun s e => s.copyElem c dir n e) es).1 := fun _ _ => .mapM (fun _ _ h => h.copyElem) _ h
  exact .ite (hread _ _).withFresh.setWindow.written (hread _ _).withFresh.engineWrite.written

theorem Follows.copyComplete (h : Follows r s) {id} : FollowsOpt r (s.copyComplete id) := by
  unfold State.copyComplete
  split
  · trivial
  · split
    · exact .ite h.copyRun trivial
    · exact h.concluded
    · trivial

theorem Follows.onPair (h : Follows r s) {c q f} : Follows r (s.onPair c q f) := h
theorem Follows.ownMore (h : Follows r s) {c vas} : Follows r (s.ownMore c vas) := h.repairWrites

theorem Follows.fetchStart (h : Follows r s) {c q record} : Follows r (s.fetchStart c q record) := by
  unfold State.fetchStart
  split
  · exact h.written
  · dsimp only
    split
    · exact h.engineLoad.written
    · exact .ite h.engineLoad.written h.engineLoad.ownMore.setCmd.onPair

theorem Follows.fetchCells (h : Follows r s) {c x} : Follows r (s.fetchCells c x).1 := .mapM (fun _ _ h => h.engineCells) _ h

theorem Follows.fetchRun (h : Follows r s) {c q x data st} : FollowsOpt r (s.fetchRun c q x data st) :=
  .ite trivial (.just h.fetchCells.withFresh.engineWrite.onPair.written)

theorem Follows.fetchComplete (h : Follows r s) {id data st} : FollowsOpt r (s.fetchComplete id data st) := by
  unfold State.fetchComplete
  split
  · trivial
  · split
    · exact .ite trivial h.fetchStart
    · exact h.fetchRun
    · exact h.concluded
    · trivial

/-! ### Bags (R182 to R191) -/

theorem Follows.slotPlace (h : Follows r s) {core asid va} : Follows r (s.slotPlace core asid va).1 := by
  unfold State.slotPlace
  split
  next hx => exact h.translateRepair.of_fst hx
  next hx =>
    split
    · exact h.translateRepair.of_fst hx
    · exact h.translateRepair.of_fst hx

theorem Follows.writeBatch (h : Follows r s) {asid b n j seq ps} : Follows r (s.writeBatch asid b n j seq ps).1 := by
  induction ps generalizing s j seq with
  | nil => exact h
  | cons p ps ih =>
    rw [State.writeBatch]
    split
    next hx => exact ih (h.slotPlace.of_fst hx)
    next hx => exact (ih (h.slotPlace.of_fst hx).engineMem).fst

theorem Follows.placeBatch (h : Follows r s) {asid idx n} : FollowsOpt r (s.placeBatch asid idx n) :=
  .ite trivial h.writeBatch.setBag

theorem Follows.placeDone (h : Follows r s) {asid idx n} : FollowsOpt r (s.placeDone asid idx n) := by
  unfold State.placeDone
  dsimp only
  split
  · split
    · trivial
    · refine .just ?_
      split
      · exact h
      · exact h
  · trivial

theorem Follows.putLane (h : Follows r s) {d a k f n l} : FollowsFst r (s.putLane d a k f n l) := by
  unfold State.putLane
  dsimp only
  split
  · exact h
  · refine .ite h ?_
    split
    · exact h
    · exact h

theorem Follows.clearFull (h : Follows r s) {cell} : Follows r (s.clearFull cell).1 := h.engineMem

theorem Follows.takeLane (h : Follows r s) {d a b f n l} : FollowsFst r (s.takeLane d a b f n l) := by
  unfold State.takeLane
  extract_lets +onlyGivenNames c asid sh flags
  split
  · exact h
  · refine .ite h (.ite h (.ite trivial (.ite h ?_)))
    extract_lets +onlyGivenNames va
    split
    next hx => exact .just (h.slotPlace.of_fst hx)
    next hx =>
      have hs := h.slotPlace.of_fst hx
      exact .ite trivial (.ite (.just hs) (.just hs.clearFull.setBag))

theorem Follows.drainSlots (h : Follows r s) {core asid b sh top off n} : Follows r (s.drainSlots core asid b sh top off n).1 := by
  induction n generalizing s top off with
  | zero => exact h
  | succ n ih =>
    rw [State.drainSlots]
    split
    next hx => exact h.slotPlace.of_fst hx
    next hx => exact (ih (h.slotPlace.of_fst hx).clearFull).fst

theorem Follows.drainRound (h : Follows r s) {id} : FollowsOpt r (s.drainRound id) := by
  unfold State.drainRound
  split
  · trivial
  · split
    · exact h.concluded
    · refine .ite trivial (.ite (.ite trivial (.just (.ite ?_ ?_))) ?_)
      · exact h.drainSlots.setWindow.setBag.setCmd
      · exact h.drainSlots.setWindow.setCmd.setBag.written
      · exact h
    · trivial

theorem Follows.scanLane (h : Follows r s) {a b k l} : FollowsFst r (s.scanLane a b k l) := by
  unfold State.scanLane
  dsimp only
  split
  · exact h
  · exact .ite h (.ite trivial h)

theorem Follows.serveReservation (h : Follows r s) {k} : FollowsOpt r (s.serveReservation k) := by
  unfold State.serveReservation
  split
  · trivial
  · refine .just ?_
    split
    · refine Follows.post (.ite ?_ ?_)
      · split
        · exact h
        · exact h
      · exact h
    · exact h

end
end Sys2Proof.Machine

namespace Sys2Proof.Machine

section
variable {r s t : State} {α β : Type}

/-! ### Broods (R34 to R38) -/

theorem Follows.takeArea (h : Follows r s) {lid} : Follows r (s.takeArea lid).1 := Follows.setLaunch (.ite h.setAside h)
theorem Follows.enqueue (h : Follows r s) {c} : Follows r (s.enqueue c) := by
  refine Follows.setCluster (Follows.setCrew ?_)
  exact h.takeArea
theorem Follows.hatchCrew (h : Follows r s) {cl b} : Follows r (s.hatchCrew cl b) := h.enqueue

theorem Follows.refillBin (h : Follows r s) {cl idx} : Follows r (s.refillBin cl idx) := by
  unfold State.refillBin
  split
  · exact h
  · exact h.setCluster.setLaunch

theorem Follows.hatch (h : Follows r s) {cl idx fuel} : Follows r (s.hatch cl idx fuel) := by
  induction fuel generalizing s with
  | zero => exact h
  | succ fuel ih => exact .ite (.ite (ih h.setCluster.hatchCrew.refillBin) h.setCluster.hatchCrew.refillBin) h

theorem Follows.saveBrooded (h : Follows r s) {lid slot b} : Follows r (s.saveBrooded lid slot b) := by
  unfold State.saveBrooded
  split
  · exact h
  · exact .foldl (fun _ _ h => h.writeHome) _ h

theorem Follows.enterBin (h : Follows r s) {cl lid spawned entry key timer b} :
    FollowsOpt r (s.enterBin cl lid spawned entry key timer b) := by
  unfold State.enterBin
  dsimp only
  split
  · exact .just (.ite h.setCluster.hatch h.setCluster)
  · split
    · exact h
    · exact .ite (.just h.setLaunch.setCluster.saveBrooded) trivial

theorem Follows.binTimeout (h : Follows r s) {cl idx} : FollowsOpt r (s.binTimeout cl idx) := .ite (.just h.hatch) trivial

theorem Follows.spawnLane (h : Follows r s) {a n entry timer l} : Follows r (s.spawnLane a n entry timer l).1 := by
  unfold State.spawnLane
  dsimp only
  split
  case h_1 => exact h
  case h_2 s' hx =>
    have hs' : FollowsOpt r (some s') := hx ▸ .ite trivial h.enterBin
    exact Follows.setLaunch hs'

theorem Follows.regroupLane (h : Follows r s) {key marked entry timer l} : Follows r (s.regroupLane key marked entry timer l).1 := by
  unfold State.regroupLane
  dsimp only
  split
  case h_1 => exact h
  case h_2 s' hx => exact Follows.setCrew (h.enterBin.of_some hx)

/-! ### Launches (R217 to R222, R319) -/

theorem Follows.close (h : Follows r s) {lid st} : Follows r (s.close lid st) := h

theorem Follows.acceptRecord (h : Follows r s) {lid own va} : Follows r (s.acceptRecord lid own va) := by
  unfold State.acceptRecord
  extract_lets +onlyGivenNames x core q
  have hq : Follows r q.1 := h.engineRecord
  clear_value q
  split
  · exact hq.close
  · extract_lets +onlyGivenNames y s₁ n q₂
    have hs₁ : Follows r s₁ := hq.setLaunch
    refine .ite hs₁.close ?_
    have hq₂ : Follows r q₂.1 := hs₁.engineRecord
    clear_value q₂
    split
    · exact hq₂.close
    · exact .ite hq₂.close (.ite hq₂.close (.ite hq₂.setLaunch.setBrood hq₂.setLaunch.setBrood.setAside))

theorem Follows.acceptQueue (h : Follows r s) {vi queue} : FollowsOpt r (s.acceptQueue vi queue) := by
  unfold State.acceptQueue
  extract_lets +onlyGivenNames v q lid s₁ s₂ s₃
  have hs₃ : Follows r s₃ := h
  exact .ite trivial (.just hs₃.acceptRecord)

theorem Follows.launchLane (h : Follows r s) {a deps l slot} : Follows r (s.launchLane a deps l slot).1 := by
  unfold State.launchLane
  dsimp only
  split
  · exact h
  · exact h

theorem Follows.launchLanes (h : Follows r s) {a deps ls slots} : Follows r (s.launchLanes a deps ls slots).1 := by
  induction ls generalizing s slots with
  | nil => exact h
  | cons l ls ih => exact ih h.launchLane

theorem Follows.sendLaunch (h : Follows r s) {lid} : FollowsOpt r (s.sendLaunch lid) := by
  unfold State.sendLaunch
  dsimp only
  split
  · trivial
  · exact .ite trivial (.just h.setLaunch.acceptRecord)

theorem Follows.makeCrews (h : Follows r s) {lid first sets ks} : Follows r (s.makeCrews lid first sets ks) := by
  induction ks generalizing s with
  | nil => exact h
  | cons k ks ih => exact ih h.enqueue

theorem Follows.resolveCount (h : Follows r s) {x} : Follows r (s.resolveCount x).1 := by
  unfold State.resolveCount
  dsimp only
  split
  · exact h
  · split
    · split
      · exact h.engineLoad
      · exact h.engineLoad
    · exact h

theorem Follows.beginLaunch (h : Follows r s) {lid} : Follows r (s.beginLaunch lid) := by
  unfold State.beginLaunch
  extract_lets +onlyGivenNames x s₁ q s₂
  have hs₁ : Follows r s₁ := by
    unfold s₁
    split
    · exact h
    · exact h
  have hs₂ : Follows r s₂ := hs₁.resolveCount
  clear_value q
  split
  · exact hs₂.close
  · exact hs₂.close
  · refine .ite hs₂.close ?_
    extract_lets +onlyGivenNames pages
    split
    · exact hs₂.close
    · exact (Follows.ite hs₂ hs₂.setAspace).setAside.setLaunch.makeCrews

theorem Follows.launchStart (h : Follows r s) {lid} : FollowsOpt r (s.launchStart lid) := by
  have hjudge : ∀ x ds, Follows r (s.mapM (fun s d => s.judgeDep x d) ds).1 := fun _ _ => .mapM (fun _ _ h => h.judgeDep) _ h
  unfold State.launchStart
  dsimp only
  refine .ite trivial ?_
  split
  · exact h.sendLaunch
  · refine .ite (.just (hjudge _ _).close) (.ite (.just (hjudge _ _).close) (.ite trivial (.ite trivial ?_)))
    exact .ite (.just (hjudge _ _).beginLaunch) trivial
  · trivial

theorem Follows.writeEvent (h : Follows r s) {lid st} : FollowsOpt r (s.writeEvent lid st) := by
  unfold State.writeEvent
  extract_lets +onlyGivenNames x q
  have hq : Follows r q.1 := by
    unfold q
    split
    · exact h.translateRepair
    · exact h
  refine .ite h ?_
  split
  · exact hq.post
  · exact .ite (.just hq.writeHome) (.ite trivial (.just hq.applyHome))

theorem Follows.releaseArea (h : Follows r s) {lid} : Follows r (s.releaseArea lid) := h.unmapRange.setVi

theorem Follows.launchComplete (h : Follows r s) {lid} : FollowsOpt r (s.launchComplete lid) := by
  unfold State.launchComplete
  refine .ite trivial ?_
  split
  · trivial
  · refine h.writeEvent.map_state fun s h => ?_
    extract_lets +onlyGivenNames x s₁ s₂ y s₃
    have hs₁ : Follows r s₁ := .ite h h.releaseArea
    clear_value s₁
    have hs₃ : Follows r s₃ := hs₁
    split
    · exact hs₃.finish
    · exact hs₃

end
end Sys2Proof.Machine

namespace Sys2Proof.Machine

section
variable {r s t : State} {α β : Type}

/-! ### Admission, eviction and the register pool (R18, R54 to R58, R108) -/

theorem Follows.joinScratch (h : Follows r s) {core lid} : FollowsOpt r (s.joinScratch core lid) := by
  unfold State.joinScratch
  dsimp only
  split
  · trivial
  · split
    · trivial
    · exact .ite trivial h

theorem Follows.drawRegs (h : Follows r s) {k core back} : Follows r (s.drawRegs k core back) :=
  .foldl (fun s _ h => by
    dsimp only
    split
    · exact h
    · exact .ite h h) _ h

theorem Follows.seat (h : Follows r s) {cl vi k n} : Follows r (s.seat cl vi k n) := by
  refine Follows.wakeFutures (Follows.notePool (Follows.drawRegs (Follows.setCluster ?_)))
  exact .ite h.setCore h

theorem Follows.admitOne (h : Follows r s) {cl} : FollowsOpt r (s.admitOne cl) :=
  .map _ fun _ _ => .ite h.setCore.seat h

theorem Follows.saveReg (h : Follows r s) {c d p} : Follows r (s.saveReg c d p) := by
  unfold State.saveReg
  extract_lets +onlyGivenNames cell s₁ s₂
  have hs₂ : Follows r s₂ := (Follows.foldl (fun _ _ h => h.writeHome) _ h).writeHome
  clear_value s₂
  exact .ite h hs₂

theorem Follows.save (h : Follows r s) {c} : Follows r (s.save c) := by
  refine .ite h (.foldl (fun _ _ h => h.writeHome) _ (.foldl (fun s d h => ?_) _ h))
  split
  · exact h
  · exact .ite h.saveReg h

theorem Follows.evict (h : Follows r s) {k} : Follows r (s.evict k) := h.save.setCrew.setCluster.settleCore

theorem Follows.flush (h : Follows r s) {k} : Follows r (s.flush k) :=
  (Follows.foldl (fun _ _ h => .foldl (fun _ _ h => h.onBarrier) _ h) _ h).setCrew.setCluster.settleCore

theorem Follows.takeVictim (h : Follows r s) {k} : Follows r (s.takeVictim k) := .ite h.flush (.ite h.evict h)

theorem Follows.preemptCore (h : Follows r s) {core cls need n} : Follows r (s.preemptCore core cls need n) := by
  induction n generalizing s with
  | zero => exact h
  | succ n ih =>
    unfold State.preemptCore
    refine .ite h ?_
    split
    · exact h
    · exact ih h.takeVictim

theorem Follows.preemptCores (h : Follows r s) {cls need ns} : Follows r (s.preemptCores cls need ns) := by
  induction ns generalizing s with
  | nil => exact h
  | cons n ns ih => exact .ite h.preemptCore (ih h.preemptCore)

theorem Follows.preemptFor (h : Follows r s) {cl k} : FollowsOpt r (s.preemptFor cl k) := .ite trivial h.preemptCores.setCluster

theorem FollowsOpt.findSome {f : α → Option State} (xs : List α) (hf : ∀ x, FollowsOpt r (f x)) : FollowsOpt r (xs.findSome? f) := by
  induction xs with
  | nil => trivial
  | cons x xs ih =>
    rw [List.findSome?_cons]
    split
    case h_1 t hx => exact hx ▸ hf x
    case h_2 => exact ih

theorem Follows.preempt (h : Follows r s) {cl} : FollowsOpt r (s.preempt cl) := by
  unfold State.preempt
  split
  · exact h.evict
  · exact .ite (.findSome _ fun _ => .findSome _ fun _ => h.preemptFor) trivial

theorem Follows.growPool (h : Follows r s) {core} : FollowsOpt r (s.growPool core) := .ite trivial h

theorem Follows.joinPool (h : Follows r s) {core} : FollowsOpt r (s.joinPool core) := by
  unfold State.joinPool
  dsimp only
  split
  · trivial
  · exact .ite trivial h

theorem Follows.returnBank (h : Follows r s) {core} : FollowsOpt r (s.returnBank core) := .map _ fun _ _ => h

theorem Follows.writeHalves (h : Follows r s) {cell bs lo hi} : Follows r (s.writeHalves cell bs lo hi) :=
  have hlo := Follows.ite (c := lo = true) (inst := instDecidableEqBool _ _) h.writeBad h.writeHome
  (Follows.ite hlo.writeBad hlo.writeHome).writeHome

theorem Follows.spillReg (h : Follows r s) {k d} : Follows r (s.spillReg k d) := by
  unfold State.spillReg
  dsimp only
  split
  · exact h
  · exact h.writeHalves.setCrew

theorem Follows.spillMany (h : Follows r s) {core n} : Follows r (s.spillMany core n) := by
  induction n generalizing s with
  | zero => exact h
  | succ n ih =>
    unfold State.spillMany
    refine .ite h ?_
    split
    · exact ih h.spillReg
    · split
      · exact ih h.setCrew
      · exact h

theorem Follows.spillPool (h : Follows r s) {core} : FollowsOpt r (s.spillPool core) := by
  unfold State.spillPool
  dsimp only
  split
  · trivial
  · exact .ite trivial (.just h.setCore.spillMany.notePool)

theorem Follows.ballastWindow (h : Follows r s) {core port} : FollowsOpt r (s.ballastWindow core port) := .ite h trivial

/-! ### Traps, kills and the repair of pages (R63, R119, R230 to R235) -/

theorem Follows.fetchTrap (h : Follows r s) {cause va} : FollowsOpt r (s.fetchTrap cause va) := by
  unfold State.fetchTrap
  refine .ite trivial ?_
  split
  · trivial
  · exact .ite (.just h.takeTraps) trivial

theorem Follows.resume (h : Follows r s) {k l pc} : Follows r (s.resume k l pc) := h
theorem Follows.killThread (h : Follows r s) {k l} : Follows r (s.killThread k l) := h.exitLanes
theorem Follows.killCrew (h : Follows r s) {k} : Follows r (s.killCrew k) := h.setCluster.setCrew.exitLanes

theorem Follows.dropBins (h : Follows r s) {lid cl} : Follows r (s.dropBins lid cl) :=
  .foldl (fun _ _ h => .ite h.setCluster.refillBin.hatch h.setCluster.refillBin) _ h

theorem Follows.killLaunch (h : Follows r s) {lid cause} : Follows r (s.killLaunch lid cause) := by
  unfold State.killLaunch
  extract_lets +onlyGivenNames x
  split
  · exact h.close
  · exact h.close
  · refine .ite h ?_
    extract_lets +onlyGivenNames s₁ s₂ s₃ s₄ ks s₅
    have hs₂ : Follows r s₂ := h
    have hs₃ : Follows r s₃ := .foldl (fun _ _ h => h.cancelCmd) _ hs₂
    have hs₄ : Follows r s₄ := .foldl (fun _ _ h => h.dropBins) _ hs₃
    have hs₅ : Follows r s₅ := .foldl (fun _ _ h => h.killCrew) _ hs₄
    exact hs₅
  · exact h

theorem Follows.dropTrap (h : Follows r s) {k} : Follows r (s.dropTrap k) := h

theorem Follows.repairPage (h : Follows r s) {asid cl va} : FollowsOpt r (s.repairPage asid cl va) := by
  unfold State.repairPage
  split
  · exact .ite h.repair h
  · exact h

theorem Follows.repairFor (h : Follows r s) {x} : FollowsOpt r (s.repairFor x) :=
  .bind _ fun _ hs => .ite (h.repairPage.of_some hs).repairPage (h.repairPage.of_some hs)

theorem Follows.pageRepair (h : Follows r s) {k} : FollowsOpt r (s.pageRepair k) := by
  unfold State.pageRepair
  split
  · trivial
  · exact .ite trivial (h.repairFor.map_state fun _ h => h.dropTrap.resume)

theorem Follows.storeFrame (h : Follows r s) {core asid lid tid va fs} : FollowsDone r (s.storeFrame core asid lid tid va fs) := by
  induction fs generalizing s va with
  | nil => exact h
  | cons f fs ih =>
    unfold State.storeFrame
    extract_lets +onlyGivenNames store d
    have hd : FollowsDone r d := by
      unfold d
      split
      · split
        · split
          case h_1 s' hs' => exact (h.repair.of_some hs').storeVirt
          case h_2 => trivial
        · trivial
      · exact h.storeVirt
    clear_value d
    split
    · exact ih hd
    · exact hd

theorem Follows.unspill (h : Follows r s) {k rs} : FollowsOpt r (s.unspill k rs) := by
  induction rs generalizing s with
  | nil => exact h
  | cons d rs ih =>
    unfold State.unspill
    dsimp only
    split
    · exact ih h
    · split
      case h_1 => trivial
      case h_2 s' hs' =>
        have h' : FollowsOpt r (some s') := hs' ▸ .ite h.refill h.setCrew.saveReg
        exact ih h'

theorem Follows.saveAgain (h : Follows r s) {k rs} : Follows r (s.saveAgain k rs) :=
  .foldl (fun _ _ h => by
    split
    · exact h.saveReg
    · exact h) _ h

theorem Follows.deliverFrame (h : Follows r s) {x} : FollowsOpt r (s.deliverFrame x) := by
  unfold State.deliverFrame
  extract_lets +onlyGivenNames y c u f
  refine .ite h.killLaunch ?_
  split
  case h_1 => trivial
  case h_2 => exact h.killLaunch
  case h_3 s' bs hs' =>
    have h' : Follows r s' := h.storeFrame.of_ok hs'
    refine .ite trivial ?_
    extract_lets +onlyGivenNames s₁ cycle s₂ s₃ y s₄
    have hs₄ : Follows r s₄ := (Follows.foldl (fun _ _ h => h.setCrew) _ h').resume.onThr.setCrew
    exact .just (.ite hs₄.notePool hs₄.saveAgain)

theorem Follows.deliverTrap (h : Follows r s) {x} : FollowsOpt r (s.deliverTrap x) :=
  .bind _ fun _ hs => (h.unspill.of_some hs).deliverFrame

theorem Follows.applyPolicy (h : Follows r s) {k x} : FollowsOpt r (s.applyPolicy k x) := by
  unfold State.applyPolicy
  refine .ite (.just h.dropTrap.breakpoint) ?_
  split
  · exact .just h.dropTrap.killLaunch
  · exact .just h.dropTrap.killThread
  · exact h.dropTrap.deliverTrap
  · exact h.dropTrap

theorem Follows.trapPolicy (h : Follows r s) {k} : FollowsOpt r (s.trapPolicy k) := by
  unfold State.trapPolicy
  split
  · trivial
  · exact .ite h (.ite trivial (.ite h.applyPolicy (.ite trivial h.applyPolicy)))

theorem Follows.debuggerRelease (h : Follows r s) {lid tid kill} : FollowsOpt r (s.debuggerRelease lid tid kill) := by
  unfold State.debuggerRelease
  refine .ite trivial ?_
  split
  · trivial
  · split
    · trivial
    · exact .ite trivial (.ite (.just h.killThread) h)

/-! ### Services (R308, R350) -/

theorem Follows.reply (h : Follows r s) {c lane w ct} : Follows r (s.reply c lane w ct) := by
  unfold State.reply
  split
  · exact h
  · exact h

theorem Follows.serviceReply (h : Follows r s) {id} : FollowsOpt r (s.serviceReply id) := by
  unfold State.serviceReply
  split
  · trivial
  · split
    · exact .ite (.just h.setCmd.finish) (.ite (.just h.finish) (.ite (.ite (.just h.finish) trivial) trivial))
    · trivial

theorem Follows.servicePlace (h : Follows r s) {c va} : Follows r (s.servicePlace c va).1 := by
  unfold State.servicePlace
  split
  next hx => exact h.translateRepair.of_fst hx
  next hx => exact h.translateRepair.of_fst hx

theorem Follows.serviceStore (h : Follows r s) {cell bs} : Follows r (s.serviceStore cell bs).1 := by
  unfold State.serviceStore
  split
  · exact h.writeHome
  · exact h.applyHome

theorem Follows.allocLane (h : Follows r s) {id lane} : FollowsOpt r (s.allocLane id lane) :=
  .bind _ fun q _ => by
    dsimp only
    refine .ite trivial (.ite (.just h.reply) ?_)
    split
    next hx => exact .just (h.servicePlace.of_fst hx).reply
    next hx =>
      have hs := h.servicePlace.of_fst hx
      split
      · exact .just hs.reply
      · exact .ite (.just hs.reply) (.just hs.serviceStore.setAspace.setVi.reply)

theorem Follows.freeLane (h : Follows r s) {id lane} : FollowsOpt r (s.freeLane id lane) :=
  .bind _ fun q _ => by
    dsimp only
    split
    · exact .just h.reply
    · exact .ite (.just h.reply) (.ite trivial (.just h.unmapRange.setAspace.setVi.reply))

theorem Follows.mapShare (h : Follows r s) {vi asid p va n} : FollowsOpt r (s.mapShare vi asid p va n) := by
  induction n generalizing s va with
  | zero => exact h
  | succ n ih =>
    unfold State.mapShare
    split
    · trivial
    · exact ih h.takeZeroed.mapPage

theorem Follows.mapBag (h : Follows r s) {vi asid b ns} : FollowsOpt r (s.mapBag vi asid b ns) := by
  induction ns generalizing s with
  | nil => exact h
  | cons n ns ih =>
    rw [State.mapBag]
    have hn := h.mapShare (vi := vi) (asid := asid) (p := b.pch n) (va := b.slotVa n 0) (n := b.sharePages)
    revert hn
    cases s.mapShare vi asid (b.pch n) (b.slotVa n 0) b.sharePages with
    | none => exact fun _ => trivial
    | some s' => exact ih

theorem Follows.newBag (h : Follows r s) {c va} : Follows r (s.newBag c va).1 := by
  unfold State.newBag
  extract_lets +onlyGivenNames q w s₁
  have hs₁ : Follows r s₁ := h.engineRecord.servicePlace
  clear_value w
  split
  · split
    · exact hs₁
    · extract_lets +onlyGivenNames a
      split
      · exact hs₁
      · extract_lets +onlyGivenNames pages v
        split
        · exact hs₁
        · split
          · exact hs₁
          · extract_lets +onlyGivenNames b u
            split
            case h_1 => exact hs₁
            case h_2 u' hu' => exact (Follows.mapBag (s := u.setVi _ _) hs₁ |>.of_some hu').serviceStore
  · exact hs₁

theorem Follows.bagnewLane (h : Follows r s) {id lane} : FollowsOpt r (s.bagnewLane id lane) :=
  .bind _ fun _ _ => .ite trivial (.ite (.just h.reply) (.just h.newBag.reply))

theorem Follows.discardBag (h : Follows r s) {asid idx} : Follows r (s.discardBag asid idx) := h.unmapRange.setBag.setVi
theorem Follows.endFree (h : Follows r s) {asid idx} : FollowsOpt r (s.endFree asid idx) := .ite trivial (.just h.discardBag)

theorem Follows.replyFree (h : Follows r s) {id lane} : Follows r (s.replyFree id lane) := by
  unfold State.replyFree
  split
  · exact h.reply
  · exact h

theorem Follows.bagfreeLane (h : Follows r s) {id lane} : FollowsOpt r (s.bagfreeLane id lane) := by
  unfold State.bagfreeLane
  split
  · exact h.endFree.map_state fun _ h => h.replyFree
  · refine .map _ fun q _ => ?_
    dsimp only
    split
    · exact h.reply
    · refine .ite h.reply (FollowsOpt.getD (FollowsOpt.map_state (Follows.endFree ?_) fun _ h => h.replyFree) ?_)
      · exact h
      · exact h

theorem Follows.readString (h : Follows r s) {c va n} : Follows r (s.readString c va n).1 := by
  induction n generalizing s va with
  | zero => exact h
  | succ n ih =>
    rw [State.readString]
    split
    · split
      · exact h.engineLoad
      · exact ih h.engineLoad
    · exact h.engineLoad

theorem Follows.printLane (h : Follows r s) {id lane} : FollowsOpt r (s.printLane id lane) :=
  .bind _ fun q _ => .ite trivial (.just (by
    split
    next hx => exact (h.readString.of_fst hx).reply
    next hx => exact (Follows.setLaunch (h.readString.of_fst hx)).reply))

end
end Sys2Proof.Machine

namespace Sys2Proof.Machine

section
variable {r s t : State} {α β : Type}

/-! ### Writes and packets from outside the chip (R245 to R250) -/

theorem Follows.physWrite (h : Follows r s) {pa data bad} : Follows r (s.physWrite pa data bad).1 := h.applyHome

theorem Follows.outsideWrite (h : Follows r s) {vi port pa data bad} : FollowsOpt r (s.outsideWrite vi port pa data bad) :=
  .ite (.just h.post) (.ite h (.ite trivial (.just (h.physWrite (bad := bad)))))

theorem Follows.hostWrite (h : Follows r s) {vi pa data} : FollowsOpt r (s.hostWrite vi pa data) :=
  .ite (.just h.writeHome) (.ite h.outsideWrite trivial)

theorem Follows.outsideRead (h : Follows r s) {vi pa n} : FollowsOpt r (s.outsideRead vi pa n) :=
  .ite trivial (.ite (.just h.post) (.just h.post))

theorem Follows.delivered (h : Follows r s) {p} : Follows r (s.delivered p) := h

theorem Follows.supexWrite (h : Follows r s) {vi p pa data bad} : FollowsOpt r (s.supexWrite vi p pa data bad) :=
  .ite h.delivered.outsideWrite trivial

theorem Follows.peerReply (h : Follows r s) {p data bad} : FollowsOpt r (s.peerReply p data bad) := by
  unfold State.peerReply
  split
  · trivial
  · extract_lets +onlyGivenNames y s'
    have hs' : Follows r s' := h
    clear_value s'
    exact .ite trivial (.ite (.just hs'.post) (.ite hs' (.ite trivial (.just (hs'.physWrite (bad := bad))))))

theorem Follows.portDown (h : Follows r s) {p} : Follows r (s.portDown p) := h
theorem Follows.peerPackets (h : Follows r s) {port pa n read} : FollowsOpt r (s.peerPackets port pa n read) :=
  .ite trivial (.ite h (.ite trivial h))
theorem Follows.doorbell (h : Follows r s) {vi queue tail} : FollowsOpt r (s.doorbell vi queue tail) := .ite (.just h.setVi) trivial

theorem Follows.queueRecord (h : Follows r s) {vi queue record} : FollowsOpt r (s.queueRecord vi queue record) := by
  unfold State.queueRecord
  extract_lets +onlyGivenNames v q va x
  have hx : Follows r x.1 := h.translateRepair
  clear_value x
  refine .ite h ?_
  split
  · exact hx
  · exact .ite trivial (.just hx.applyHome.setVi)

theorem Follows.serveUe (h : Follows r s) {u} : FollowsOpt r (s.serveUe u) := by
  unfold State.serveUe
  split
  · exact h
  · exact h.queueRecord.map_state fun _ h => h.post
  · exact .just h.post

/-! ### Checkpoints (R254) -/

theorem Follows.evictAll (h : Follows r s) : Follows r s.evictAll := .foldl (fun _ _ h => h.takeVictim) _ h

theorem Follows.checkpoint (h : Follows r s) : Follows r s.checkpoint := by
  unfold State.checkpoint
  split
  · exact h.evictAll
  · exact .ite h h
  · exact h

theorem Follows.releaseWrite (h : Follows r s) {w} : FollowsOpt r (s.releaseWrite w) :=
  .ite (.just (.ite h h.post)) (.ite trivial (.just (.ite h.physWrite (h.physWrite (bad := w.bad)))))

theorem Follows.releaseWrites (h : Follows r s) {ws} : Follows r (s.releaseWrites ws).1 := by
  induction ws generalizing s with
  | nil => exact h
  | cons w ws ih =>
    unfold State.releaseWrites
    split
    · exact h
    next hx => exact ih (h.releaseWrite.of_some hx)

theorem Follows.serveUes (h : Follows r s) {us} : Follows r (s.serveUes us).1 := by
  induction us generalizing s with
  | nil => exact h
  | cons u us ih =>
    unfold State.serveUes
    split
    · exact h
    next hx => exact ih (h.serveUe.of_some hx)

theorem Follows.releaseHeld (h : Follows r s) : Follows r s.releaseHeld := h.releaseWrites.serveUes.of_eq rfl rfl

theorem Follows.checkpointDone (h : Follows r s) : FollowsOpt r s.checkpointDone := by
  unfold State.checkpointDone
  split
  · exact .just (Follows.releaseHeld h)
  · exact .ite (.just h.releaseHeld) trivial
  · trivial

/-! ### Meetings and herds (R22 to R26, R31 to R33) -/

theorem Follows.setCur (h : Follows r s) {c} : Follows r (s.setCur c) := h.setCrew

theorem Follows.meetTimeout (h : Follows r s) {crew meeting} : FollowsOpt r (s.meetTimeout crew meeting) := by
  unfold State.meetTimeout
  extract_lets +onlyGivenNames c
  split
  · trivial
  · exact .ite (.just h.setCrew) trivial

theorem Follows.arriveLanes (h : Follows r s) {slot waits ls} : Follows r (s.arriveLanes slot waits ls) := by
  induction ls generalizing s with
  | nil => exact h
  | cons l ls ih =>
    unfold State.arriveLanes
    extract_lets +onlyGivenNames c t
    split
    · exact ih h
    · exact ih h.onBarrier.setCrew

theorem Follows.barrierOp (h : Follows r s) {slot waits} : Follows r (s.barrierOp slot waits) :=
  h.issue fun _ _ _ h => .ite (.done (.foldl (fun _ _ h => h.settleBarrier) _ h.arriveLanes)) trivial

theorem Follows.endHold (h : Follows r s) {crew l} : FollowsOpt r (s.endHold crew l) := by
  unfold State.endHold
  extract_lets +onlyGivenNames t
  split
  · trivial
  · exact .ite (.just h.onThr) trivial

/-! ### The matrix engine (R161 to R173) -/

theorem Follows.matrixOp (h : Follows r s) {d a b mk} : Follows r (s.matrixOp d a b mk) := h.groupEngine

theorem Follows.mmaStart (h : Follows r s) {core} : FollowsOpt r (s.mmaStart core) := by
  refine .ite trivial ?_
  split
  · trivial
  · exact .just h.setCmd

theorem Follows.matrixDone (h : Follows r s) {core kind} {run : State → Cmd → State}
    (hr : ∀ s c, Follows r s → Follows r (run s c)) : FollowsOpt r (s.matrixDone core kind run) := by
  unfold State.matrixDone
  split
  · trivial
  · exact .ite (.just (hr _ _ h)) h.concluded

theorem Follows.mmaFinish (h : Follows r s) {c} : Follows r (s.mmaFinish c) := h.setWindow.conclude
theorem Follows.mmaDone (h : Follows r s) {core} : FollowsOpt r (s.mmaDone core) := h.matrixDone fun _ _ h => h.mmaFinish

theorem Follows.drainStart (h : Follows r s) {core} : FollowsOpt r (s.drainStart core) := by
  unfold State.drainStart
  extract_lets +onlyGivenNames cs
  refine .ite trivial ?_
  split
  · trivial
  · exact .ite trivial (.just h.setCmd)

theorem Follows.mdrainFinish (h : Follows r s) {c} : Follows r (s.mdrainFinish c) := h.setWindow.conclude
theorem Follows.mdrainDone (h : Follows r s) {core} : FollowsOpt r (s.mdrainDone core) := h.matrixDone fun _ _ h => h.mdrainFinish
theorem Follows.mzeroFinish (h : Follows r s) {c} : Follows r (s.mzeroFinish c) := h.setWindow.conclude
theorem Follows.mzeroDone (h : Follows r s) {core} : FollowsOpt r (s.mzeroDone core) := h.matrixDone fun _ _ h => h.mzeroFinish
theorem Follows.copysFinish (h : Follows r s) {c} : Follows r (s.copysFinish c) := h.setWindow.conclude
theorem Follows.copysDone (h : Follows r s) {core} : FollowsOpt r (s.copysDone core) := h.matrixDone fun _ _ h => h.copysFinish

end
end Sys2Proof.Machine

namespace Sys2Proof.Machine

section
variable {r s t : State} {α β : Type}

/-! ### Commands of the near-memory units (R204 to R212) -/

theorem Follows.readBlock (h : Follows r s) {core asid va} : Follows r (s.readBlock core asid va).1 := h.engineRecord

theorem Follows.nmloadRun (h : Follows r s) {c va p n} : Follows r (s.nmloadRun c va p n) := by
  unfold State.nmloadRun
  extract_lets +onlyGivenNames x
  have hx : Follows r x.1 := h.engineRecord
  clear_value x
  refine .ite h.conclude ?_
  split
  · exact hx.conclude
  · extract_lets +onlyGivenNames ws q
    refine .ite hx.conclude ?_
    split
    · exact hx.conclude
    · exact hx.setPch.conclude

theorem Follows.nmloadComplete (h : Follows r s) {id} : FollowsOpt r (s.nmloadComplete id) := by
  unfold State.nmloadComplete
  split
  · trivial
  · split
    · exact .ite (.just h.nmloadRun) trivial
    · trivial

theorem Follows.writeSeal (h : Follows r s) {asid on va} : Follows r (s.writeSeal asid on va) := by
  unfold State.writeSeal
  split
  · exact h
  · exact h.writePte.dropTlb

theorem Follows.sealPages (h : Follows r s) {asid mode pages} : Follows r (s.sealPages asid mode pages) :=
  .foldl (fun _ _ h => h.writeSeal) _ h

theorem Follows.nmarmSeal (h : Follows r s) {id} : FollowsOpt r (s.nmarmSeal id) := by
  unfold State.nmarmSeal
  split
  · trivial
  · split
    · exact .ite (.just h.conclude) (.ite trivial (.just h.sealPages.conclude))
    · exact h.concluded
    · trivial

theorem Follows.setDivider (h : Follows r s) {stack needs} : Follows r (s.setDivider stack needs) := h.setStack

theorem Follows.startRun (h : Follows r s) {c va b k vec} : Follows r (s.startRun c va b k vec) := by
  unfold State.startRun
  extract_lets +onlyGivenNames owned s₁ s₂ s₃
  have hs₂ : Follows r s₂ := .ite h.setCmd.setDivider h.setCmd
  exact .foldl (fun _ _ h => h.setPch) _ hs₂

theorem Follows.serveRun (h : Follows r s) {c va} : FollowsOpt r (s.serveRun c va) := by
  unfold State.serveRun
  extract_lets +onlyGivenNames x
  have hx : Follows r x.1 := h.readBlock
  clear_value x
  refine .ite (.just h.conclude) (.ite trivial ?_)
  split
  · exact .just hx.conclude
  · refine .ite (.just hx.conclude) (.ite (.just hx.conclude) ?_)
    split
    · trivial
    · extract_lets +onlyGivenNames v
      have hv : Follows r v.1 := .mapM (fun _ _ h => h.engineLoad) _ hx
      exact .ite trivial (.ite (.just hv.conclude) (.just hv.startRun))

theorem Follows.idleDivider (h : Follows r s) {stack} : Follows r (s.idleDivider stack) := .ite h.setDivider h

theorem Follows.nmrunStart (h : Follows r s) {stack} : FollowsOpt r (s.nmrunStart stack) := by
  unfold State.nmrunStart
  split
  · trivial
  · exact .ite h.serveRun trivial

theorem Follows.freeRun (h : Follows r s) {b} : Follows r (s.freeRun b) := (Follows.foldl (fun _ _ h => h.setPch) _ h).idleDivider

theorem Follows.nmrunComplete (h : Follows r s) {id} : FollowsOpt r (s.nmrunComplete id) := by
  unfold State.nmrunComplete
  split
  · trivial
  · split
    · exact .ite (.just h.freeRun.written) trivial
    · exact h.concluded
    · trivial

theorem Follows.unseal (h : Follows r s) {asid pages} : Follows r (s.unseal asid pages) :=
  (Follows.foldl (fun _ _ h => h.writeSeal) pages h).of_eq rfl rfl

theorem Follows.nmdisarmComplete (h : Follows r s) {id} : FollowsOpt r (s.nmdisarmComplete id) := by
  unfold State.nmdisarmComplete
  split
  · trivial
  · split
    · refine .ite trivial ?_
      extract_lets +onlyGivenNames x
      have hx : Follows r x.1 := h.readBlock
      clear_value x
      refine .ite (.just h.conclude) ?_
      split
      · exact .just hx.conclude
      · exact .ite (.just hx.conclude) (.ite (.just hx.conclude) (.just hx.unseal.conclude))
    · trivial

/-! ### Microprograms (R197 to R203) -/

theorem Follows.unitPlace (h : Follows r s) {core asid va write} : Follows r (s.unitPlace core asid va write).1 := by
  unfold State.unitPlace
  split
  next hx => exact h.translateRepair.of_fst hx
  next hx => exact h.translateRepair.of_fst hx

theorem Follows.failRun (h : Follows r s) {n} : Follows r (s.failRun n) :=
  (Follows.foldl (fun _ _ h => .ite h.setPch h) (List.range 512) h).setPch
theorem Follows.spend (h : Follows r s) {n was} : Follows r (s.spend n was) := h.setPch
theorem Follows.holdNotes (h : Follows r s) {cells} : Follows r (s.holdNotes cells) := h
theorem Follows.releaseSector (h : Follows r s) {o} : Follows r (s.releaseSector o) := h

theorem Follows.flushStream (h : Follows r s) {n i} : Follows r (s.flushStream n i) := by
  unfold State.flushStream
  extract_lets +onlyGivenNames p ws c bs
  have hc : Follows r c.1 := .mapM (fun _ _ h => h.unitPlace) _ h
  clear_value c
  exact .ite h (.ite hc.failRun hc.engineMem.holdNotes.setPch)

theorem Follows.flushAll (h : Follows r s) {n} : Follows r (s.flushAll n) := .foldl (fun _ _ h => h.flushStream) _ h

theorem Follows.loadColumn (h : Follows r s) {n asid i c} : Follows r (s.loadColumn n asid i c) := by
  unfold State.loadColumn
  extract_lets +onlyGivenNames s₁ p x read
  have hs₁ : Follows r s₁ := h.flushStream
  have hx : Follows r x.1 := .mapM (fun _ _ h => h.unitPlace) _ hs₁
  clear_value x
  exact .ite h (.ite hx.failRun hx.setPch)

theorem Follows.takeScale (h : Follows r s) {n asid b i} : Follows r (s.takeScale n asid b i) := by
  unfold State.takeScale
  extract_lets +onlyGivenNames k t e here s₁ p byte s₂
  have hs₁ : Follows r s₁ := .ite h.loadColumn h
  exact hs₁.withFresh.setPch

theorem Follows.pauseFor (h : Follows r s) {n} : Follows r (s.pauseFor n) := .ite h (.ite h.setPch h.setPch)

/-- What an operation of a microprogram must do: what it leaves follows the state it starts from. -/
def KeepingMicro (f : State → Nat → Nat → NmBlock → State) : Prop := ∀ r s n asid b, Follows r s → Follows r (f s n asid b)

theorem Follows.micro (h : Follows r s) {f} (hf : KeepingMicro f) : Follows r (s.micro f) :=
  .ite (hf _ _ _ _ _ h).setPch.spend.pauseFor h

theorem Follows.unitOp (h : Follows r s) {f} : Follows r (s.unitOp f) := h.micro fun _ _ _ _ _ h => h.setPch

theorem Follows.endHere (h : Follows r s) {n id} : Follows r (s.endHere n id) := by
  unfold State.endHere
  extract_lets +onlyGivenNames s₁ mine ct s₂ s₃
  have hs₂ : Follows r s₂ := .foldl (fun _ _ h => h.releaseSector) _ h.flushAll
  clear_value s₂
  have hs₃ : Follows r s₃ := hs₂
  clear_value s₃
  exact hs₃.setPch

theorem Follows.readCols (h : Follows r s) {n asid b i e} : Follows r (s.readCols n asid b i e).1 := by
  unfold State.readCols
  extract_lets +onlyGivenNames u s₁ s₂ first last s₃ next
  have hs₂ : Follows r s₂ := .ite h.loadColumn.takeScale h.loadColumn
  clear_value s₂
  exact .ite hs₂ hs₂.loadColumn

theorem Follows.refreshNow (h : Follows r s) {n} : Follows r (s.refreshNow n) := h.flushAll.spend.setPch
theorem Follows.refreshPch (h : Follows r s) {n} : FollowsOpt r (s.refreshPch n) := .ite trivial (.just h.refreshNow)

theorem Follows.resumePch (h : Follows r s) {n} : FollowsOpt r (s.resumePch n) := by
  unfold State.resumePch
  extract_lets +onlyGivenNames p
  split
  · trivial
  · exact .ite (.just h.setPch) trivial

end
end Sys2Proof.Machine

namespace Sys2Proof.Machine

section
variable {r s t : State} {α β : Type}

theorem Follows.trapAll (h : Follows r s) {cause} : Follows r (s.trapAll cause) := h.issue fun _ _ _ h => h.setCrew

/-! ### The system (R239, R250 to R253, R256) -/

theorem Follows.trip (h : Follows r s) : Follows r s.trip := h.of_wf (Memory.wf_filter _ _) rfl

theorem Follows.sense (h : Follows r s) {die temp warn} : Follows r (s.sense die temp warn) := by
  unfold State.sense
  extract_lets +onlyGivenNames d s₁ s₂
  have hs₂ : Follows r s₂ := .ite h.setDie.post h.setDie
  exact .ite hs₂.trip hs₂

theorem Follows.retime (h : Follows r s) {n old new} : Follows r (s.retime n old new) := h.setPch

theorem Follows.tierChange (h : Follows r s) {stack temp} : Follows r (s.tierChange stack temp) := by
  unfold State.tierChange
  extract_lets +onlyGivenNames x u old new s₁ s₂
  have hs₁ : Follows r s₁ := .ite h (.foldl (fun _ _ h => h.retime) _ h)
  exact hs₁.setStack.idleDivider

theorem Follows.applyFloor (h : Follows r s) : Follows r s.applyFloor := .foldl (fun _ _ h => h.idleDivider) _ h
theorem Follows.stepClocks (h : Follows r s) {down} : Follows r (s.stepClocks down) := .foldl (fun _ _ h => h.setDie) _ h

/-- A floor for the dividers is nothing of memory or time. -/
theorem Follows.withFloor (h : Follows r s) {n : Nat} : Follows r { s with floor := n } := h

/-- Nor are the frames in use. -/
theorem Follows.withFrames (h : Follows r s) {fs : List Nat} : Follows r { s with frames := fs } := h

theorem Follows.reducePower (h : Follows r s) : Follows r s.reducePower := by
  unfold State.reducePower
  extract_lets +onlyGivenNames f s₁ s₂ up y
  have hs₁ : Follows r s₁ := h
  have hs₂ : Follows r s₂ := h
  have hy : Follows r y := hs₂.withFloor.applyFloor.stepClocks
  clear_value y s₂ s₁
  exact .ite hs₁ (.ite hs₂.withFloor.applyFloor (hy.of_eq rfl rfl))

theorem Follows.restorePower (h : Follows r s) {power} : Follows r (s.restorePower power) := by
  unfold State.restorePower
  extract_lets +onlyGivenNames y
  have hy : Follows r y := h.stepClocks
  clear_value y
  refine .ite (hy.of_eq rfl rfl) (.ite h.withFloor.applyFloor ?_)
  split
  · exact h
  · exact h

/-! ### Homes, errors and mapping (R118 to R133, R246) -/

theorem Follows.loadFill (h : Follows r s) {core asid va} : FollowsOpt r (s.loadFill core asid va) := by
  unfold State.loadFill
  split
  · trivial
  · exact .ite trivial (.just h.holdTlb.fill)

theorem Follows.atomAtHome (h : Follows r s) {core asid va o b64 x k} : FollowsOpt r (s.atomAtHome core asid va o b64 x k) := by
  unfold State.atomAtHome
  extract_lets +onlyGivenNames m
  refine .ite trivial ?_
  split
  next hx => exact .just (h.atomVirt.of_ok hx)
  · trivial

theorem Follows.walkComplete (h : Follows r s) {die asid va} : FollowsOpt r (s.walkComplete die asid va) := by
  refine .ite trivial ?_
  split
  · trivial
  · exact .just h.setDie

theorem Follows.onWindow (h : Follows r s) {core lid f} : Follows r (s.onWindow core lid f) := h.setWindow

theorem Follows.storeError (h : Follows r s) {core place} : Follows r (s.storeError core place) := by
  cases place with
  | l1 line sector => exact h.setCore
  | scratch lid off => exact h.onWindow
  | acc lid cell => exact h.onWindow
  | drainScale lid idx => exact h.onWindow
  | blockScale lid idx => exact h.onWindow
  | preg crew reg half => exact .ite h.setCrew h

theorem Follows.mapCode (h : Follows r s) {asid va e large} : Follows r (s.mapCode asid va e large) := by
  unfold State.mapCode
  extract_lets +onlyGivenNames fs s₁
  have hs₁ : Follows r s₁ := h
  exact .ite hs₁.mapLarge hs₁.mapPage

theorem Follows.mapExecutable (h : Follows r s) {asid pages} : FollowsOpt r (s.mapExecutable asid pages) :=
  .ite trivial (.just (.ite (.foldl (fun _ _ h => h.mapCode) _ h) (.foldl (fun _ _ h => h.post) _ h)))

theorem Follows.shootdown (h : Follows r s) {asid va new level} : FollowsOpt r (s.shootdown asid va new level) := by
  unfold State.shootdown
  extract_lets +onlyGivenNames size base
  split
  · trivial
  · exact .ite trivial (.just (h.dropTlbRange.writePte.of_eq rfl rfl))

theorem Follows.mapMailbox (h : Follows r s) {asid p} : Follows r (s.mapMailbox asid p) := by
  unfold State.mapMailbox
  split
  · exact h
  · exact .ite h.withFrames.mapPage h

theorem Follows.createSpace (h : Follows r s) {vi asid root lease} : FollowsOpt r (s.createSpace vi asid root lease) := by
  unfold State.createSpace
  split
  · trivial
  · exact .ite (.just (.foldl (fun _ _ h => h.mapMailbox) _ h.setAspace)) trivial

theorem Follows.destroySpace (h : Follows r s) {asid} : FollowsOpt r (s.destroySpace asid) := by
  unfold State.destroySpace
  extract_lets +onlyGivenNames a s₁ s₂ s₃ s₄ v s₅ keep
  have hs₂ : Follows r s₂ := .foldl (fun _ _ h => .ite h.discardBag h) _ h.unseal
  have hs₃ : Follows r s₃ := .foldl (fun _ _ h => h.unmapRange) _ hs₂
  have hs₄ : Follows r s₄ := .foldl (fun _ _ h => h.unmapPage) _ hs₃
  have hs₅ : Follows r s₅ := hs₄.setVi
  clear_value s₅
  exact .ite trivial (.just (hs₅.of_eq rfl rfl))

theorem Follows.grantRange (h : Follows r s) {vi base units} : Follows r (s.grantRange vi base units) :=
  .ite h (h.of_wf (Memory.wf_filter _ _) rfl)

end
end Sys2Proof.Machine

namespace Sys2Proof.Machine

section
variable {r s t : State} {α β : Type}

/-! ### The instructions whose meaning is more than one call -/

theorem Follows.execStrel (h : Follows r s) {d a b z p} : FollowsOut r (execStrel d a b z p s) :=
  h.issue fun _ _ _ h => .ite (by
    split
    · trivial
    next hx => exact (h.eachLane fun _ _ _ h => h.storeLane).of_some hx) trivial

theorem Follows.execBtake (h : Follows r s) {d a b f n} : FollowsOut r (execBtake d a b f n s) :=
  h.issue fun _ _ _ h => .ite trivial (by
    split
    · trivial
    next hx => exact (h.eachLane fun _ _ _ h => h.takeLane).of_some hx)

theorem Follows.execBscan (h : Follows r s) {d a b c} : FollowsOut r (execBscan d a b c s) :=
  h.issue fun _ _ _ h => .ite trivial (by
    split
    · trivial
    next hx => exact (h.eachLane fun _ _ _ h => h.scanLane).of_some hx)

theorem Follows.execSpawn (h : Follows r s) {a n entry timer} : FollowsOut r (execSpawn a n entry timer s) :=
  h.issue fun _ _ _ h => .ite (by
    split
    · trivial
    next hx =>
      refine (h.eachLane ?_).of_some hx
      exact fun _ _ _ h => h.spawnLane) trivial

theorem Follows.execRegroup (h : Follows r s) {key entry timer} : FollowsOut r (execRegroup key entry timer s) :=
  h.issue fun _ _ _ h => .ite h.setCrew (.ite (by
    split
    · trivial
    next hx =>
      refine (h.eachLane ?_).of_some hx
      exact fun _ _ _ h => h.regroupLane) trivial)

theorem Follows.execLaunch (h : Follows r s) {d a} : FollowsOut r (execLaunch d a s) :=
  h.issue fun _ _ _ h => .ite trivial h.launchLanes

theorem Follows.execFcancel (h : Follows r s) {a} : FollowsOut r (execFcancel a s) :=
  h.issue fun _ _ _ h => .done (.foldl (fun _ _ h => h.cancelSlot) _ h)

theorem Follows.execScall (h : Follows r s) {d a num} : FollowsOut r (execScall d a num s) :=
  h.issue fun _ _ _ h => by
    dsimp only
    split
    · exact .done h.accept
    · trivial

theorem Follows.execBar (h : Follows r s) {n} : FollowsOut r (execBar n s) := .next (.ite h.barrierOp h.setCur)

/-! ### Operations of a microprogram -/

theorem Follows.execMEnd (h : Follows r s) : FollowsOut r (execMEnd s) := h.micro fun _ _ _ _ _ h => h.endHere
theorem Follows.execMRows (h : Follows r s) {sg} : FollowsOut r (execMRows sg s) := h.micro fun _ _ _ _ _ h => h.flushStream.setPch

theorem Follows.execMCols (h : Follows r s) {sg d} : FollowsOut r (execMCols sg d s) :=
  h.micro fun r _ _ _ _ h => by
    extract_lets +onlyGivenNames i t p e rowOpen late s₁ x s₂
    have hs₁ : Follows r s₁ := .ite h.setPch h
    have hx : Follows r x.1 := by
      unfold x
      split
      · exact hs₁.readCols
      · exact hs₁
    exact hx.setPch

theorem Follows.execMWcol (h : Follows r s) {sg} : FollowsOut r (execMWcol sg s) :=
  h.micro fun _ _ _ _ _ h => .ite h.setPch h.setPch

theorem Follows.execMLoop (h : Follows r s) {n target} : FollowsOut r (execMLoop n target s) := by
  unfold Machine.execMLoop
  dsimp only
  split
  · exact .next h.setPch
  · exact .next h

/-! ### Events -/

theorem Follows.execHaltHerd (h : Follows r s) {lid who} : FollowsOut r (execHaltHerd lid who s) := by
  refine .next ?_
  split
  · exact h
  · exact h.haltCrews

theorem Follows.execDbgStep (h : Follows r s) {lid who} : FollowsOut r (execDbgStep lid who s) := by
  refine .next ?_
  split
  · exact h
  · exact .ite h.beginStep h

theorem Follows.execDump (h : Follows r s) {lid who} : FollowsOut r (execDump lid who s) := by
  refine .next ?_
  split
  · exact h
  · exact h.post

theorem Follows.execDebuggerAttach (h : Follows r s) {lid} : FollowsOut r (execDebuggerAttach lid s) := .next (.ite h.setLaunch h)
theorem Follows.execSystemSoftwareKill (h : Follows r s) {lid} : FollowsOut r (execSystemSoftwareKill lid s) :=
  .next (.ite h.withFresh.killLaunch h)
theorem Follows.execDieClockStep (h : Follows r s) {die temp} : FollowsOut r (execDieClockStep die temp s) :=
  .next (.ite h.setDie.sense h)
theorem Follows.execThermalTrip (h : Follows r s) {reading} : FollowsOut r (execThermalTrip reading s) := .next (.ite h.sense h)
theorem Follows.execThermalWarning (h : Follows r s) {die temp} : FollowsOut r (execThermalWarning die temp s) := .next (.ite h.sense h)
theorem Follows.execRefreshTierChange (h : Follows r s) {stack temp} : FollowsOut r (execRefreshTierChange stack temp s) :=
  .next (.ite h.tierChange h)

/-- What was measured of the power is nothing of memory or time. -/
theorem Follows.withPower (h : Follows r s) {n : Nat} : Follows r { s with power := n } := h

theorem Follows.execGovernorPeriod (h : Follows r s) {power} : FollowsOut r (execGovernorPeriod power s) :=
  .next (.ite h.withPower.reducePower h.withPower.restorePower)

theorem Follows.execSetBallastSetpoint (h : Follows r s) {watts} : FollowsOut r (execSetBallastSetpoint watts s) := by
  cases watts with
  | none => exact .next h
  | some p => exact .next (.ite h h)

theorem Follows.execDtimePassed (h : Follows r s) {n} : FollowsOut r (execDtimePassed n s) := .next (h.passTime (Nat.le_max_left _ _))

theorem Follows.execEccUncorrectable (h : Follows r s) {e} : FollowsOut r (execEccUncorrectable e s) := .next (.ite h h)
theorem Follows.execStoreEccError (h : Follows r s) {core e} : FollowsOut r (execStoreEccError core e s) :=
  .next (Follows.ite h h.storeError).post

theorem Follows.execLaunchQueueSetup (h : Follows r s) {vi queue base log2} : FollowsOut r (execLaunchQueueSetup vi queue base log2 s) := by
  refine .next ?_
  split
  · exact h
  · exact .ite h.setVi h

theorem Follows.execSupexReadIn (h : Follows r s) {port dest reply} : FollowsOut r (execSupexReadIn port dest reply s) := by
  refine .next ?_
  split
  · exact .ite (h.delivered.outsideRead.getD h) h
  · exact h.peerReply.getD h

theorem Follows.execFlitRetry (h : Follows r s) {port} : FollowsOut r (execFlitRetry port s) := .next (.ite (.ite h.portDown h) h)

theorem Follows.execUeFrameReceive (h : Follows r s) {port req} : FollowsOut r (execUeFrameReceive port req s) := by
  refine .next (.ite h ?_)
  split
  next s' hx =>
    have hs' : FollowsOpt r (some s') := hx ▸ .ite h.serveUe trivial
    exact hs'
  · exact h

theorem Follows.execLinkTrain (h : Follows r s) {rates width} : FollowsOut r (execLinkTrain rates width s) := by
  refine .next ?_
  split
  · exact h
  · exact .ite h h

end
end Sys2Proof.Machine

namespace Sys2Proof.Machine

section
variable {r s t : State} {α β : Type}

/-! ### Every execution -/

/-- Whatever executes but a reset, the state after it follows r when the one before it does. -/
theorem Follows.exec (h : Follows r s) {i : Instr} (hi : ∀ image, i ≠ .resetBoot image) : FollowsOut r (exec i s) := by
  cases i with
  | nop | add | addI | addc | sub | subb | mul | mulI | mulh | mad | div | rem | min | minI | max | maxI | abs | and | andI
  | or | orI | xor | xorI | andn | shl | shlI | shr | shrI | sar | sarI | rot | rotI | clz | popc | brev | bfx | bfi | perm
  | sel | cmp | cmpI | lea | clmul | mov | add64 | cmp64 | movi | fadd | fsub | fmul | ffma | fmin | fmax | fcmp | fclass
  | frcp | frsq | fsqrt | fexp2 | flog2 | dot4 | h2add | h2mul | h2fma | h2min | h2max | cvt | dq4 | br | call | fwait
  | ftest | ffirst | bcount | binfo | swrite => exact h.alu
  | shfl | vote | scan | topk => exact h.cross
  | sread | jmp | ret => exact h.issue fun _ _ _ h => h
  | mpush | mjoin | mdrop | yield => exact h.issue fun _ _ _ h => h.setCur
  | exit => exact h.issue fun _ _ _ h => h.endThreads
  | bar => exact h.execBar
  | bara => exact h.barrierOp
  | trap | bkpt => exact h.trapAll
  | ld | ldWide | lda | ldnc => exact h.load1
  | st | stWide | stnc => exact h.store1
  | strel => exact h.execStrel
  | atom => exact h.memory fun _ _ _ h => h.atomLane
  | bput => exact h.memory fun _ _ _ h => h.putLane
  | tret => exact h.memory fun _ _ _ h => h.tretLane
  | fenceCore | fenceDev | fenceSys => exact h.fence
  | spawn => exact h.execSpawn
  | regroup => exact h.execRegroup
  | fcancel => exact h.execFcancel
  | fwany | fwall => exact h.waitSlots
  | ctset | ctadd => exact h.counterOp
  | copy | bdrain | nmload | nmrun | nmdisarm => exact h.perLaneEngine
  | fetch | nmarm => exact h.perLaneWhen
  | mma | mdrain | mzero | copys => exact h.matrixOp
  | launch => exact h.execLaunch
  | btake => exact h.execBtake
  | bscan => exact h.execBscan
  | scall => exact h.execScall
  | mEnd => exact h.execMEnd
  | mRows => exact h.execMRows
  | mCols => exact h.execMCols
  | mWcol => exact h.execMWcol
  | mBvec | mMacb | mAxpy | mRed | mActv | mWmbx => exact h.unitOp
  | mLoop => exact h.execMLoop
  | takeTrap => exact h.fetchTrap.getD h
  | trapPolicy => exact h.trapPolicy.getD h
  | pageRepair => exact h.pageRepair.getD h
  | debuggerRelease => exact h.debuggerRelease.getD h
  | meetDeadline => exact h.meetTimeout.getD h
  | yieldExpiry => exact h.endHold.getD h
  | binTimerExpiry => exact h.binTimeout.getD h
  | poolGrow => exact h.growPool.getD h
  | poolBankJoin => exact h.joinPool.getD h
  | poolBankReturn => exact h.returnBank.getD h
  | poolSpill => exact h.spillPool.getD h
  | registerRefill => exact h.refill.getD h
  | scratchBankJoin => exact h.joinScratch.getD h
  | loadFill => exact h.loadFill.getD h
  | storeHomeApply => exact h.applyFlight.getD h
  | completionTimeReturn => exact h.returnFlight.getD h
  | atomHome => exact h.atomAtHome.getD h
  | copyComplete => exact h.copyComplete.getD h
  | fetchComplete => exact h.fetchComplete.getD h
  | mmaStart => exact h.mmaStart.getD h
  | mmaComplete => exact h.mmaDone.getD h
  | drainStageStart => exact h.drainStart.getD h
  | mdrainComplete => exact h.mdrainDone.getD h
  | mzeroComplete => exact h.mzeroDone.getD h
  | copysComplete => exact h.copysDone.getD h
  | reservationServe => exact h.serveReservation.getD h
  | placementBatch => exact h.placeBatch.getD h
  | placementComplete => exact h.placeDone.getD h
  | drainRound => exact h.drainRound.getD h
  | nmloadComplete => exact h.nmloadComplete.getD h
  | nmarmSeal => exact h.nmarmSeal.getD h
  | nmrunStart => exact h.nmrunStart.getD h
  | nmrunComplete => exact h.nmrunComplete.getD h
  | nmdisarmComplete => exact h.nmdisarmComplete.getD h
  | refresh => exact h.refreshPch.getD h
  | computeResume => exact h.resumePch.getD h
  | serviceReply => exact h.serviceReply.getD h
  | allocSvc => exact h.allocLane.getD h
  | freeSvc => exact h.freeLane.getD h
  | bagnewSvc => exact h.bagnewLane.getD h
  | bagfreeSvc => exact h.bagfreeLane.getD h
  | printSvc => exact h.printLane.getD h
  | doorbellWrite => exact .next (.ite (h.doorbell.getD h) h)
  | launchRecordAccept => exact h.acceptQueue.getD h
  | launchStart => exact h.launchStart.getD h
  | launchCompletion => exact h.launchComplete.getD h
  | crewAdmit => exact h.admitOne.getD h
  | preempt => exact h.preempt.getD h
  | ballastWindow => exact h.ballastWindow.getD h
  | mapExecutable => exact h.mapExecutable.getD h
  | shootdown => exact h.shootdown.getD h
  | eccUncorrectable => exact h.execEccUncorrectable
  | storeEccError => exact h.execStoreEccError
  | hostWrite => exact h.hostWrite.getD h
  | hostRead => exact h.outsideRead.getD h
  | supexWriteIn => exact h.supexWrite.getD h
  | supexReadIn => exact h.execSupexReadIn
  | flitRetry => exact h.execFlitRetry
  | supexPortDown => exact .next (.ite h.portDown h)
  | ueFrameReceive => exact h.execUeFrameReceive
  | ueLinkDown => exact .next (.ite h h)
  | linkTrain => exact h.execLinkTrain
  | resetBoot image => exact absurd rfl (hi image)
  | thermalWarning => exact h.execThermalWarning
  | dieClockStep => exact h.execDieClockStep
  | thermalTrip => exact h.execThermalTrip
  | refreshTierChange => exact h.execRefreshTierChange
  | governorPeriod => exact h.execGovernorPeriod
  | setPowerCap => exact .next h
  | setBallastSetpoint => exact h.execSetBallastSetpoint
  | checkpoint => exact h.checkpoint
  | checkpointComplete => exact h.checkpointDone.getD h
  | haltHerd => exact h.execHaltHerd
  | dbgStep => exact h.execDbgStep
  | dump => exact h.execDump
  | dtimePassed => exact h.execDtimePassed
  | hostGloballyObservedAck => exact .next h
  | tableWalkComplete => exact h.walkComplete.getD h
  | debuggerAttach => exact h.execDebuggerAttach
  | systemSoftwareKill => exact h.execSystemSoftwareKill
  | addressSpaceCreate => exact h.createSpace.getD h
  | addressSpaceDestroy => exact h.destroySpace.getD h
  | virtualInterfaceCreate => exact .next (.ite h.setVi h)
  | queuePairBind => exact .next (.ite h.setVi h)
  | launchQueueSetup => exact h.execLaunchQueueSetup
  | rangeRegister => exact .next (.ite h.setAspace h)
  | setAdmissionWeight => exact .next (.ite h.setVi h)
  | firewallRangeGrant => exact .next (.ite h.grantRange h)
  | peerTransfer => exact h.peerPackets.getD h
  | recoveryLoad => exact .next (.ite h h)

/-! ### Every step -/

/-- An outcome of a step: it follows r, or it is that of an execution in a state that follows r. -/
def Runs (r : State) (o : Host.Outcome State Fault Refusal) : Prop := FollowsOut r o ∨ ∃ i s, Follows r s ∧ o = exec i s

theorem Runs.exec (h : Follows r s) {i : Instr} (hm : t.mem = s.mem) (hd : t.dtime = s.dtime) : Runs r (exec i t) :=
  .inr ⟨i, t, h.of_eq hm hd, rfl⟩
theorem Runs.next (h : Follows r s) : Runs r (.next s) := .inl h
theorem Runs.stopped {e} : Runs r (.fault e) := .inl trivial
theorem Runs.refused {e} : Runs r (.refused e) := .inl trivial

theorem Follows.stepIssue (h : Follows r s) {n g} : Runs r (stepIssue s n g) := by
  unfold Machine.stepIssue
  split
  · exact .exec h rfl rfl
  · split
    · exact .refused
    · exact .exec h.holdFetch rfl rfl

theorem Follows.stepHead (h : Follows r s) {n crew} : Runs r (stepHead s n crew) := by
  unfold Machine.stepHead
  extract_lets +onlyGivenNames k y s₁
  have hs₁ : Follows r s₁ := h
  clear_value s₁
  split
  · exact .next hs₁
  · exact .exec hs₁ rfl rfl

theorem Follows.stepEarly (h : Follows r s) {n e} : Runs r (stepEarly s n e) := by
  unfold Machine.stepEarly
  split
  · exact .next h
  · exact .exec h rfl rfl

theorem step_runs (s : State) : Runs s (step s) := by
  have h := Follows.refl s
  unfold step
  split
  · split
    · exact .exec h rfl rfl
    · split
      · exact .stopped
      · exact .next h
  · split
    · exact .stopped
    · split
      · exact .exec h rfl rfl
      · split
        · exact .next h.round
        · split
          · exact h.stepHead
          · split
            · exact h.stepEarly
            · split
              · exact .next h.tick
              · exact h.charge.stepIssue

/-! ### Memory stays canonical (log 4) -/

/-- A reset keeps no more than the host's memory; whatever else executes is `Follows.exec`. -/
theorem wf_mem_of_exec {i : Instr} (hw : Memory.wf s.mem = true) (hx : exec i s = .next t) : Memory.wf t.mem = true := by
  by_cases hi : ∃ image, i = .resetBoot image
  case pos =>
    obtain ⟨image, rfl⟩ := hi
    rw [← Host.Outcome.next.inj hx]
    exact Memory.wf_filter _ _ hw
  case neg =>
    have h : FollowsOut s (exec i s) := (Follows.refl s).exec fun image hr => hi ⟨image, hr⟩
    rw [hx] at h
    exact h.1 hw

end

/-- Settles O46: a step ends in a state that follows the one it starts from, or executes in one that does; memory of such a state is
canonical (`step_runs`), and every execution keeps it so (`wf_mem_of_exec`). -/
theorem memoryCanonical : Obligations.MemoryCanonical := by
  intro s t hst hw
  obtain h | ⟨i, s', h, hi⟩ := step_runs s
  · rw [hst] at h
    exact h.1 hw
  · exact wf_mem_of_exec (h.1 hw) (hi.symm.trans hst)

end Sys2Proof.Machine

namespace Sys2Proof.Machine

section

/-! ### Crew numbers (log 6)

An entry of a reorder buffer carries the number of its crew, and the step that executes it acts on the crew of that number, whichever
crew's buffer it stands in. Nothing keeps that number below the next one: such a state is `strayEntry`. -/

/-- Crew 0 is on core 0, and the oldest entry of its reorder buffer bears the number of crew 1, which has not been made. -/
def strayEntry : State := { crews := [(0, { core := some 0, rob := [{ issue := { crew := 1 } }] })], nextCrew := 1 }

theorem strayEntry_numbered : strayEntry.numbered := by
  refine ⟨fun e he => ?_, fun c hc => absurd hc List.not_mem_nil⟩
  rw [List.mem_singleton.1 he]
  exact Nat.zero_lt_one

/-- The outcome is a next state that lists a crew under a number which it has not given yet. -/
def listsUnmade (k : Nat) : Host.Outcome State Fault Refusal → Bool
  | .next t => thas t.crews k && decide (t.nextCrew ≤ k)
  | _ => false

/-- The NOP of the entry retires, and crew 1 is listed with what its retirement leaves. -/
theorem step_strayEntry : listsUnmade 1 (step strayEntry) = true := by decide +kernel

theorem not_numbered_of_listsUnmade {o : Host.Outcome State Fault Refusal} {k : Nat} (h : listsUnmade k o = true) :
    ∃ t, o = .next t ∧ ¬ t.numbered := by
  cases o with
  | next t =>
    obtain ⟨hhas, hle⟩ := Bool.and_eq_true_iff.1 h
    obtain ⟨e, he, hk⟩ := List.any_eq_true.1 hhas
    have hlt := of_decide_eq_true hle
    exact ⟨t, rfl, fun hn => absurd (hn.1 e he) (by rw [eq_of_beq hk]; omega)⟩
  | fault r => cases h
  | refused r => cases h

/-- Refutes O48: the numbers of `strayEntry` lie below the next one, and its step executes the oldest entry of crew 0, which bears the
number 1, for a crew 1 that has not been made. -/
theorem not_crewsNumbered : ¬ Obligations.CrewsNumbered := by
  intro h
  obtain ⟨t, hstep, hnot⟩ := not_numbered_of_listsUnmade step_strayEntry
  exact hnot (h strayEntry t hstep strayEntry_numbered)

end
end Sys2Proof.Machine

namespace Sys2Proof.Machine

section

/-! ### Cross-lane instructions (R40, R351 to R354, R364, R367) -/

/-- A crew that has no room for the results of its instruction may not draw what they lack (R56). -/
theorem State.mayAllocate_of_room {s : State} {o : Operands} (h : s.room o = false) :
    s.mayAllocate s.cur.crew (o.allocs - s.drawn.length) = false := (Bool.or_eq_false_iff.1 h).2

/-- An instruction that runs through cross, with effects that write values alone and are in G what the statement says, computes them. -/
theorem computes_of_cross {i : Instr} {o : Operands} {f : Crew → Mask → Nat → Eff} {eff : State → Nat → Eff}
    (hx : ∀ s, exec i s = .next (s.cross o f)) (hlanes : o.lanes = []) (hthr : ∀ c g l, (f c g l).thr = none)
    (hw : ∀ c g l, ∀ x ∈ (f c g l).w, ∃ v, x = live v) (he : ∀ s : State, ∀ l, s.inG l = true → f s.curCrew s.active l = eff s l) :
    Computes i o eff := by
  have hslot : ∀ c g l, ∀ x ∈ (f c g l).w, x.slot = none ∨ x.pend = true := fun c g l x hmem => by
    obtain ⟨v, rfl⟩ := hw c g l x hmem
    exact .inl rfl
  intro s hp
  refine ⟨fun hr => ⟨_, hx s, ?_⟩, fun hr hwr => ⟨_, hx s, ?_⟩⟩
  · exact (State.cross_retires s o f hp hr (hthr _ _) (hslot _ _) hlanes).congr (he s)
  · refine State.issue_waits s s o _ (perLane (f s.curCrew s.active)) _ hp (fun _ => rfl) (fun l hl => ?_) (State.mayAllocate_of_room hr) hwr
    rw [getD_perLane _ (mask_lt (m := s.active) hl), he s l hl]

/-- What a lane that writes one plain value writes. -/
theorem mem_gives {v : Word} {x : Lane} (h : x ∈ (gives v).w) : ∃ u, x = live u := ⟨v, List.mem_singleton.1 h⟩

/-- The lane that SHFL reads, mode by mode (R354). -/
theorem shflSource_eq (m : BitVec 2) (l y : Nat) :
    shflSource m l y = if m = 0 then (y : Int) else if m = 1 then (l : Int) - y else if m = 2 then (l : Int) + y else Nat.xor l y := by
  have hm : m = 0 ∨ m = 1 ∨ m = 2 ∨ m = 3 := by revert m; decide
  rcases hm with rfl | rfl | rfl | rfl <;> rfl

/-- A mask is zero exactly when it has no lane. -/
theorem maskOf_eq_zero_iff (f : Nat → Bool) : maskOf f = 0 ↔ (List.range 32).any f = false := by
  rw [List.any_eq_false]
  refine ⟨fun h l hl hf => ?_, fun h => maskOf_eq_zero fun l hl => Bool.eq_false_iff.2 (h l (List.mem_range.2 hl))⟩
  have hbit : (maskOf f).getLsbD l = false := by rw [h]; exact BitVec.getLsbD_zero
  rw [getLsbD_maskOf, decide_eq_true (List.mem_range.1 hl), Bool.true_and, hf] at hbit
  exact Bool.noConfusion hbit

/-- The lanes of G that pass a test are all of G exactly when each lane of it passes (R367). -/
theorem maskOf_and_eq_iff (g : Mask) (f : Nat → Bool) :
    (maskOf fun l => g.getLsbD l && f l) = g ↔ ((List.range 32).all fun l => !g.getLsbD l || f l) = true := by
  have hbool : ∀ x y : Bool, ((x && y) = x) ↔ (!x || y) = true := by decide
  rw [List.all_eq_true]
  constructor
  · intro h l hl
    have hbit : (maskOf fun l => g.getLsbD l && f l).getLsbD l = g.getLsbD l := by rw [h]
    rw [getLsbD_maskOf, decide_eq_true (List.mem_range.1 hl), Bool.true_and] at hbit
    exact (hbool _ _).1 hbit
  · intro h
    apply BitVec.eq_of_getLsbD_eq
    intro l hl
    rw [getLsbD_maskOf, decide_eq_true hl, Bool.true_and]
    exact (hbool _ _).2 (h l (List.mem_range.2 hl))

/-- The count of a mask's lanes (R344). -/
theorem popcWord_maskOf (f : Nat → Bool) : popcWord (maskOf f) = BitVec.ofNat 32 ((List.range 32).filter f).length := by
  unfold popcWord
  rw [List.countP_eq_length_filter, List.filter_congr fun l hl => ?_]
  rw [getLsbD_maskOf, decide_eq_true (List.mem_range.1 hl), Bool.true_and]

/-- SHFL (R354). -/
theorem shfl_computes (d a b : Reg) (z : Bool) (m : BitVec 2) : Computes (.shfl d a b z m) (opsRR d a b) fun s l =>
    let y := (s.val b l).toNat
    let src : Int := if m = 0 then y else if m = 1 then (l : Int) - y else if m = 2 then (l : Int) + y else Nat.xor l y
    gives (if 0 ≤ src ∧ src ≤ 31 ∧ s.inG src.toNat = true then s.val a src.toNat
      else if z then 0 else s.val a l) :=
  computes_of_cross (fun _ => rfl) rfl (fun _ _ _ => rfl) (fun _ _ _ _ => mem_gives) fun s l _ => by
    dsimp only
    rw [← shflSource_eq]
    rfl

/-- VOTE (R367). -/
theorem vote_computes (d a : Reg) (k : BitVec 2) : Computes (.vote d a k) (opsR d a) fun s _ =>
    let hit := fun l => s.inG l && s.val a l != 0
    gives (if k = 0 then wordOfBits hit
      else if k = 1 then (if (List.range 32).any hit then 1 else 0)
      else if k = 2 then (if (List.range 32).all fun l => !s.inG l || s.val a l != 0 then 1 else 0)
      else BitVec.ofNat 32 ((List.range 32).filter hit).length) :=
  computes_of_cross (fun _ => rfl) rfl (fun _ _ _ => rfl) (fun _ _ _ _ => mem_gives) fun s l _ => by
    have hk : k = 0 ∨ k = 1 ∨ k = 2 ∨ k = 3 := by revert k; decide
    rcases hk with rfl | rfl | rfl | rfl
    · rfl
    · refine congrArg gives ?_
      show (if (maskOf fun l => s.inG l && s.val a l != 0) = 0 then (0 : Word) else 1) = _
      simp only [maskOf_eq_zero_iff]
      cases (List.range 32).any fun l => s.inG l && s.val a l != 0 <;> rfl
    · exact (congrArg gives (if_congr (maskOf_and_eq_iff s.active fun l => s.val a l != 0) rfl rfl)).trans rfl
    · exact congrArg gives (popcWord_maskOf _)

/-- SCAN (R352). -/
theorem scan_computes (d a : Reg) (sg x : Bool) (o : BitVec 3) : Computes (.scan d a sg x o) (opsR d a) fun s l =>
    gives (((List.range 32).filter fun m => s.inG m && (m < l || (!x && m == l))).foldl
      (fun r m => scanOp o sg r (s.val a m)) (scanIdentity o sg)) :=
  computes_of_cross (fun _ => rfl) rfl (fun _ _ _ => rfl) (fun _ _ _ _ => mem_gives) fun s l _ => by
    have hls : (lanesOf s.active).filter (fun m => decide (m < l) || (!x && m == l)) =
        (List.range 32).filter fun m => s.inG m && (decide (m < l) || (!x && m == l)) := by
      simp only [lanesOf, laneList, List.filter_filter, Bool.and_comm, State.inG]
    rw [← hls]
    rfl

/-- TOPK (R40, R364). -/
theorem topk_computes (d a i k : Reg) : Computes (.topk d a i k) { a := [a.toNat], dst := [d.toNat, i.toNat] } fun s l =>
    let ls := (List.range 32).filter s.inG
    let rank := rankList (fun m => s.val a m) ls
    let j := (ls.findIdx? fun m => m == l).getD 0
    match if j < k.toNat then rank[j]? else none with
    | some m => { w := [live (s.val a m), live (BitVec.ofNat 32 m)] }
    | none => { w := [live 0xff800000, live 0xffffffff] } := by
  refine computes_of_cross (fun _ => rfl) rfl (fun c g l => ?_) (fun c g l x hx => ?_) fun s l _ => rfl
  · dsimp only
    split <;> rfl
  · dsimp only at hx
    split at hx <;> (simp only [List.mem_cons, List.not_mem_nil, or_false] at hx; rcases hx with rfl | rfl <;> exact ⟨_, rfl⟩)

/-- Settles O7, instruction by instruction: each runs through cross, with the effects that the rules give in the lanes of G. -/
theorem crossLane : Obligations.CrossLane := ⟨shfl_computes, vote_computes, scan_computes, topk_computes⟩
end
end Sys2Proof.Machine

namespace Sys2Proof.Machine

section

/-! ### The phases of a herd's barrier (R31, R32) -/

/-- What is read from a table whose entries are all changed by one function that keeps the default. -/
theorem tget_map {α : Type} (d : α) (f : Nat → α → α) (hd : ∀ k, f k d = d) (t : Tab α) (k : Nat) :
    tget d (t.map fun e => (e.1, f e.1 e.2)) k = f k (tget d t k) := by
  induction t with
  | nil => exact (hd k).symm
  | cons e t ih =>
    rw [List.map_cons]
    simp only [tget]
    split
    · next h => rw [h]
    · exact ih

/-- A thread that waits in BARRIER at a herd's barrier. -/
def Thread.waitsAt (t : Thread) (h : Nat) : Prop := t.state = .barrier ∧ t.barrier = some h

/-- A crew of the launch has its threads woken that wait at the barrier and satisfy the test; any other stays as it is. -/
theorem State.crew_wakeBarrier (s : State) (lid h : Nat) (go : Word → Bool) (k : Nat) :
    (s.wakeBarrier lid h go).crew k = if (s.crew k).launch = lid then
      (s.crew k).onThreads fun _ t => if t.state = .barrier ∧ t.barrier = some h ∧ go t.tid = true then t.wake (s.cycleOf k) else t
      else s.crew k :=
  tget_map ({} : Crew) (fun (k : Nat) (c : Crew) => if c.launch = lid then
    c.onThreads fun _ t => if t.state = .barrier ∧ t.barrier = some h ∧ go t.tid = true then t.wake (s.cycleOf k) else t else c)
    (fun _ => ite_eq_right_iff.2 fun _ => rfl) s.crews k

/-- The end of one phase (R31, R32): its waiters are released, but for a BAR that was held over, and the held arrivals count in the next. -/
def State.endPhase (s : State) (lid h : Nat) : State :=
  (s.wakeBarrier lid h fun tid => !((s.launch lid).barrier h).held.contains (tid, true)).onBarrier lid h fun b =>
    { b with phase := !b.phase, arrived := b.held.map (·.1), held := [] }

/-- As many have arrived as are live (R31). -/
def Barrier.full (b : Barrier) : Prop := b.arrived.length = b.live ∧ 0 < b.live

theorem Barrier.settled_of_full {b : Barrier} (hf : b.full) :
    b.settled = if b.held.length = b.live then { b with arrived := [], held := [] }
      else { b with phase := !b.phase, arrived := b.held.map (·.1), held := [] } := if_pos hf

theorem Barrier.settled_of_not_full {b : Barrier} (hf : ¬ b.full) : b.settled = b := if_neg hf

theorem State.settleBarrier_of_full {s : State} {lid h : Nat} (hf : ((s.launch lid).barrier h).full) (n : Nat) :
    s.settleBarrier lid h (n + 1) = (s.endPhase lid h).settleBarrier lid h n := if_pos hf

theorem State.settleBarrier_of_not_full {s : State} {lid h : Nat} (hf : ¬ ((s.launch lid).barrier h).full) (n : Nat) :
    s.settleBarrier lid h n = s := by
  cases n with
  | zero => rfl
  | succ n => exact if_neg hf

theorem State.launch_onBarrier (s : State) (lid h : Nat) (f : Barrier → Barrier) :
    (s.onBarrier lid h f).launch lid = { s.launch lid with barriers := ((s.onBarrier lid h f).launch lid).barriers } := by
  simp only [State.onBarrier, State.launch_setLaunch]

theorem State.launch_onBarrier_ne (s : State) {lid n : Nat} (h : Nat) (f : Barrier → Barrier) (hn : n ≠ lid) :
    (s.onBarrier lid h f).launch n = s.launch n := State.launch_setLaunch_ne _ _ hn

theorem State.barrier_onBarrier (s : State) (lid h : Nat) (f : Barrier → Barrier) (x : Nat) :
    ((s.onBarrier lid h f).launch lid).barrier x = if x = h then f ((s.launch lid).barrier h) else (s.launch lid).barrier x := by
  simp only [State.onBarrier, State.launch_setLaunch, Launch.barrier, tget_tset]

theorem State.barrier_endPhase (s : State) (lid h x : Nat) :
    ((s.endPhase lid h).launch lid).barrier x =
      if x = h then
        { (s.launch lid).barrier h with
          phase := !((s.launch lid).barrier h).phase, arrived := ((s.launch lid).barrier h).held.map (·.1), held := [] }
      else (s.launch lid).barrier x := State.barrier_onBarrier _ _ _ _ _

theorem State.crew_endPhase (s : State) (lid h k : Nat) :
    (s.endPhase lid h).crew k = if (s.crew k).launch = lid then
      (s.crew k).onThreads fun _ t =>
        if t.state = .barrier ∧ t.barrier = some h ∧ (!((s.launch lid).barrier h).held.contains (t.tid, true)) = true
        then t.wake (s.cycleOf k) else t
      else s.crew k := s.crew_wakeBarrier lid h (fun tid => !((s.launch lid).barrier h).held.contains (tid, true)) k

/-- A thread of the launch that waits at the barrier is READY after the phase, but for a BAR that was held over. -/
theorem State.thr_endPhase (s : State) {lid h k l : Nat} (hl : l < 32) (hk : (s.crew k).launch = lid) (hw : ((s.crew k).thr l).waitsAt h) :
    ((s.endPhase lid h).crew k).thr l =
      if ((s.launch lid).barrier h).held.contains (((s.crew k).thr l).tid, true) then (s.crew k).thr l
      else ((s.crew k).thr l).wake (s.cycleOf k) := by
  rw [State.crew_endPhase, if_pos hk, Crew.thr_onThreads, if_pos hl]
  obtain ⟨hst, hb⟩ := hw
  cases hc : ((s.launch lid).barrier h).held.contains (((s.crew k).thr l).tid, true) <;> simp [hst, hb]

/-- Threads of a launch that wait in BARRIER may have become READY and barriers of the launch may have moved on; nothing else has changed. -/
structure Releases (s t : State) (lid : Nat) : Prop where
  rest : t = { s with crews := t.crews, launches := t.launches }
  crew : ∀ k, t.crew k = { s.crew k with threads := (t.crew k).threads }
  others : ∀ k, (s.crew k).launch ≠ lid → t.crew k = s.crew k
  threads : ∀ k l, l < 32 → (t.crew k).thr l = (s.crew k).thr l ∨
    ((s.crew k).thr l).state = .barrier ∧ (t.crew k).thr l = ((s.crew k).thr l).wake (s.cycleOf k)
  launch : t.launch lid = { s.launch lid with barriers := (t.launch lid).barriers }
  launches : ∀ n, n ≠ lid → t.launch n = s.launch n

theorem Releases.refl (s : State) (lid : Nat) : Releases s s lid :=
  ⟨rfl, fun _ => rfl, fun _ _ => rfl, fun _ _ _ => .inl rfl, rfl, fun _ _ => rfl⟩

theorem Releases.mem {s t : State} {lid : Nat} (h : Releases s t lid) : t.mem = s.mem := by rw [h.rest]

theorem Releases.cores {s t : State} {lid : Nat} (h : Releases s t lid) : t.cores = s.cores := by rw [h.rest]

theorem Releases.core {s t : State} {lid : Nat} (h : Releases s t lid) (n : Nat) : t.core n = s.core n := by rw [h.rest]; rfl

theorem Releases.cycleOf {s t : State} {lid : Nat} (h : Releases s t lid) (k : Nat) : t.cycleOf k = s.cycleOf k := by
  unfold State.cycleOf
  rw [h.crew k, h.core]

theorem Releases.trans {s t u : State} {lid : Nat} (h : Releases s t lid) (h' : Releases t u lid) : Releases s u lid where
  rest := by rw [h'.rest, h.rest]
  crew k := by rw [h'.crew k, h.crew k]
  others k hk := by
    have hl : (t.crew k).launch ≠ lid := by rw [h.crew k]; exact hk
    rw [h'.others k hl, h.others k hk]
  threads k l hl := by
    rcases h'.threads k l hl with hu | ⟨hb, hu⟩
    · rw [hu]; exact h.threads k l hl
    · rcases h.threads k l hl with ht | ⟨-, ht⟩
      · rw [hu, ht, h.cycleOf]
        exact .inr ⟨ht ▸ hb, rfl⟩
      · rw [ht] at hb; cases hb
  launch := by rw [h'.launch, h.launch]
  launches n hn := by rw [h'.launches n hn, h.launches n hn]

theorem State.releases_endPhase (s : State) (lid h : Nat) : Releases s (s.endPhase lid h) lid where
  rest := rfl
  crew k := by
    rw [State.crew_endPhase]
    split <;> rfl
  others k hk := by rw [State.crew_endPhase, if_neg hk]
  threads k l hl := by
    by_cases hk : (s.crew k).launch = lid
    · by_cases hw : ((s.crew k).thr l).waitsAt h
      · rw [s.thr_endPhase hl hk hw]
        split
        · exact .inl rfl
        · exact .inr ⟨hw.1, rfl⟩
      · rw [State.crew_endPhase, if_pos hk, Crew.thr_onThreads, if_pos hl, if_neg fun hx => hw ⟨hx.1, hx.2.1⟩]
        exact .inl rfl
    · rw [State.crew_endPhase, if_neg hk]
      exact .inl rfl
  launch := State.launch_onBarrier _ _ _ _
  launches _ hn := State.launch_onBarrier_ne _ _ _ hn

theorem State.releases_settleBarrier (lid h fuel : Nat) (s : State) : Releases s (s.settleBarrier lid h fuel) lid := by
  induction fuel generalizing s with
  | zero => exact Releases.refl s lid
  | succ n ih =>
    by_cases hf : ((s.launch lid).barrier h).full
    · rw [State.settleBarrier_of_full hf]
      exact (s.releases_endPhase lid h).trans (ih _)
    · rw [State.settleBarrier_of_not_full hf]
      exact Releases.refl s lid

theorem State.releases_settleBarriers (lid : Nat) (hs : List Nat) (s : State) :
    Releases s (hs.foldl (fun t h => t.settleBarrier lid h 2) s) lid := by
  induction hs generalizing s with
  | nil => exact Releases.refl s lid
  | cons h hs ih => exact (State.releases_settleBarrier lid h 2 s).trans (ih _)

/-- The barrier after the end of a phase is full again exactly when every live member was held over. -/
theorem State.full_endPhase {s : State} {lid h : Nat} (hf : ((s.launch lid).barrier h).full) :
    (((s.endPhase lid h).launch lid).barrier h).full ↔ ((s.launch lid).barrier h).held.length = ((s.launch lid).barrier h).live := by
  rw [State.barrier_endPhase, if_pos rfl]
  simp only [Barrier.full, List.length_map, and_iff_left hf.2]

/-- What settling does to a full barrier: one phase ends, and the next with it when every live member was held over. -/
theorem State.settleBarrier_two {s : State} {lid h : Nat} (hf : ((s.launch lid).barrier h).full) :
    s.settleBarrier lid h 2 =
      if ((s.launch lid).barrier h).held.length = ((s.launch lid).barrier h).live then (s.endPhase lid h).endPhase lid h else s.endPhase lid h := by
  rw [State.settleBarrier_of_full hf]
  split
  · next he => rw [State.settleBarrier_of_full ((State.full_endPhase hf).2 he)]; rfl
  · next he => rw [State.settleBarrier_of_not_full (mt (State.full_endPhase hf).1 he)]

theorem State.barrier_settleBarrier (s : State) (lid h x : Nat) :
    ((s.settleBarrier lid h 2).launch lid).barrier x =
      if x = h then ((s.launch lid).barrier h).settled else (s.launch lid).barrier x := by
  by_cases hf : ((s.launch lid).barrier h).full
  · rw [State.settleBarrier_two hf, Barrier.settled_of_full hf]
    split <;> by_cases hx : x = h <;> simp only [State.barrier_endPhase, hx, if_true, if_false, Bool.not_not, List.map_nil]
  · rw [State.settleBarrier_of_not_full hf, Barrier.settled_of_not_full hf]
    split
    · next hx => rw [hx]
    · rfl

/-- A waiter is READY after a phase that follows one in which it was held over or released, since none is held over twice. -/
theorem State.thr_endPhase_twice (s : State) {lid h k l : Nat} (hl : l < 32) (hk : (s.crew k).launch = lid) (hw : ((s.crew k).thr l).waitsAt h) :
    ((((s.endPhase lid h).endPhase lid h).crew k).thr l).state = .ready := by
  have hfirst := s.thr_endPhase hl hk hw
  have hk' : ((s.endPhase lid h).crew k).launch = lid := by rw [(s.releases_endPhase lid h).crew k]; exact hk
  split at hfirst
  · have hheld : (((s.endPhase lid h).launch lid).barrier h).held = [] := by rw [State.barrier_endPhase, if_pos rfl]
    rw [(s.endPhase lid h).thr_endPhase hl hk' (hfirst ▸ hw), hheld]
    rfl
  · rcases ((s.endPhase lid h).releases_endPhase lid h).threads k l hl with he | ⟨hb, -⟩
    · rw [he, hfirst]; rfl
    · rw [hfirst] at hb; cases hb

/-- Settles O12: the phase that is full ends, and the next with it when it is full at once. -/
theorem barrierPhase : Obligations.BarrierPhase := by
  intro s lid h b t waits
  have hrel := s.releases_settleBarrier lid h 2
  have hbar := s.barrier_settleBarrier lid h h
  rw [if_pos rfl] at hbar
  split
  · next hf =>
    rw [Barrier.settled_of_full hf] at hbar
    have htwo := State.settleBarrier_two hf
    refine ⟨hrel.mem, hrel.cores, ?_⟩
    split
    · next he =>
      rw [if_pos he] at hbar htwo
      refine ⟨hbar, fun k l ⟨hl, hk, hst, hb⟩ => ?_⟩
      show (((s.settleBarrier lid h 2).crew k).thr l).state = _
      rw [htwo]
      exact s.thr_endPhase_twice hl hk ⟨hst, hb⟩
    · next he =>
      rw [if_neg he] at hbar htwo
      refine ⟨hbar, fun k l ⟨hl, hk, hst, hb⟩ => ?_⟩
      show (((s.settleBarrier lid h 2).crew k).thr l).state = _
      rw [htwo, s.thr_endPhase hl hk ⟨hst, hb⟩, apply_ite Thread.state, hst]
      rfl
  · next hf => exact State.settleBarrier_of_not_full hf 2

end
end Sys2Proof.Machine

namespace Sys2Proof.Machine

section

/-! ### Instructions that move threads about, and write no register -/

@[simp] theorem State.curCrew_setCur (s : State) (c : Crew) : (s.setCur c).curCrew = c := State.crew_setCrew _ _ _

@[simp] theorem State.thrAt_setCur (s : State) (c : Crew) (l : Nat) : (s.setCur c).thrAt l = c.thr l := by
  rw [State.thrAt, State.curCrew_setCur]

/-- The execution of an instruction has left the issuing crew where it is, and its group with threads that have not exited and wait for no future. -/
structure State.Steady (s b : State) : Prop where
  cur : b.cur = s.cur
  cycle : b.cycleOf s.cur.crew = s.cycleOf s.cur.crew
  crew : b.curCrew = { s.curCrew with threads := b.curCrew.threads, meetings := b.curCrew.meetings, nextMeeting := b.curCrew.nextMeeting }
  awake : ∀ l, s.inGroup l = true → (b.thrAt l).isLive = true ∧ (b.thrAt l).state ≠ .future

/-- The lanes of an issue group that stands are READY. -/
theorem State.steady_refl {s : State} (h : s.standing = true) : s.Steady s where
  cur := rfl
  cycle := rfl
  crew := rfl
  awake l hl := by
    obtain ⟨-, -, hready, -⟩ := State.standing_spec h
    rw [Thread.isLive, hready l hl]
    exact ⟨rfl, ThreadState.noConfusion⟩

/-- What settling barriers releases is READY. -/
theorem State.Steady.releases {s t u : State} {lid : Nat} (h : s.Steady t) (h' : Releases t u lid) : s.Steady u := by
  have hcur : u.cur = t.cur := by rw [h'.rest]
  have hcrew : u.curCrew = { t.curCrew with threads := u.curCrew.threads } := by
    unfold State.curCrew
    rw [hcur]
    exact h'.crew t.cur.crew
  refine ⟨hcur.trans h.cur, (h'.cycleOf _).trans h.cycle, by rw [hcrew, h.crew], fun l hl => ?_⟩
  have hthr : u.thrAt l = (u.crew t.cur.crew).thr l := by rw [State.thrAt, State.curCrew, hcur]
  rw [hthr]
  rcases h'.threads t.cur.crew l (mask_lt (m := s.cur.mask) hl) with he | ⟨-, he⟩
  · rw [he]; exact h.awake l hl
  · rw [he]; exact ⟨rfl, ThreadState.noConfusion⟩

/-- A thread that has not exited has not exited either after an instruction that puts no other in its place. -/
theorem isLive_threadAfter (s : State) {t : Thread} {e : Eff} (ht : t.isLive = true) (he : e.thr = none) (dead : Bool) :
    (threadAfter s t e dead).isLive = true := by
  unfold threadAfter
  split
  · rfl
  · rw [he]
    dsimp only [Option.getD_none]
    split <;> exact ht

/-- What is asked of the state that a body leaves holds of a steady one. -/
theorem State.issue_retires_steady {s b : State} {o : Operands} {body : State → Mask → Body} {es : List Eff} {eff : Nat → Eff}
    (hp : s.poised o = true) (hr : s.room o = true) (hbody : s.active ≠ 0 → body s s.active = .done b es)
    (hzero : s.active = 0 → b = s) (hes : ∀ l, s.inG l = true → es.getD l {} = eff l) (hdst : o.dst = []) (hb : s.Steady b)
    (hw : ∀ l, (eff l).w = []) (hthr : ∀ l, (eff l).thr = none) : Retires s b (s.issue o body) o eff := by
  obtain ⟨hst, -⟩ := State.poised_spec hp
  obtain ⟨hcore, hgone, -, l, hl, hin, -⟩ := State.standing_spec hst
  have hcrew : b.crew s.cur.crew = b.curCrew := by rw [State.curCrew, hb.cur]
  have hallocs : o.allocs = 0 := by rw [Operands.allocs, hdst]; rfl
  have hthread : ∀ k, (b.crew s.cur.crew).thr k = b.thrAt k := fun k => by rw [hcrew]; rfl
  refine s.issue_retires b o body es eff hp hr hbody hzero hes (fun _ => ?_) hb.cur hb.cycle ?_ ?_ ?_ ?_ ⟨l, hl, ?_⟩ ?_ ?_ ?_
  · rw [hallocs, Nat.zero_sub]; rfl
  · rw [hcrew, hb.crew]; exact hcore
  · rw [hcrew, hb.crew]; rfl
  · rw [hcrew, hb.crew]; exact hgone
  · rw [hcrew, hb.crew]
  · rw [if_pos hin, hthread]
    refine isLive_threadAfter s (hb.awake l hin).1 ?_ _
    split
    · exact hthr l
    · rfl
  · intro k _ x hx
    rw [hw k] at hx
    cases hx
  · intro k r hmem
    rw [hdst] at hmem
    cases hmem
  · intro k hk _
    rw [hthread]
    exact (hb.awake k (State.inG_inGroup hk)).2

/-- An instruction without a destination, whose body leaves a steady state, executes with the effects of its body. -/
theorem executes_of_issue {i : Instr} {o : Operands} {more : State → Prop} {b : State → State} {eff : State → Nat → Eff}
    {body : State → Mask → Body} (hx : ∀ s, more s → exec i s = .next (s.issue o body)) (hdst : o.dst = [])
    (hbody : ∀ s, more s → ∃ es, body s s.active = .done (b s) es ∧ ∀ l, s.inG l = true → es.getD l {} = eff s l)
    (hb : ∀ s, s.poised o = true → more s → s.Steady (b s)) (hw : ∀ s l, (eff s l).w = []) (hthr : ∀ s l, (eff s l).thr = none) :
    Executes i o more b eff := by
  intro s hp hm
  obtain ⟨es, hdone, hes⟩ := hbody s hm
  refine ⟨fun hr => ⟨_, hx s hm, ?_⟩, fun _ ⟨l, _, _, _, hwl⟩ => absurd (hw s l) hwl⟩
  by_cases ha : s.active = 0
  · rw [if_pos ha]
    exact State.issue_retires_steady hp hr (fun h => absurd ha h) (fun _ => rfl) hes hdst (State.steady_refl (State.poised_spec hp).1) (hw s) (hthr s)
  · rw [if_neg ha]
    exact State.issue_retires_steady hp hr (fun _ => hdone) (fun h => absurd h ha) hes hdst (hb s hp hm) (hw s) (hthr s)

/-- The effects that are computed lane by lane, in the lanes of G. -/
theorem State.getD_perLane_inG {s : State} {l : Nat} (hl : s.inG l = true) (f : Nat → Eff) : (perLane f).getD l {} = f l :=
  getD_perLane f (mask_lt (m := s.active) hl)

end
end Sys2Proof.Machine

namespace Sys2Proof.Machine

section

/-! ### Arrivals at a barrier (R31, R32, R273, R274) -/

/-- A lane of the issuing crew has arrived already in the phase of the herd in a slot of its thread (R32). -/
def State.second (s : State) (slot l : Nat) : Bool := match (s.thrAt l).herd slot with
  | some h => (s.curLaunch.barrier h).arrived.contains (s.thrAt l).tid
  | none => false

/-- One lane of the issuing crew arrives at a herd's barrier (R31, R32). -/
def State.arriveLane (s : State) (waits : Bool) (l h : Nat) : State :=
  (s.onBarrier s.curCrew.launch h fun b => b.arrive (s.thrAt l).tid waits).setCrew s.cur.crew (s.curCrew.setThr l
    (if waits || (s.curLaunch.barrier h).arrived.contains (s.thrAt l).tid
      then { s.thrAt l with state := .barrier, barrier := some h, passBar := false } else s.thrAt l))

theorem State.arriveLanes_cons_some {s : State} {slot l h : Nat} (hh : (s.thrAt l).herd slot = some h) (waits : Bool) (ls : List Nat) :
    s.arriveLanes slot waits (l :: ls) = (s.arriveLane waits l h).arriveLanes slot waits ls := by
  rw [State.arriveLanes]
  show (match (s.thrAt l).herd slot with | none => _ | some h => _) = _
  rw [hh]
  rfl

theorem State.arriveLanes_cons_none {s : State} {slot l : Nat} (hh : (s.thrAt l).herd slot = none) (waits : Bool) (ls : List Nat) :
    s.arriveLanes slot waits (l :: ls) = s.arriveLanes slot waits ls := by
  rw [State.arriveLanes]
  show (match (s.thrAt l).herd slot with | none => _ | some h => _) = _
  rw [hh]

/-- Only threads of the issuing crew and barriers of its launch have changed. -/
structure Arrives (s t : State) : Prop where
  rest : t = { s with crews := t.crews, launches := t.launches }
  crews : ∀ k, k ≠ s.cur.crew → t.crew k = s.crew k
  launches : ∀ n, n ≠ s.curCrew.launch → t.launch n = s.launch n
  launch : t.launch s.curCrew.launch = { s.curLaunch with barriers := (t.launch s.curCrew.launch).barriers }
  crew : t.curCrew = { s.curCrew with threads := t.curCrew.threads }

theorem Arrives.refl (s : State) : Arrives s s := ⟨rfl, fun _ _ => rfl, fun _ _ => rfl, rfl, rfl⟩

theorem Arrives.cur {s t : State} (h : Arrives s t) : t.cur = s.cur := by rw [h.rest]

theorem Arrives.crewLaunch {s t : State} (h : Arrives s t) : t.curCrew.launch = s.curCrew.launch := by rw [h.crew]

theorem Arrives.trans {s t u : State} (h : Arrives s t) (h' : Arrives t u) : Arrives s u where
  rest := by rw [h'.rest, h.rest]
  crews k hk := by rw [h'.crews k (h.cur ▸ hk), h.crews k hk]
  launches n hn := by rw [h'.launches n (h.crewLaunch ▸ hn), h.launches n hn]
  launch := by
    have hl := h'.launch
    rw [State.curLaunch, h.crewLaunch] at hl
    rw [hl, h.launch]
  crew := by rw [h'.crew, h.crew]

theorem State.curCrew_arriveLane (s : State) (waits : Bool) (l h : Nat) :
    (s.arriveLane waits l h).curCrew = s.curCrew.setThr l
      (if waits || (s.curLaunch.barrier h).arrived.contains (s.thrAt l).tid
        then { s.thrAt l with state := .barrier, barrier := some h, passBar := false } else s.thrAt l) :=
  State.crew_setCrew _ _ _

theorem State.launch_arriveLane (s : State) (waits : Bool) (l h n : Nat) :
    (s.arriveLane waits l h).launch n = (s.onBarrier s.curCrew.launch h fun b => b.arrive (s.thrAt l).tid waits).launch n := rfl

theorem State.arrives_arriveLane (s : State) (waits : Bool) (l h : Nat) : Arrives s (s.arriveLane waits l h) where
  rest := rfl
  crews _ hk := State.crew_setCrew_ne _ _ hk
  launches _ hn := by rw [State.launch_arriveLane, State.launch_onBarrier_ne s h _ hn]
  launch := by rw [State.launch_arriveLane]; exact State.launch_onBarrier s _ h _
  crew := by rw [State.curCrew_arriveLane]; rfl

theorem State.arrives_arriveLanes (slot : Nat) (waits : Bool) (ls : List Nat) (s : State) : Arrives s (s.arriveLanes slot waits ls) := by
  induction ls generalizing s with
  | nil => exact Arrives.refl s
  | cons l ls ih =>
    cases hh : (s.thrAt l).herd slot with
    | none => rw [State.arriveLanes_cons_none hh]; exact ih s
    | some h => rw [State.arriveLanes_cons_some hh]; exact (s.arrives_arriveLane waits l h).trans (ih _)

theorem State.barrier_arriveLane (s : State) (waits : Bool) (l h x : Nat) :
    (s.arriveLane waits l h).curLaunch.barrier x =
      if x = h then (s.curLaunch.barrier h).arrive (s.thrAt l).tid waits else s.curLaunch.barrier x := by
  rw [State.curLaunch, (s.arrives_arriveLane waits l h).crewLaunch, State.launch_arriveLane, State.barrier_onBarrier]
  rfl

/-- The arrival of one lane leaves the threads of the others. -/
theorem State.thrAt_arriveLane_ne (s : State) (waits : Bool) {l k : Nat} (h : Nat) (hk : k < 32) (hne : k ≠ l) :
    (s.arriveLane waits l h).thrAt k = s.thrAt k := by
  rw [State.thrAt, State.curCrew_arriveLane, Crew.thr_setThr _ _ _ hk, if_neg hne]
  rfl

/-- The arrival of one lane does not make another thread's a second one. -/
theorem State.second_arriveLane_ne (s : State) (slot : Nat) (waits : Bool) {l k : Nat} (h : Nat) (hk : k < 32)
    (hne : (s.thrAt k).tid ≠ (s.thrAt l).tid) : (s.arriveLane waits l h).second slot k = s.second slot k := by
  have hkl : k ≠ l := fun e => hne (by rw [e])
  unfold State.second
  rw [s.thrAt_arriveLane_ne waits h hk hkl]
  cases hh : (s.thrAt k).herd slot with
  | none => rfl
  | some x =>
    dsimp only
    rw [State.barrier_arriveLane]
    split
    · next hx =>
      rw [Barrier.arrive, hx]
      split
      · rfl
      · simp [hne]
    · rfl

/-- The lanes of a list whose herd in the slot is the given one and whose arrival is the first, or the second, of their thread in the phase. -/
def State.arrivals (s : State) (slot : Nat) (ls : List Nat) (h : Nat) (held : Bool) : List Nat :=
  ls.filter fun l => (s.thrAt l).herd slot == some h && s.second slot l == held

/-- The lanes of a list lie in a crew and have different threads. -/
structure State.Distinct (s : State) (ls : List Nat) : Prop where
  lt : ∀ l ∈ ls, l < 32
  nodup : ls.Nodup
  tids : ∀ l ∈ ls, ∀ k ∈ ls, (s.thrAt l).tid = (s.thrAt k).tid → l = k

/-- What the barriers and the threads of the other lanes of a list are once its first lane has arrived. -/
theorem State.Distinct.arriveLane {s : State} {l : Nat} {ls : List Nat} (hd : s.Distinct (l :: ls)) (waits : Bool) (h : Nat) :
    ∀ k ∈ ls, (s.arriveLane waits l h).thrAt k = s.thrAt k ∧ ∀ slot, (s.arriveLane waits l h).second slot k = s.second slot k := by
  intro k hk
  have hk32 := hd.lt k (List.mem_cons_of_mem l hk)
  have hne : k ≠ l := fun e => (List.nodup_cons.1 hd.nodup).1 (e ▸ hk)
  exact ⟨s.thrAt_arriveLane_ne waits h hk32 hne, fun slot => s.second_arriveLane_ne slot waits h hk32
    fun he => hne (hd.tids k (List.mem_cons_of_mem l hk) l List.mem_cons_self he)⟩

theorem State.Distinct.tail {s : State} {l : Nat} {ls : List Nat} (hd : s.Distinct (l :: ls)) : s.Distinct ls :=
  ⟨fun k hk => hd.lt k (List.mem_cons_of_mem l hk), (List.nodup_cons.1 hd.nodup).2,
    fun k hk j hj => hd.tids k (List.mem_cons_of_mem l hk) j (List.mem_cons_of_mem l hj)⟩

theorem State.Distinct.tail_arriveLane {s : State} {l : Nat} {ls : List Nat} (hd : s.Distinct (l :: ls)) (waits : Bool) (h : Nat) :
    (s.arriveLane waits l h).Distinct ls := by
  refine ⟨hd.tail.lt, hd.tail.nodup, fun k hk j hj he => hd.tail.tids k hk j hj ?_⟩
  rw [(hd.arriveLane waits h k hk).1, (hd.arriveLane waits h j hj).1] at he
  exact he

theorem State.arrivals_arriveLane {s : State} {l : Nat} {ls : List Nat} (hd : s.Distinct (l :: ls)) (slot : Nat) (waits : Bool) (h x : Nat)
    (held : Bool) : (s.arriveLane waits l h).arrivals slot ls x held = s.arrivals slot ls x held :=
  List.filter_congr fun k hk => by
    obtain ⟨hthr, hsec⟩ := hd.arriveLane waits h k hk
    rw [hthr, hsec]

/-- The TIDs of a list's lanes as the state after the first lane's arrival has them. -/
theorem State.map_arrivals_arriveLane {s : State} {l : Nat} {ls : List Nat} (hd : s.Distinct (l :: ls)) {α : Type} (f : Thread → α)
    (slot : Nat) (waits : Bool) (h x : Nat) (held : Bool) :
    (((s.arriveLane waits l h).arrivals slot ls x held).map fun k => f ((s.arriveLane waits l h).thrAt k)) =
      (s.arrivals slot ls x held).map fun k => f (s.thrAt k) := by
  rw [State.arrivals_arriveLane hd]
  exact List.map_congr_left fun k hk => by rw [(hd.arriveLane waits h k (List.mem_of_mem_filter hk)).1]

/-- The barriers after the arrivals of a list of lanes. -/
theorem State.barrier_arriveLanes (slot : Nat) (waits : Bool) (ls : List Nat) (x : Nat) (s : State) (hd : s.Distinct ls) :
    (s.arriveLanes slot waits ls).curLaunch.barrier x = { s.curLaunch.barrier x with
      arrived := (s.curLaunch.barrier x).arrived ++ (s.arrivals slot ls x false).map fun l => (s.thrAt l).tid
      held := (s.curLaunch.barrier x).held ++ (s.arrivals slot ls x true).map fun l => ((s.thrAt l).tid, waits) } := by
  induction ls generalizing s with
  | nil => simp [State.arriveLanes, State.arrivals]
  | cons l ls ih =>
    cases hh : (s.thrAt l).herd slot with
    | none =>
      rw [State.arriveLanes_cons_none hh, ih s hd.tail]
      simp [State.arrivals, hh]
    | some h =>
      rw [State.arriveLanes_cons_some hh, ih _ (hd.tail_arriveLane waits h), State.barrier_arriveLane,
        State.map_arrivals_arriveLane hd (fun t => t.tid), State.map_arrivals_arriveLane hd (fun t => (t.tid, waits))]
      by_cases hx : x = h
      · subst hx
        have hsec : s.second slot l = (s.curLaunch.barrier x).arrived.contains (s.thrAt l).tid := by rw [State.second, hh]
        rw [if_pos rfl, Barrier.arrive, ← hsec]
        cases hs : s.second slot l <;> simp [State.arrivals, hh, hs]
      · have hx' : h ≠ x := fun e => hx e.symm
        simp [State.arrivals, hh, hx, hx']

/-- The thread of a lane after its arrival (R31, R32): one that waits, or whose second arrival it is, is in BARRIER. -/
def State.arrived (s : State) (slot : Nat) (waits : Bool) (l : Nat) : Thread := match (s.thrAt l).herd slot with
  | some h => if waits || s.second slot l then { s.thrAt l with state := .barrier, barrier := some h, passBar := false } else s.thrAt l
  | none => s.thrAt l

/-- The threads after the arrivals of a list of lanes. -/
theorem State.thrAt_arriveLanes (slot : Nat) (waits : Bool) (ls : List Nat) {k : Nat} (hk : k < 32) (s : State) (hd : s.Distinct ls) :
    (s.arriveLanes slot waits ls).thrAt k = if k ∈ ls then s.arrived slot waits k else s.thrAt k := by
  induction ls generalizing s with
  | nil => rfl
  | cons l ls ih =>
    have hnot := (List.nodup_cons.1 hd.nodup).1
    cases hh : (s.thrAt l).herd slot with
    | none =>
      rw [State.arriveLanes_cons_none hh, ih s hd.tail]
      by_cases he : k = l
      · subst he; simp [hnot, State.arrived, hh]
      · simp [he]
    | some h =>
      rw [State.arriveLanes_cons_some hh, ih _ (hd.tail_arriveLane waits h)]
      by_cases he : k = l
      · subst he
        have hsec : s.second slot k = (s.curLaunch.barrier h).arrived.contains (s.thrAt k).tid := by rw [State.second, hh]
        rw [if_neg hnot, if_pos List.mem_cons_self, State.thrAt, State.curCrew_arriveLane, Crew.thr_setThr _ _ _ hk, if_pos rfl, ← hsec,
          State.arrived, hh]
      · have hmem : k ∈ l :: ls ↔ k ∈ ls := by simp [he]
        rw [s.thrAt_arriveLane_ne waits h hk he, if_congr hmem rfl rfl]
        by_cases hkl : k ∈ ls
        · rw [if_pos hkl, if_pos hkl, State.arrived, State.arrived, (hd.arriveLane waits h k hkl).1, (hd.arriveLane waits h k hkl).2]
        · rw [if_neg hkl, if_neg hkl]

/-! ### Which lanes of G arrive -/

/-- The lanes of G that have a herd in the slot. -/
def State.herdLanes (s : State) (slot : Nat) : List Nat := (lanesOf s.active).filter fun l => ((s.thrAt l).herd slot).isSome

theorem State.mem_herdLanes (s : State) (slot l : Nat) : l ∈ s.herdLanes slot ↔ s.inG l = true ∧ ((s.thrAt l).herd slot).isSome = true := by
  rw [State.herdLanes, List.mem_filter, mem_lanesOf]
  rfl

theorem State.distinct_herdLanes {s : State} (slot : Nat)
    (h : ∀ l k, s.inG l = true → s.inG k = true → (s.thrAt l).tid = (s.thrAt k).tid → l = k) : s.Distinct (s.herdLanes slot) where
  lt l hl := mask_lt (m := s.active) ((s.mem_herdLanes slot l).1 hl).1
  nodup := (List.nodup_range.filter _).filter _
  tids l hl k hk := h l k ((s.mem_herdLanes slot l).1 hl).1 ((s.mem_herdLanes slot k).1 hk).1

/-- The herd in which a lane of G arrives. -/
def State.herdIn (s : State) (slot l : Nat) : Option Nat := if s.inG l then (s.thrAt l).herds.getD slot none else none

/-- The arrival of a lane of G is the second of its thread in the phase. -/
def State.secondIn (s : State) (slot l : Nat) : Bool := match s.herdIn slot l with
  | some h => (s.curLaunch.barrier h).arrived.contains (s.thrAt l).tid
  | none => false

theorem State.herdIn_of_inG {s : State} {l : Nat} (hG : s.inG l = true) (slot : Nat) : s.herdIn slot l = (s.thrAt l).herd slot := if_pos hG

theorem State.herdIn_of_not_inG {s : State} {l : Nat} (hG : s.inG l = false) (slot : Nat) : s.herdIn slot l = none := by
  rw [State.herdIn, hG]
  rfl

theorem State.secondIn_of_inG {s : State} {l : Nat} (hG : s.inG l = true) (slot : Nat) : s.secondIn slot l = s.second slot l := by
  rw [State.secondIn, State.herdIn_of_inG hG]
  rfl

theorem State.arrivals_herdLanes (s : State) (slot h : Nat) (held : Bool) :
    s.arrivals slot (s.herdLanes slot) h held =
      (List.range 32).filter fun l => s.herdIn slot l == some h && s.secondIn slot l == held := by
  simp only [State.arrivals, State.herdLanes, lanesOf, laneList, List.filter_filter]
  refine List.filter_congr fun l _ => ?_
  show (((s.thrAt l).herd slot == some h && s.second slot l == held) && (((s.thrAt l).herd slot).isSome && s.inG l)) = _
  cases hG : s.inG l
  · simp [State.herdIn_of_not_inG hG]
  · rw [State.herdIn_of_inG hG, State.secondIn_of_inG hG]
    cases (s.thrAt l).herd slot <;> simp

theorem State.arrived_herdLanes (s : State) (slot : Nat) (waits : Bool) (l : Nat) :
    (if l ∈ s.herdLanes slot then s.arrived slot waits l else s.thrAt l) = match s.herdIn slot l with
      | some h => if waits || s.secondIn slot l then { s.thrAt l with state := .barrier, barrier := some h, passBar := false } else s.thrAt l
      | none => s.thrAt l := by
  rw [if_congr (s.mem_herdLanes slot l) rfl rfl]
  cases hG : s.inG l
  · simp [State.herdIn_of_not_inG hG]
  · rw [State.herdIn_of_inG hG, State.secondIn_of_inG hG, State.arrived]
    cases (s.thrAt l).herd slot <;> simp

/-! ### BAR and BARA -/

/-- What BAR and BARA leave before they retire: the arrivals, and then the phases of their herds tested. -/
def State.afterArrivals (s : State) (slot : Nat) (waits : Bool) : State :=
  ((s.herdLanes slot).filterMap fun l => (s.thrAt l).herd slot).dedup.foldl (fun t h => t.settleBarrier s.curCrew.launch h 2)
    (s.arriveLanes slot waits (s.herdLanes slot))

/-- Every thread that arrives stays READY or waits in BARRIER. -/
theorem State.state_arriveLanes (slot : Nat) (waits : Bool) (ls : List Nat) {k : Nat} (hk : k < 32) (s : State) :
    ((s.arriveLanes slot waits ls).thrAt k).state = (s.thrAt k).state ∨ ((s.arriveLanes slot waits ls).thrAt k).state = .barrier := by
  induction ls generalizing s with
  | nil => exact .inl rfl
  | cons l ls ih =>
    cases hh : (s.thrAt l).herd slot with
    | none => rw [State.arriveLanes_cons_none hh]; exact ih s
    | some h =>
      rw [State.arriveLanes_cons_some hh]
      refine (ih _).elim (fun he => ?_) .inr
      rw [he, State.thrAt, State.curCrew_arriveLane, Crew.thr_setThr _ _ _ hk]
      split
      · next hkl =>
        rw [hkl]
        split
        · exact .inr rfl
        · exact .inl rfl
      · exact .inl rfl

theorem State.steady_arriveLanes {s : State} (hs : s.standing = true) (slot : Nat) (waits : Bool) (ls : List Nat) :
    s.Steady (s.arriveLanes slot waits ls) := by
  have ha := State.arrives_arriveLanes slot waits ls s
  obtain ⟨-, -, hready, -⟩ := State.standing_spec hs
  have hcores : ∀ n, (s.arriveLanes slot waits ls).core n = s.core n := fun n => by rw [ha.rest]; rfl
  have hcrew : (s.arriveLanes slot waits ls).crew s.cur.crew = (s.arriveLanes slot waits ls).curCrew := by rw [State.curCrew, ha.cur]
  refine ⟨ha.cur, ?_, by rw [ha.crew], fun l hl => ?_⟩
  · rw [State.cycleOf, hcrew, ha.crew, hcores]; rfl
  · rw [Thread.isLive]
    rcases State.state_arriveLanes slot waits ls (mask_lt (m := s.cur.mask) hl) s with h | h
    · rw [h, hready l hl]; exact ⟨rfl, ThreadState.noConfusion⟩
    · rw [h]; exact ⟨rfl, ThreadState.noConfusion⟩

theorem State.steady_afterArrivals {s : State} (hs : s.standing = true) (slot : Nat) (waits : Bool) : s.Steady (s.afterArrivals slot waits) :=
  (State.steady_arriveLanes hs slot waits _).releases (State.releases_settleBarriers _ _ _)

/-- The effect of a BAR or BARA in a lane: one without a herd in the slot traps (R33). -/
def State.barEffect (slot : Nat) (s : State) (l : Nat) : Eff := if (s.thrAt l).herd slot = none then trapped causeNoHerd 0 else {}

/-- An arrival whose writes are complete executes: its lanes arrive, and those without a herd trap. -/
theorem executes_arrivals {i : Instr} {more : State → Prop} {slot : Nat} {waits : Bool}
    (hx : ∀ s, more s → exec i s = .next (s.barrierOp slot waits))
    (hm : ∀ s, more s → ∀ l, s.inG l = true → ((s.thrAt l).herd slot).isSome = true → s.fenced 1 s.cur.crew l = true) :
    Executes i { visible := true } more (fun s => s.afterArrivals slot waits) (State.barEffect slot) := by
  refine executes_of_issue hx rfl (fun s hs => ?_) (fun s hp _ => State.steady_afterArrivals (State.poised_spec hp).1 slot waits)
    (fun s l => ?_) (fun s l => ?_)
  · have hall : (s.herdLanes slot).all (fun l => s.fenced 1 s.cur.crew l) = true := List.all_eq_true.2 fun l hl =>
      hm s hs l ((s.mem_herdLanes slot l).1 hl).1 ((s.mem_herdLanes slot l).1 hl).2
    refine ⟨_, if_pos hall, fun l hl => (State.getD_perLane_inG hl _).trans ?_⟩
    exact if_congr Option.isNone_iff_eq_none rfl rfl
  · unfold State.barEffect; split <;> rfl
  · unfold State.barEffect; split <;> rfl

/-- A debugger's step stops no lane: it has ended, or there is none, or the whole group has passed its BAR (R257). -/
theorem State.stepStops_eq_zero {s : State} (h : s.cur.entry = true ∨ s.curCrew.stepping = none ∨ ∀ l, s.inGroup l = true → (s.thrAt l).passBar = true) :
    s.stepStops = 0 := by
  unfold State.stepStops
  rcases h with h | h | h
  · rw [h]; rfl
  · rw [h, Option.isNone_none, Bool.or_true]; rfl
  · split
    · rfl
    · apply BitVec.eq_of_getLsbD_eq
      intro l hl
      rw [BitVec.getLsbD_and, getLsbD_maskOf]
      show (s.inGroup l && (_ && !(s.thrAt l).passBar)) = _
      cases hin : s.inGroup l
      · simp
      · simp [h l hin]

/-- The lanes that a debugger's step stops before a BAR (R257). -/
theorem State.getLsbD_stepStops {s : State} (he : s.cur.entry = false) (hs : s.curCrew.stepping ≠ none) {l : Nat} (hl : l < 32) :
    s.stepStops.getLsbD l = (s.inGroup l && !(s.thrAt l).passBar) := by
  have hcond : ¬ (s.cur.entry || s.curCrew.stepping.isNone) = true := by
    rw [he, Bool.false_or, Option.isNone_iff_eq_none]
    exact hs
  rw [State.stepStops, if_neg hcond, BitVec.getLsbD_and, getLsbD_maskOf, decide_eq_true hl]
  rfl

theorem State.getLsbD_settledLanes (s : State) {l : Nat} (hl : l < 32) :
    s.settledLanes.getLsbD l = true ↔ ∀ e ∈ s.curCrew.rob, e.issue.mask.getLsbD l = false := by
  rw [State.settledLanes, getLsbD_maskOf, decide_eq_true hl, Bool.true_and, List.all_eq_true]
  simp only [Bool.not_eq_true']

/-- A BAR that a debugger's step stops before halts the lanes that it stops and that have no unretired instruction. -/
theorem execBar_stopped {s : State} (i : BitVec 12) (he : s.cur.entry = false) (hs : s.curCrew.stepping ≠ none)
    (hex : ∃ l, s.inGroup l = true ∧ (s.thrAt l).passBar = false) :
    exec (.bar i) s = .next (s.setCur (s.curCrew.onMask (s.stepStops &&& s.settledLanes) fun _ t => { t with halted := true })) := by
  obtain ⟨l, hin, hpass⟩ := hex
  refine congrArg Host.Outcome.next (if_neg fun h0 => ?_)
  have hbit := State.getLsbD_stepStops he hs (mask_lt (m := s.cur.mask) hin)
  rw [h0, hin, hpass] at hbit
  exact absurd hbit (by simp)

/-- Settles O11: the arrivals lane by lane, the stop of a debugger's step, and BAR and BARA, whose bodies record the arrivals and test the phases. -/
theorem barriers : Obligations.Barriers := by
  unfold Obligations.Barriers
  refine ⟨?_, ?_, fun i => ?_, fun i => executes_arrivals (fun _ _ => rfl) fun _ hm => hm⟩
  · intro s slot waits lid herd ls second hdist b
    have ha := State.arrives_arriveLanes slot waits (s.herdLanes slot) s
    have hd := State.distinct_herdLanes slot hdist
    refine ⟨ha.rest, ha.crews, ha.launches, ha.launch, ha.crew, fun h => ?_, fun l hl => ?_⟩
    · have hb := State.barrier_arriveLanes slot waits _ h s hd
      rw [State.curLaunch, ha.crewLaunch, State.arrivals_herdLanes, State.arrivals_herdLanes] at hb
      simp only [beq_false, beq_true] at hb
      exact hb
    · exact (State.thrAt_arriveLanes slot waits _ hl s hd).trans (s.arrived_herdLanes slot waits l)
  · intro i s he hs hex
    refine ⟨_, execBar_stopped i he hs hex, rfl, fun k hk => State.crew_setCrew_ne _ _ hk, ?_, fun l hl => ?_⟩
    · rw [State.curCrew_setCur]; rfl
    · rw [State.thrAt_setCur, Crew.thr_onMask _ _ _ hl, BitVec.getLsbD_and, State.getLsbD_stepStops he hs hl]
      refine if_congr ?_ rfl rfl
      rw [Bool.and_eq_true, Bool.and_eq_true, Bool.not_eq_true', State.getLsbD_settledLanes s hl, and_assoc]
  · exact executes_arrivals (fun s hm => congrArg Host.Outcome.next (if_pos (State.stepStops_eq_zero hm.2))) fun s hm => hm.1

end
end Sys2Proof.Machine

namespace Sys2Proof.Machine

section

/-! ### Settling the meetings of a crew (R24, R25) -/

/-- All siblings wait or have departed, or the deadline is over: the meeting lets its waiting threads go (R24). -/
def Meeting.due (m : Meeting) (now : Nat) : Prop := m.wait ||| m.dep = m.sib ∨ m.expired now = true

/-- The meeting once its waiting threads have left it (R24). -/
def Meeting.left (m : Meeting) (timedOut : Bool) : Meeting :=
  { m with wait := 0, dep := m.dep ||| m.wait, released := m.released || timedOut }

/-- A settled meeting: not complete, and without a waiting thread once its deadline is over. -/
def Meeting.calm (m : Meeting) (now : Nat) : Prop := m.wait ||| m.dep ≠ m.sib ∧ (m.expired now = true → m.wait = 0)

theorem Meeting.calm_of_not_due {m : Meeting} {now : Nat} (h : ¬ m.due now) : m.calm now :=
  ⟨fun he => h (.inl he), fun he => absurd (.inr he) h⟩

/-- A meeting that its threads have left is settled unless it is discarded. -/
theorem Meeting.calm_left {m : Meeting} {timedOut : Bool} (h : (m.left timedOut).dep ≠ (m.left timedOut).sib) (now : Nat) :
    (m.left timedOut).calm now :=
  ⟨fun he => h ((BitVec.zero_or).symm.trans he), fun _ => rfl⟩

theorem Crew.settleMeeting_of_none {c : Crew} {id : Nat} (h : c.meeting id = none) (cycle : Nat) : c.settleMeeting cycle id = c := by
  rw [Crew.settleMeeting, h]

theorem Crew.settleMeeting_of_not_due {c : Crew} {id : Nat} {m : Meeting} (h : c.meeting id = some m) (hd : ¬ m.due c.now) (cycle : Nat) :
    c.settleMeeting cycle id = c := by
  rw [Crew.settleMeeting, h]
  dsimp only
  rw [if_neg fun he => hd (.inl he), if_neg fun he => hd (.inr he)]

theorem Crew.settleMeeting_of_due {c : Crew} {id : Nat} {m : Meeting} (h : c.meeting id = some m) (hd : m.due c.now) (cycle : Nat) :
    c.settleMeeting cycle id = c.leaveAll m (decide (m.wait ||| m.dep ≠ m.sib)) cycle := by
  rw [Crew.settleMeeting, h]
  dsimp only
  by_cases hf : m.wait ||| m.dep = m.sib
  · rw [if_pos hf, decide_eq_false (not_not_intro hf)]
  · rw [if_neg hf, if_pos (hd.resolve_left hf), decide_eq_true hf]

theorem Crew.meetings_leaveAll (c : Crew) (m : Meeting) (timedOut : Bool) (cycle : Nat) :
    (c.leaveAll m timedOut cycle).meetings =
      (c.meetings.map fun x => if x.id = m.id then m.left timedOut else x).filter fun x => x.dep != x.sib := rfl

theorem Crew.thr_leaveAll (c : Crew) (m : Meeting) (timedOut : Bool) (cycle : Nat) {l : Nat} (hl : l < 32) :
    (c.leaveAll m timedOut cycle).thr l = if m.wait.getLsbD l then
      { (c.thr l).wake cycle with stack := (c.thr l).stack.erase m.id, pc := m.addr } else c.thr l :=
  c.thr_onMask m.wait (fun _ t => { t.wake cycle with stack := t.stack.erase m.id, pc := m.addr }) hl

/-- A meeting that is found under a number bears it. -/
theorem Crew.meeting_id {c : Crew} {id : Nat} {m : Meeting} (h : c.meeting id = some m) : m.id = id :=
  eq_of_beq (List.find?_some (p := fun x : Meeting => x.id == id) h)

/-- A meeting is settled in one of two ways: nothing changes, or a meeting of that number lets its threads go. -/
theorem Crew.settleMeeting_cases (c : Crew) (cycle id : Nat) :
    (c.settleMeeting cycle id = c ∧ ∀ m, c.meeting id = some m → ¬ m.due c.now) ∨
    ∃ m timedOut, c.meeting id = some m ∧ c.settleMeeting cycle id = c.leaveAll m timedOut cycle := by
  cases h : c.meeting id with
  | none => exact .inl ⟨Crew.settleMeeting_of_none h cycle, fun _ hm => absurd hm (Option.some_ne_none _).symm⟩
  | some m =>
    by_cases hd : m.due c.now
    · exact .inr ⟨m, _, rfl, Crew.settleMeeting_of_due h hd cycle⟩
    · exact .inl ⟨Crew.settleMeeting_of_not_due h hd cycle, fun n hn => Option.some.inj hn ▸ hd⟩

/-- Settling changes threads and meetings alone. -/
theorem Crew.settleMeeting_frame (c : Crew) (cycle id : Nat) :
    c.settleMeeting cycle id =
      { c with threads := (c.settleMeeting cycle id).threads, meetings := (c.settleMeeting cycle id).meetings } := by
  rcases c.settleMeeting_cases cycle id with ⟨h, -⟩ | ⟨m, timedOut, -, h⟩
  · rw [h]
  · rw [h]; rfl

theorem Crew.now_settleMeeting (c : Crew) (cycle id : Nat) : (c.settleMeeting cycle id).now = c.now := by
  rw [Crew.settleMeeting_frame]

/-- A meeting that its threads have left keeps its number, so that no number is new after a settling. -/
theorem Crew.ids_settleMeeting (c : Crew) (cycle id : Nat) :
    ((c.settleMeeting cycle id).meetings.map (·.id)).Sublist (c.meetings.map (·.id)) := by
  rcases c.settleMeeting_cases cycle id with ⟨h, -⟩ | ⟨m, timedOut, -, h⟩
  · rw [h]
  · have hids : (c.meetings.map fun x => if x.id = m.id then m.left timedOut else x).map (·.id) = c.meetings.map (·.id) := by
      rw [List.map_map]
      refine List.map_congr_left fun x _ => ?_
      show (if x.id = m.id then m.left timedOut else x).id = x.id
      split
      · next hx => exact hx.symm
      · rfl
    rw [h, Crew.meetings_leaveAll, ← hids]
    exact (List.filter_sublist).map _

/-- What a crew's meetings are after one has let its threads go: that one, unless it is discarded, and others of the crew. -/
theorem Crew.mem_leaveAll {c : Crew} {m x : Meeting} {timedOut : Bool} {cycle : Nat} (h : x ∈ (c.leaveAll m timedOut cycle).meetings) :
    (x = m.left timedOut ∧ x.dep ≠ x.sib) ∨ (x ∈ c.meetings ∧ x.id ≠ m.id) := by
  rw [Crew.meetings_leaveAll, List.mem_filter, List.mem_map] at h
  obtain ⟨⟨y, hy, hyx⟩, hkeep⟩ := h
  split at hyx
  · exact .inl ⟨hyx.symm, bne_iff_ne.1 hkeep⟩
  · next hid => exact .inr (hyx ▸ ⟨hy, hid⟩)

/-- A meeting of another number is one that the crew had. -/
theorem Crew.mem_settleMeeting_ne {c : Crew} {cycle id : Nat} {x : Meeting} (h : x ∈ (c.settleMeeting cycle id).meetings) (hx : x.id ≠ id) :
    x ∈ c.meetings := by
  rcases c.settleMeeting_cases cycle id with ⟨hc, -⟩ | ⟨m, timedOut, hm, hc⟩
  · rwa [hc] at h
  · rw [hc] at h
    rcases Crew.mem_leaveAll h with ⟨he, -⟩ | ⟨hmem, -⟩
    · exact absurd ((congrArg Meeting.id he).trans (Crew.meeting_id hm : m.id = id)) hx
    · exact hmem

/-- With different numbers, a meeting is the one that is found under its number. -/
theorem Crew.meeting_of_mem {c : Crew} (hnd : (c.meetings.map (·.id)).Nodup) {m : Meeting} (hm : m ∈ c.meetings) : c.meeting m.id = some m := by
  obtain ⟨x, hx⟩ := Option.isSome_iff_exists.1 (List.find?_isSome (p := fun x : Meeting => x.id == m.id).2 ⟨m, hm, beq_self_eq_true _⟩)
  have hxm : x = m := List.inj_on_of_nodup_map hnd (List.mem_of_find?_eq_some hx) hm (Crew.meeting_id (c := c) hx)
  rw [Crew.meeting, hx, hxm]

/-- The meeting that has been settled is calm. -/
theorem Crew.calm_settleMeeting {c : Crew} (hnd : (c.meetings.map (·.id)).Nodup) {cycle id : Nat} {x : Meeting}
    (h : x ∈ (c.settleMeeting cycle id).meetings) (hx : x.id = id) : x.calm c.now := by
  rcases c.settleMeeting_cases cycle id with ⟨hc, hdue⟩ | ⟨m, timedOut, hm, hc⟩
  · rw [hc] at h
    exact Meeting.calm_of_not_due (hdue x (hx ▸ Crew.meeting_of_mem hnd h))
  · rw [hc] at h
    rcases Crew.mem_leaveAll h with ⟨he, hdep⟩ | ⟨-, hne⟩
    · rw [he] at hdep ⊢
      exact Meeting.calm_left hdep c.now
    · exact absurd (hx.trans (Crew.meeting_id hm).symm) hne

/-- Once the meetings of a list of numbers have been settled, every meeting of the crew is calm, when those of other numbers are. -/
theorem Crew.calm_settleAll (cycle : Nat) (ids : List Nat) (c : Crew) (hnd : (c.meetings.map (·.id)).Nodup)
    (hcalm : ∀ x ∈ c.meetings, x.id ∉ ids → x.calm c.now) :
    ∀ x ∈ (ids.foldl (fun c id => c.settleMeeting cycle id) c).meetings, x.calm c.now := by
  induction ids generalizing c with
  | nil => exact fun x hx => hcalm x hx List.not_mem_nil
  | cons id ids ih =>
    rw [List.foldl_cons, ← c.now_settleMeeting cycle id]
    refine ih _ (hnd.sublist (c.ids_settleMeeting cycle id)) fun x hx hids => ?_
    rw [c.now_settleMeeting cycle id]
    by_cases hid : x.id = id
    · exact Crew.calm_settleMeeting hnd hx hid
    · exact hcalm x (Crew.mem_settleMeeting_ne hx hid) fun hmem => (List.mem_cons.1 hmem).elim hid hids

/-- Settles O10: the meetings are settled one after the other, and settling one leaves the others as they are. -/
theorem meetingsSettle : Obligations.MeetingsSettle := by
  intro c cycle hnd
  refine ⟨Crew.calm_settleAll cycle _ c hnd fun x hx hids => absurd (List.mem_map_of_mem hx) hids, fun m hm => ?_⟩
  have hfind := Crew.meeting_of_mem hnd hm
  intro d
  split
  · next hdue =>
    have hd : d = c.leaveAll m (decide (m.wait ||| m.dep ≠ m.sib)) cycle := Crew.settleMeeting_of_due hfind hdue cycle
    rw [hd]
    refine ⟨fun l hl => Crew.thr_leaveAll c m _ cycle hl, fun x hx hid => ?_⟩
    obtain ⟨rfl, -⟩ := (Crew.mem_leaveAll hx).resolve_right fun h => h.2 hid
    exact ⟨rfl, rfl, fun hne => by rw [Meeting.left, decide_eq_true hne, Bool.or_true]⟩
  · next hdue => exact Crew.settleMeeting_of_not_due hfind hdue cycle

end
end Sys2Proof.Machine

namespace Sys2Proof.Machine

section

/-! ### Instructions of the meeting stacks (R22 to R26, R330, R331, R336) -/

/-- The packet that a B-form offset names is the one that a count of packets names (R41, R67). -/
theorem offTarget_eq (s : State) (o : BitVec 24) : offTarget s.cur.pc o = s.packetsOn o := by
  have hshift : o.signExtend 64 <<< 4 = BitVec.ofInt 64 (16 * o.toInt) := by
    rw [BitVec.shiftLeft_eq_mul_twoPow, BitVec.signExtend, Int.mul_comm, BitVec.ofInt_mul]
    rfl
  rw [offTarget, hshift]
  rfl

/-- A retirement is as well one from a state that reads every crew alike. -/
theorem Retires.of_crews {s b t : State} {o : Operands} {eff : Nat → Eff} (h : Retires s b t o eff) {x : Tab Crew}
    (hx : ∀ k, ({ b with crews := x } : State).crew k = b.crew k) : Retires s { b with crews := x } t o eff where
  written := h.written
  others r l hr hl hw := by rw [hx]; exact h.others r l hr hl hw
  threads l hl := by
    rw [State.resumes, hx]
    exact h.threads l hl
  rob := by rw [hx]; exact h.rob
  crews k hk := by rw [hx]; exact h.crews k hk
  cores := h.cores
  crew := by rw [hx]; exact h.crew
  core := h.core
  slots := h.slots
  window := h.window
  traps := by
    rw [h.traps]
    refine congrArg (b.traps ++ ·) (List.filterMap_congr fun l _ => ?_)
    unfold trapOf
    rw [hx]
    rfl
  rest := h.rest

/-- What an instruction that writes no register executes to may be stated by any state that reads every crew alike. -/
theorem Executes.of_crews {i : Instr} {o : Operands} {more : State → Prop} {b b' : State → State} {eff : State → Nat → Eff}
    (h : Executes i o more b eff) (hb : ∀ s, ∃ x, b' s = { b s with crews := x } ∧ ∀ k, (b' s).crew k = (b s).crew k)
    (hw : ∀ s l, (eff s l).w = []) : Executes i o more b' eff := by
  intro s hp hm
  refine ⟨fun hr => ?_, fun _ ⟨l, _, _, _, hwl⟩ => absurd (hw s l) hwl⟩
  obtain ⟨t, ht, hret⟩ := (h s hp hm).1 hr
  refine ⟨t, ht, ?_⟩
  obtain ⟨x, hx, hcrews⟩ := hb s
  split at hret
  · next ha => rwa [if_pos ha]
  · next ha =>
    rw [if_neg ha]
    rw [hx] at hcrews ⊢
    exact hret.of_crews hcrews

/-! ### What happens to a crew at its meetings -/

/-- A crew whose threads have moved about its meetings: only threads, meetings and the next number have changed, and a thread is in the state
that it was in, READY or in MEETING. -/
structure Crew.Gathers (c d : Crew) : Prop where
  frame : d = { c with threads := d.threads, meetings := d.meetings, nextMeeting := d.nextMeeting }
  states : ∀ l, l < 32 → (d.thr l).state = (c.thr l).state ∨ (d.thr l).state = .ready ∨ (d.thr l).state = .meeting

theorem Crew.Gathers.refl (c : Crew) : c.Gathers c := ⟨rfl, fun _ _ => .inl rfl⟩

theorem Crew.Gathers.trans {c d e : Crew} (h : c.Gathers d) (h' : d.Gathers e) : c.Gathers e where
  frame := by rw [h'.frame, h.frame]
  states l hl := (h'.states l hl).elim (fun he => he ▸ h.states l hl) .inr

/-- A crew whose threads stay in their states. -/
theorem Crew.Gathers.of_state {c d : Crew} (hf : d = { c with threads := d.threads, meetings := d.meetings, nextMeeting := d.nextMeeting })
    (hs : ∀ l, l < 32 → (d.thr l).state = (c.thr l).state) : c.Gathers d := ⟨hf, fun l hl => .inl (hs l hl)⟩

theorem Crew.Gathers.foldl {α : Type} {f : Crew → α → Crew} (hf : ∀ (c : Crew) a, c.Gathers (f c a)) (as : List α) (c : Crew) :
    c.Gathers (as.foldl f c) := by
  induction as generalizing c with
  | nil => exact Crew.Gathers.refl c
  | cons a as ih => exact (hf c a).trans (ih _)

theorem Crew.gathers_setThr {c : Crew} {l : Nat} {t : Thread}
    (h : l < 32 → t.state = (c.thr l).state ∨ t.state = .ready ∨ t.state = .meeting) : c.Gathers (c.setThr l t) where
  frame := rfl
  states k hk := by
    rw [Crew.thr_setThr _ _ _ hk]
    split
    · next he => exact he ▸ h (he ▸ hk)
    · exact .inl rfl

theorem Crew.gathers_setMeeting (c : Crew) (m : Meeting) : c.Gathers (c.setMeeting m) := .of_state rfl fun _ _ => rfl

theorem Crew.gathers_depart (c : Crew) (id : Nat) (m : Mask) : c.Gathers (c.depart id m) := .of_state rfl fun _ _ => rfl

theorem Crew.gathers_arrive (c : Crew) (l timeout cycle : Nat) : c.Gathers (c.arrive l timeout cycle) := by
  unfold Crew.arrive
  dsimp only
  split
  · exact .refl c
  · split
    · exact .refl c
    · split
      · exact (Crew.gathers_setThr fun _ => .inr (.inl rfl)).trans (Crew.gathers_setMeeting _ _)
      · exact (Crew.gathers_setThr fun _ => .inr (.inr rfl)).trans (Crew.gathers_setMeeting _ _)

theorem Crew.gathers_settleMeeting (c : Crew) (cycle id : Nat) : c.Gathers (c.settleMeeting cycle id) where
  frame := by rw [Crew.settleMeeting_frame]
  states l hl := by
    rcases c.settleMeeting_cases cycle id with ⟨h, -⟩ | ⟨m, timedOut, -, h⟩
    · rw [h]; exact .inl rfl
    · rw [h, Crew.thr_leaveAll _ _ _ _ hl]
      split
      · exact .inr (.inl rfl)
      · exact .inl rfl

theorem Crew.gathers_settleMeetings (c : Crew) (cycle : Nat) : c.Gathers (c.settleMeetings cycle) :=
  Crew.Gathers.foldl (fun c id => c.gathers_settleMeeting cycle id) _ c

/-- A crew that stands stays steady while its threads move about its meetings. -/
theorem State.steady_setCur {s : State} (hs : s.standing = true) {d : Crew} (h : s.curCrew.Gathers d) : s.Steady (s.setCur d) := by
  obtain ⟨-, -, hready, -⟩ := State.standing_spec hs
  refine ⟨rfl, ?_, ?_, fun l hl => ?_⟩
  · show (s.core _).cycle = (s.core _).cycle
    have hc : (s.setCur d).crew s.cur.crew = d := State.crew_setCrew _ _ _
    rw [hc, h.frame]
    rfl
  · rw [State.curCrew_setCur]
    exact h.frame
  · rw [State.thrAt_setCur, Thread.isLive]
    have hst : (d.thr l).state = .ready ∨ (d.thr l).state = .meeting := by
      rcases h.states l (mask_lt (m := s.cur.mask) hl) with he | he
      · exact .inl (he.trans (hready l hl))
      · exact he
    rcases hst with he | he <;> (rw [he]; exact ⟨rfl, ThreadState.noConfusion⟩)

/-! ### MPUSH, MJOIN and MDROP -/

/-- The crew after an MPUSH of the lanes of a mask. -/
def Crew.pushMeeting (c : Crew) (sib : Mask) (addr : Dword) : Crew :=
  { c.onMask sib fun _ t => { t with stack := c.nextMeeting :: t.stack } with
    meetings := c.meetings ++ [{ id := c.nextMeeting, addr := addr, sib := sib }], nextMeeting := c.nextMeeting + 1 }

theorem Crew.gathers_pushMeeting (c : Crew) (sib : Mask) (addr : Dword) : c.Gathers (c.pushMeeting sib addr) :=
  .of_state rfl fun l hl => by
    have ht : (c.pushMeeting sib addr).thr l = (c.onMask sib fun _ t => { t with stack := c.nextMeeting :: t.stack }).thr l := rfl
    rw [ht, Crew.thr_onMask _ _ _ hl]
    split <;> rfl

/-- The lanes of G whose stacks have room (R22). -/
def State.roomy (s : State) : Mask := maskOf fun l => s.inG l && decide ((s.thrAt l).stack.length < 16)

/-- The crew after an MPUSH (R22). -/
def State.pushed (s : State) (addr : Dword) : Crew := if s.roomy = 0 then s.curCrew else s.curCrew.pushMeeting s.roomy addr

/-- The state after an MPUSH, which is as it was when no lane of G has room. -/
def State.push (s : State) (addr : Dword) : State := if s.roomy = 0 then s else s.setCrew s.cur.crew (s.curCrew.pushMeeting s.roomy addr)

theorem State.push_eq (s : State) (addr : Dword) : s.push addr = { s.setCur (s.pushed addr) with crews := (s.push addr).crews } := by
  unfold State.push
  split <;> rfl

theorem State.crew_push (s : State) (addr : Dword) (k : Nat) : (s.push addr).crew k = (s.setCur (s.pushed addr)).crew k := by
  unfold State.push State.pushed
  split
  · by_cases hk : k = s.cur.crew
    · rw [hk]
      exact (State.crew_setCrew _ _ _).symm
    · exact (State.crew_setCrew_ne _ _ hk).symm
  · rfl

/-- A lane whose stack is full traps (R22). -/
def State.pushEffect (s : State) (l : Nat) : Eff := if 16 ≤ (s.thrAt l).stack.length then trapped causeMeetOverflow 0 else {}

theorem mpush_executes (o : BitVec 24) :
    Executes (.mpush o) {} (fun _ => True) (fun s => s.setCur (s.pushed (s.packetsOn o))) State.pushEffect := by
  refine executes_of_issue (fun _ _ => rfl) rfl (fun s _ => ⟨_, ?_, fun l hl => State.getD_perLane_inG hl _⟩) (fun s hp _ => ?_)
    (fun s l => ?_) (fun s l => ?_)
  · have hroom : (maskOf fun l => s.active.getLsbD l && !decide (16 ≤ (s.curCrew.thr l).stack.length)) = s.roomy := by
      unfold State.roomy
      congr 1
      funext l
      rw [← decide_not, decide_eq_decide.2 Nat.not_le]
      rfl
    rw [← offTarget_eq, State.pushed, ← hroom]
    rfl
  · refine State.steady_setCur (State.poised_spec hp).1 ?_
    unfold State.pushed
    split
    · exact .refl _
    · exact Crew.gathers_pushMeeting _ _ _
  · unfold State.pushEffect; split <;> rfl
  · unfold State.pushEffect; split <;> rfl

/-- The crew after the arrivals of an MJOIN (R24, R331), and its meetings settled. -/
def State.joined (s : State) (timeout : Nat) : Crew :=
  (((lanesOf s.active).filter fun l => !(s.thrAt l).stack.isEmpty).foldl (fun c l => c.arrive l timeout (s.cycleOf s.cur.crew)) s.curCrew).settleMeetings
    (s.cycleOf s.cur.crew)

/-- A lane without a meeting traps; any other has been sent where it goes on (R331). -/
def State.joinEffect (s : State) (l : Nat) : Eff := if (s.thrAt l).stack = [] then trapped causeMeetUnderflow 0 else { pc := .kept }

theorem mjoin_executes (i : BitVec 12) :
    Executes (.mjoin i) {} (fun _ => True) (fun s => s.setCur (s.joined (64 * i.toNat))) State.joinEffect := by
  refine executes_of_issue (fun _ _ => rfl) rfl (fun s _ =>
    ⟨perLane fun l => if (s.thrAt l).stack.isEmpty then trapped causeMeetUnderflow 0 else { pc := .kept }, ?_,
      fun l hl => (State.getD_perLane_inG hl _).trans ?_⟩) (fun s hp _ => ?_) (fun s l => ?_) (fun s l => ?_)
  · rw [Nat.mul_comm]; rfl
  · exact if_congr List.isEmpty_iff rfl rfl
  · exact State.steady_setCur (State.poised_spec hp).1
      ((Crew.Gathers.foldl (fun c l => c.gathers_arrive l _ _) _ _).trans (Crew.gathers_settleMeetings _ _))
  · unfold State.joinEffect; split <;> rfl
  · unfold State.joinEffect; split <;> rfl

/-- The lanes of G that have n meetings to drop (R330). -/
def State.droppers (s : State) (n : Nat) : List Nat := (lanesOf s.active).filter fun l => decide (n ≤ (s.thrAt l).stack.length)

/-- Lanes of a crew depart from the first n meetings on their stacks, which an earlier state of the crew gives. -/
def Crew.departFirst (c0 : Crew) (n : Nat) (c : Crew) (ls : List Nat) : Crew :=
  ls.foldl (fun c l => ((c0.thr l).stack.take n).foldl (fun c id => c.depart id (laneMask l)) c) c

/-- Lanes of a crew pop n meetings. -/
def Crew.dropFirst (n : Nat) (c : Crew) (ls : List Nat) : Crew :=
  ls.foldl (fun c l => c.setThr l { c.thr l with stack := (c.thr l).stack.drop n }) c

/-- The crew after an MDROP (R26, R330), and its meetings settled. -/
def State.dropped (s : State) (n : Nat) : Crew :=
  (Crew.dropFirst n (s.curCrew.departFirst n s.curCrew (s.droppers n)) (s.droppers n)).settleMeetings (s.cycleOf s.cur.crew)

theorem Crew.threads_departs (c : Crew) (ids : List Nat) (m : Mask) : (ids.foldl (fun c id => c.depart id m) c).threads = c.threads := by
  induction ids generalizing c with
  | nil => rfl
  | cons id ids ih => exact ih _

/-- A departure leaves the stacks, so that it does not matter from which state of the crew they are read. -/
theorem Crew.departFirst_eq (n : Nat) (ls : List Nat) {c0 c : Crew} (h : c.threads = c0.threads) :
    ls.foldl (fun c l => ((c.thr l).stack.take n).foldl (fun c id => c.depart id (laneMask l)) c) c = c0.departFirst n c ls := by
  induction ls generalizing c with
  | nil => rfl
  | cons l ls ih =>
    have hthr : c.thr l = c0.thr l := by rw [Crew.thr, h]; rfl
    rw [List.foldl_cons, ih ((Crew.threads_departs _ _ _).trans h), hthr]
    rfl

theorem Crew.gathers_departFirst (c0 : Crew) (n : Nat) (c : Crew) (ls : List Nat) : c.Gathers (c0.departFirst n c ls) :=
  Crew.Gathers.foldl (fun c _ => Crew.Gathers.foldl (fun c id => c.gathers_depart id _) _ c) _ _

theorem Crew.gathers_dropFirst (n : Nat) (c : Crew) (ls : List Nat) : c.Gathers (Crew.dropFirst n c ls) :=
  Crew.Gathers.foldl (f := fun c l => c.setThr l { c.thr l with stack := (c.thr l).stack.drop n })
    (fun _ _ => Crew.gathers_setThr fun _ => .inl rfl) ls c

/-- A lane that has fewer meetings than it is to drop traps (R330). -/
def State.dropEffect (n : Nat) (s : State) (l : Nat) : Eff := if (s.thrAt l).stack.length < n then trapped causeMeetUnderflow 0 else {}

theorem mdrop_executes (i : BitVec 12) :
    Executes (.mdrop i) {} (fun _ => True) (fun s => s.setCur (s.dropped i.toNat)) (State.dropEffect i.toNat) := by
  refine executes_of_issue (fun _ _ => rfl) rfl (fun s _ =>
    ⟨perLane fun l => if (s.thrAt l).stack.length < i.toNat then trapped causeMeetUnderflow 0 else {}, ?_,
      fun l hl => State.getD_perLane_inG hl _⟩) (fun s hp _ => ?_) (fun s l => ?_) (fun s l => ?_)
  · have hls : (lanesOf s.active).filter (fun l => !decide ((s.curCrew.thr l).stack.length < i.toNat)) = s.droppers i.toNat :=
      List.filter_congr fun l _ => by rw [← decide_not, decide_eq_decide.2 Nat.not_lt]; rfl
    rw [State.dropped, ← Crew.departFirst_eq i.toNat (s.droppers i.toNat) rfl, ← hls]
    rfl
  · exact State.steady_setCur (State.poised_spec hp).1
      (((Crew.gathers_departFirst _ _ _ _).trans (Crew.gathers_dropFirst _ _ _)).trans (Crew.gathers_settleMeetings _ _))
  · unfold State.dropEffect; split <;> rfl
  · unfold State.dropEffect; split <;> rfl

/-- Whether the earlier of two deadlines is kept (R24). -/
theorem earlier_eq (d : Nat) (x : Option Nat) :
    (some (match x with | none => d | some e => if d < e then d else e)) = match x with | none => some d | some e => some (min e d) := by
  cases x with
  | none => rfl
  | some e =>
    dsimp only
    rw [Nat.min_def]
    congr 1
    split <;> split <;> omega

theorem Crew.arrive_of_meeting {c : Crew} {l id : Nat} {rest : List Nat} {m : Meeting} (hs : (c.thr l).stack = id :: rest)
    (hm : c.meeting id = some m) (timeout cycle : Nat) :
    c.arrive l timeout cycle = if m.released then
      (c.setThr l { (c.thr l).wake cycle with stack := rest, pc := m.addr }).setMeeting { m with dep := m.dep ||| laneMask l }
      else (c.setThr l { c.thr l with state := .meeting }).setMeeting { m with
        wait := m.wait ||| laneMask l
        deadline := if timeout = 0 then m.deadline else match m.deadline with
          | none => some (c.now + timeout)
          | some e => some (min e (c.now + timeout)) } := by
  rw [Crew.arrive]
  dsimp only
  rw [hs]
  dsimp only
  rw [hm]
  dsimp only
  rw [← earlier_eq] <;> rfl

/-- The threads after one of them has been replaced and a meeting has. -/
theorem Crew.thr_setThr_setMeeting (c : Crew) {l k : Nat} (t : Thread) (m : Meeting) (hk : k < 32) :
    ((c.setThr l t).setMeeting m).thr k = if k = l then t else c.thr k := Crew.thr_setThr c l t hk

/-- Settles O9: what an arrival and a departure do to the crew, and that the three instructions leave the crew that their lanes' arrivals and
departures make. -/
theorem meetings : Obligations.Meetings := by
  unfold Obligations.Meetings
  refine ⟨?_, fun c id m => ⟨rfl, rfl⟩, fun o => ?_, mjoin_executes, mdrop_executes⟩
  · intro c l y cycle id rest m hl hs hm d self put
    have hid : m.id = id := Crew.meeting_id hm
    have hd : d = c.arrive l y cycle := rfl
    rw [Crew.arrive_of_meeting hs hm] at hd
    refine ⟨?_, fun k hk hne => ?_, ?_⟩
    · rw [hd]
      split <;> rfl
    · rw [hd]
      split <;> rw [Crew.thr_setThr_setMeeting _ _ _ hk, if_neg hne]
    · subst hid
      split
      · next hr =>
        rw [if_pos hr] at hd
        rw [hd, Crew.thr_setThr_setMeeting _ _ _ hl, if_pos rfl]
        exact ⟨rfl, rfl⟩
      · next hr =>
        rw [if_neg hr] at hd
        rw [hd, Crew.thr_setThr_setMeeting _ _ _ hl, if_pos rfl]
        exact ⟨rfl, rfl⟩
  · refine (mpush_executes o).of_crews (fun s => ⟨_, s.push_eq (s.packetsOn o), fun k => ?_⟩) fun s l => ?_
    · exact s.crew_push (s.packetsOn o) k
    · unfold State.pushEffect; split <;> rfl

end
end Sys2Proof.Machine

namespace Sys2Proof.Machine

section

/-! ### Threads that end (R20, R27, R31): their crew -/

/-- No meeting of the crew has the lane among those that wait. -/
def Crew.Awake (c : Crew) (l : Nat) : Prop := ∀ m ∈ c.meetings, m.wait.getLsbD l = false

theorem Crew.awake_settleMeeting {c : Crew} {l : Nat} (h : c.Awake l) (cycle id : Nat) : (c.settleMeeting cycle id).Awake l := by
  rcases c.settleMeeting_cases cycle id with ⟨hc, -⟩ | ⟨m, timedOut, -, hc⟩
  · rwa [hc]
  · rw [hc]
    intro x hx
    rcases Crew.mem_leaveAll hx with ⟨he, -⟩ | ⟨hmem, -⟩
    · rw [he]; exact BitVec.getLsbD_zero
    · exact h x hmem

theorem Crew.thr_settleMeeting_of_awake {c : Crew} {l : Nat} (h : c.Awake l) (cycle id : Nat) (hl : l < 32) :
    (c.settleMeeting cycle id).thr l = c.thr l := by
  rcases c.settleMeeting_cases cycle id with ⟨hc, -⟩ | ⟨m, timedOut, hm, hc⟩
  · rw [hc]
  · rw [hc, Crew.thr_leaveAll _ _ _ _ hl, h m (List.mem_of_find?_eq_some hm), if_neg Bool.false_ne_true]

/-- A lane that waits at no meeting stays as it is when the meetings are settled. -/
theorem Crew.thr_settleMeetings_of_awake {c : Crew} {l : Nat} (h : c.Awake l) (cycle : Nat) (hl : l < 32) :
    (c.settleMeetings cycle).thr l = c.thr l := by
  unfold Crew.settleMeetings
  generalize c.meetings.map (·.id) = ids
  induction ids generalizing c with
  | nil => rfl
  | cons id ids ih => exact (ih (Crew.awake_settleMeeting h cycle id)).trans (Crew.thr_settleMeeting_of_awake h cycle id hl)

/-- Settling does not look at the registers, nor at the reorder buffer. -/
theorem Crew.settleMeeting_with (c : Crew) (x : List (Option PReg)) (y : List RobEntry) (cycle id : Nat) :
    ({ c with map := x, rob := y } : Crew).settleMeeting cycle id = { c.settleMeeting cycle id with map := x, rob := y } := by
  cases h : c.meeting id with
  | none => rw [Crew.settleMeeting_of_none h, Crew.settleMeeting_of_none (c := { c with map := x, rob := y }) h]
  | some m =>
    by_cases hd : m.due c.now
    · rw [Crew.settleMeeting_of_due h hd, Crew.settleMeeting_of_due (c := { c with map := x, rob := y }) h hd]
      rfl
    · rw [Crew.settleMeeting_of_not_due h hd, Crew.settleMeeting_of_not_due (c := { c with map := x, rob := y }) h hd]

theorem Crew.settleMeetings_with (c : Crew) (x : List (Option PReg)) (y : List RobEntry) (cycle : Nat) :
    ({ c with map := x, rob := y } : Crew).settleMeetings cycle = { c.settleMeetings cycle with map := x, rob := y } := by
  unfold Crew.settleMeetings
  dsimp only
  generalize c.meetings.map (·.id) = ids
  induction ids generalizing c with
  | nil => rfl
  | cons id ids ih => rw [List.foldl_cons, List.foldl_cons, Crew.settleMeeting_with, ih]

/-- Settling changes threads and meetings alone. -/
theorem Crew.settleMeetings_frame (c : Crew) (cycle : Nat) :
    c.settleMeetings cycle = { c with threads := (c.settleMeetings cycle).threads, meetings := (c.settleMeetings cycle).meetings } := by
  unfold Crew.settleMeetings
  generalize c.meetings.map (·.id) = ids
  induction ids generalizing c with
  | nil => rfl
  | cons id ids ih => rw [List.foldl_cons, ih, Crew.settleMeeting_frame]

/-! ### Departures -/

theorem Crew.departs_frame (c : Crew) (ids : List Nat) (m : Mask) :
    ids.foldl (fun c id => c.depart id m) c = { c with meetings := (ids.foldl (fun c id => c.depart id m) c).meetings } := by
  induction ids generalizing c with
  | nil => rfl
  | cons id ids ih => rw [List.foldl_cons, ih]; rfl

/-- Lanes that depart from a list of meetings join the departed of each. -/
theorem Crew.meetings_departs (c : Crew) (ids : List Nat) (m : Mask) :
    (ids.foldl (fun c id => c.depart id m) c).meetings =
      c.meetings.map fun x => { x with dep := if ids.contains x.id then x.dep ||| m else x.dep } := by
  induction ids generalizing c with
  | nil => exact (List.map_id' _).symm
  | cons id ids ih =>
    rw [List.foldl_cons, ih, Crew.depart, List.map_map]
    refine List.map_congr_left fun x _ => ?_
    dsimp only [Function.comp_apply]
    by_cases hx : x.id = id
    · subst hx
      cases hc : ids.contains x.id <;> simp only [if_true, hc, List.contains_cons, BEq.rfl, Bool.true_or, Bool.false_eq_true, if_false,
        BitVec.or_assoc, BitVec.or_self]
    · simp only [if_neg hx, List.contains_cons, beq_eq_false_iff_ne.2 hx, Bool.false_or]

/-- A lane departs from every meeting on its stack, and its registers are cleared (R20, R27). -/
def Crew.departLane (c : Crew) (l : Nat) : Crew :=
  ((c.thr l).stack.foldl (fun c id => c.depart id (laneMask l)) c).clearLane l .unwritten

theorem Crew.departLane_frame (c : Crew) (l : Nat) :
    c.departLane l = { c with meetings := (c.departLane l).meetings, map := (c.departLane l).map } := by
  unfold Crew.departLane Crew.clearLane Crew.onRegs
  rw [Crew.departs_frame]

theorem Crew.departLanes_frame (ls : List Nat) (c : Crew) :
    ls.foldl Crew.departLane c = { c with meetings := (ls.foldl Crew.departLane c).meetings, map := (ls.foldl Crew.departLane c).map } := by
  induction ls generalizing c with
  | nil => rfl
  | cons l ls ih => rw [List.foldl_cons, ih, Crew.departLane_frame]

theorem Crew.meetings_departLane (c : Crew) (l : Nat) :
    (c.departLane l).meetings =
      c.meetings.map fun x => { x with dep := if (c.thr l).stack.contains x.id then x.dep ||| laneMask l else x.dep } :=
  Crew.meetings_departs c _ _

theorem Crew.thr_departLane (c : Crew) (l k : Nat) : (c.departLane l).thr k = c.thr k := by
  rw [Crew.departLane_frame]
  rfl

/-- The lanes of a list whose stacks hold a meeting. -/
def Crew.departing (c : Crew) (ls : List Nat) (id : Nat) : Mask := maskOf fun l => ls.contains l && (c.thr l).stack.contains id

theorem Crew.meetings_departLanes (ls : List Nat) (c : Crew) :
    (ls.foldl Crew.departLane c).meetings = c.meetings.map fun x => { x with dep := x.dep ||| c.departing ls x.id } := by
  induction ls generalizing c with
  | nil =>
    refine (List.map_id' _).symm.trans (List.map_congr_left fun x _ => ?_)
    have h0 : c.departing [] x.id = 0#32 := maskOf_eq_zero fun _ _ => rfl
    rw [h0, BitVec.or_zero]
  | cons l ls ih =>
    rw [List.foldl_cons, ih, Crew.meetings_departLane, List.map_map]
    refine List.map_congr_left fun x _ => ?_
    dsimp only [Function.comp_apply]
    refine congrArg (fun m => { x with dep := m }) (BitVec.eq_of_getLsbD_eq fun k hk => ?_)
    have hthr : ∀ j, (c.departLane l).thr j = c.thr j := c.thr_departLane l
    rw [BitVec.getLsbD_or, BitVec.getLsbD_or, Crew.departing, Crew.departing, getLsbD_maskOf, getLsbD_maskOf, hthr, List.contains_cons,
      apply_ite (BitVec.getLsbD · k), BitVec.getLsbD_or, laneMask, getLsbD_maskOf, decide_eq_true hk]
    by_cases hkl : k = l
    · subst hkl
      cases (c.thr k).stack.contains x.id <;> simp
    · have hb : (k == l) = false := beq_eq_false_iff_ne.2 hkl
      simp [hb]

/-- A register's lane once a lane has been cleared. -/
theorem Crew.lane_clearLane (c : Crew) (k : Nat) (st : LaneState) {r l : Nat} (hr : r < 64) (hl : l < 32) :
    (c.clearLane k st).lane r l =
      if l = k then { st := if (c.lane r l).st = .live then st else (c.lane r l).st } else c.lane r l := by
  unfold Crew.clearLane
  rw [Crew.lane_eq, Crew.lane_eq, Crew.reg_onRegs _ _ hr]
  by_cases h0 : r = 0
  · subst h0
    simp
  · rw [if_neg h0]
    cases c.reg r with
    | none => simp
    | some p =>
      simp only [Option.map_some, Option.getD_some, PReg.lane_settle, PReg.lane_onLanes _ _ hl]

/-- A cleared lane reads as 0 in every register. -/
theorem Crew.rd_clearLane (c : Crew) (st : LaneState) {r l : Nat} (hr : r < 64) (hl : l < 32) : (c.clearLane l st).rd r l = 0 := by
  rw [Crew.rd, Crew.lane_clearLane c l st hr hl, if_pos rfl]
  exact ite_self (0 : Word)

theorem Crew.lane_departLane_ne (c : Crew) {k r l : Nat} (hr : r < 64) (hl : l < 32) (hne : l ≠ k) : (c.departLane k).lane r l = c.lane r l := by
  rw [Crew.departLane, Crew.lane_clearLane _ _ _ hr hl, if_neg hne, Crew.departs_frame]
  rfl

theorem Crew.lane_departLanes (ls : List Nat) (c : Crew) {r l : Nat} (hr : r < 64) (hl : l < 32) (hmem : l ∉ ls) :
    (ls.foldl Crew.departLane c).lane r l = c.lane r l := by
  induction ls generalizing c with
  | nil => rfl
  | cons k ls ih =>
    obtain ⟨hk, hls⟩ := not_or.1 (mt List.mem_cons.2 hmem)
    rw [List.foldl_cons, ih _ hls, Crew.lane_departLane_ne c hr hl hk]

theorem Crew.rd_departLanes (ls : List Nat) (c : Crew) {r l : Nat} (hr : r < 64) (hl : l < 32) (hmem : l ∈ ls) :
    (ls.foldl Crew.departLane c).rd r l = 0 := by
  induction ls generalizing c with
  | nil => exact absurd hmem List.not_mem_nil
  | cons k ls ih =>
    rw [List.foldl_cons]
    by_cases hls : l ∈ ls
    · exact ih _ hls
    · obtain rfl := (List.mem_cons.1 hmem).resolve_right hls
      rw [Crew.rd, Crew.lane_departLanes ls _ hr hl hls]
      exact Crew.rd_clearLane _ _ hr hl

/-! ### The ended threads -/

/-- A thread that has ended (R20). -/
def Thread.ended (t : Thread) : Thread := { t with state := .exited, stack := [], halted := false, trap := none }

/-- Lanes of a crew end. -/
def Crew.endLanes (c : Crew) (ls : List Nat) : Crew := ls.foldl (fun c l => c.setThr l (c.thr l).ended) c

theorem Crew.endLanes_frame (ls : List Nat) (c : Crew) : c.endLanes ls = { c with threads := (c.endLanes ls).threads } := by
  unfold Crew.endLanes
  induction ls generalizing c with
  | nil => rfl
  | cons l ls ih => rw [List.foldl_cons, ih]; rfl

theorem Crew.thr_endLanes (ls : List Nat) (c : Crew) {k : Nat} (hk : k < 32) :
    (c.endLanes ls).thr k = if k ∈ ls then (c.thr k).ended else c.thr k := by
  unfold Crew.endLanes
  induction ls generalizing c with
  | nil => rfl
  | cons l ls ih =>
    rw [List.foldl_cons, ih, Crew.thr_setThr _ _ _ hk]
    by_cases hkl : k = l
    · subst hkl
      rw [if_pos rfl, if_pos List.mem_cons_self]
      split <;> rfl
    · simp [hkl]

/-- A list that holds every thread of a crew, once one of them has been replaced. -/
theorem Crew.threads_endLanes {ls : List Nat} (hne : ls ≠ []) (c : Crew) :
    (c.endLanes ls).threads = laneList.map fun l => (c.endLanes ls).thr l := by
  unfold Crew.endLanes
  induction ls generalizing c with
  | nil => exact absurd rfl hne
  | cons l ls ih =>
    rw [List.foldl_cons]
    cases ls with
    | nil =>
      refine List.map_congr_left fun k hk => ?_
      exact (Crew.thr_setThr c l _ ((mem_laneList k).1 hk)).symm
    | cons j ls => exact ih (List.cons_ne_nil j ls) _

theorem Crew.dropLanes_frame (c : Crew) (m : Mask) : c.dropLanes m = { c with rob := (c.dropLanes m).rob } := by
  unfold Crew.dropLanes
  split <;> rfl

/-- The crew of an EXIT as the rules have it, before its meetings are settled (R20, R27): the lanes of G have ended, departed from their meetings and
wait at none. -/
def State.exitedCrew (s : State) : Crew := { s.curCrew with
  meetings := s.curCrew.meetings.map fun x => { x with
    dep := x.dep ||| maskOf fun l => s.inG l && (s.thrAt l).stack.contains x.id
    wait := x.wait &&& maskOf fun l => !s.inG l && (s.thrAt l).isLive }
  threads := laneList.map fun l => if s.inG l then (s.thrAt l).ended else s.thrAt l }

/-- The crew that the end of the lanes of G leaves, before its meetings are settled. -/
def State.endedCrew (s : State) : Crew :=
  (((s.curCrew |> (lanesOf s.active).foldl Crew.departLane).endLanes (lanesOf s.active)).dropLanes s.active).unwait

theorem State.mem_active (s : State) (l : Nat) : l ∈ lanesOf s.active ↔ s.inG l = true := mem_lanesOf s.active l

theorem State.lanesOf_active_ne_nil {s : State} (h : s.active ≠ 0) : lanesOf s.active ≠ [] := by
  intro he
  refine h (BitVec.eq_of_getLsbD_eq fun l _ => ?_)
  refine (Bool.eq_false_iff.2 fun hl => ?_).trans BitVec.getLsbD_zero.symm
  have hmem := (mem_lanesOf s.active l).2 hl
  rw [he] at hmem
  cases hmem

/-- The lanes of G have departed and ended; what they had issued is not dropped yet. -/
def State.endingCrew (s : State) : Crew := ((lanesOf s.active).foldl Crew.departLane s.curCrew).endLanes (lanesOf s.active)

theorem State.endedCrew_frame (s : State) : s.endedCrew = { s.curCrew with
    threads := s.endedCrew.threads, meetings := s.endedCrew.meetings, map := s.endedCrew.map, rob := s.endedCrew.rob } := by
  have he : s.endedCrew = (s.endingCrew.dropLanes s.active).unwait := rfl
  rw [he, Crew.unwait, Crew.dropLanes_frame, State.endingCrew, Crew.endLanes_frame, Crew.departLanes_frame]

theorem State.threads_endedCrew (s : State) : s.endedCrew.threads = s.endingCrew.threads := by
  show (s.endingCrew.dropLanes s.active).threads = _
  rw [Crew.dropLanes_frame]

theorem State.thr_endingCrew (s : State) {l : Nat} (hl : l < 32) :
    s.endingCrew.thr l = if s.inG l then (s.thrAt l).ended else s.thrAt l := by
  rw [State.endingCrew, Crew.thr_endLanes _ _ hl, if_congr (s.mem_active l) rfl rfl, Crew.departLanes_frame]
  rfl

theorem State.thr_endedCrew (s : State) {l : Nat} (hl : l < 32) :
    s.endedCrew.thr l = if s.inG l then (s.thrAt l).ended else s.thrAt l := by
  rw [← s.thr_endingCrew hl, Crew.thr, State.threads_endedCrew]
  rfl

theorem maskOf_congr {f g : Nat → Bool} (h : ∀ l, l < 32 → f l = g l) : maskOf f = maskOf g :=
  BitVec.eq_of_getLsbD_eq fun l hl => by rw [getLsbD_maskOf, getLsbD_maskOf, h l hl]

theorem State.meetings_endedCrew (s : State) : s.endedCrew.meetings = s.exitedCrew.meetings := by
  have hend : s.endedCrew.meetings = s.endingCrew.meetings.map fun x =>
      { x with wait := x.wait &&& maskOf fun l => ((s.endingCrew.dropLanes s.active).thr l).state != .exited } := by
    show (s.endingCrew.dropLanes s.active).unwait.meetings = _
    rw [Crew.unwait, Crew.dropLanes_frame]
  have hlive : (maskOf fun l => ((s.endingCrew.dropLanes s.active).thr l).state != .exited) = maskOf fun l => !s.inG l && (s.thrAt l).isLive :=
    maskOf_congr fun l hl => by
      have hthr : (s.endingCrew.dropLanes s.active).thr l = s.endingCrew.thr l := by rw [Crew.dropLanes_frame]; rfl
      rw [hthr, s.thr_endingCrew hl]
      cases s.inG l <;> rfl
  have hdep : ∀ id, s.curCrew.departing (lanesOf s.active) id = maskOf fun l => s.inG l && (s.thrAt l).stack.contains id := fun id =>
    maskOf_congr fun l _ => by
      have hc : (lanesOf s.active).contains l = s.inG l := Bool.eq_iff_iff.2 (List.contains_iff_mem.trans (s.mem_active l))
      rw [hc]
      rfl
  rw [hend, hlive, State.endingCrew, Crew.endLanes_frame]
  dsimp only
  rw [Crew.meetings_departLanes, List.map_map]
  refine List.map_congr_left fun x _ => ?_
  dsimp only [Function.comp_apply]
  rw [hdep]

/-- What the end of the lanes of G leaves is the crew of the rules, but for its registers and its reorder buffer. -/
theorem State.endedCrew_eq {s : State} (h : s.active ≠ 0) :
    s.endedCrew = { s.exitedCrew with map := s.endedCrew.map, rob := s.endedCrew.rob } := by
  have hthreads : s.endedCrew.threads = s.exitedCrew.threads := by
    rw [State.threads_endedCrew, State.endingCrew, Crew.threads_endLanes (State.lanesOf_active_ne_nil h)]
    exact List.map_congr_left fun l hl => s.thr_endingCrew ((mem_laneList l).1 hl)
  rw [State.endedCrew_frame, hthreads, State.meetings_endedCrew]
  rfl

theorem State.lane_endedCrew (s : State) (r l : Nat) :
    s.endedCrew.lane r l = ((lanesOf s.active).foldl Crew.departLane s.curCrew).lane r l := by
  show (s.endingCrew.dropLanes s.active).lane r l = _
  rw [Crew.dropLanes_frame, State.endingCrew, Crew.endLanes_frame]
  rfl

/-- No lane of G waits at a meeting. -/
theorem State.awake_exitedCrew {s : State} {l : Nat} (hl : s.inG l = true) : s.exitedCrew.Awake l := by
  intro m hm
  obtain ⟨x, -, rfl⟩ := List.mem_map.1 hm
  dsimp only
  rw [BitVec.getLsbD_and, getLsbD_maskOf, hl]
  simp

/-! ### Threads that leave their herds (R31) -/

theorem State.releases_onBarrier (s : State) (lid h : Nat) (f : Barrier → Barrier) : Releases s (s.onBarrier lid h f) lid where
  rest := rfl
  crew _ := rfl
  others _ _ := rfl
  threads _ _ _ := .inl rfl
  launch := State.launch_onBarrier _ _ _ _
  launches _ hn := State.launch_onBarrier_ne _ _ _ hn

/-- A thread leaves the herds of a list. -/
def State.leaveAll (s : State) (lid : Nat) (tid : Word) (hs : List Nat) : State :=
  hs.foldl (fun s h => s.onBarrier lid h fun b => b.leave tid) s

theorem State.releases_leaveAll (lid : Nat) (tid : Word) (hs : List Nat) (s : State) : Releases s (s.leaveAll lid tid hs) lid := by
  unfold State.leaveAll
  induction hs generalizing s with
  | nil => exact Releases.refl s lid
  | cons h hs ih => exact (s.releases_onBarrier lid h _).trans (ih _)

/-- The TIDs that leave a barrier, of a list of threads, once for each place in which a thread names its herd. -/
def leavers (ts : List Thread) (h : Nat) : List Word := ts.flatMap fun u => (u.herdList.filter (· == h)).map fun _ => u.tid

theorem leavers_cons (t : Thread) (ts : List Thread) (h : Nat) :
    leavers (t :: ts) h = ((t.herdList.filter (· == h)).map fun _ => t.tid) ++ leavers ts h := List.flatMap_cons

theorem State.barrier_leaveAll (lid : Nat) (tid : Word) (x : Nat) (hs : List Nat) (s : State) :
    ((s.leaveAll lid tid hs).launch lid).barrier x =
      ((hs.filter (· == x)).map fun _ => tid).foldl Barrier.leave ((s.launch lid).barrier x) := by
  unfold State.leaveAll
  induction hs generalizing s with
  | nil => rfl
  | cons h hs ih =>
    rw [List.foldl_cons, ih, State.barrier_onBarrier, List.filter_cons]
    by_cases hx : h = x
    · subst hx; simp
    · have hx' : x ≠ h := fun e => hx e.symm
      simp [hx, hx']

/-- Threads leave their herds, before a phase is tested (R31). -/
def State.departHerds (s : State) (lid : Nat) (ts : List Thread) : State := ts.foldl (fun s t => s.leaveAll lid t.tid t.herdList) s

theorem State.releases_departHerds (lid : Nat) (ts : List Thread) (s : State) : Releases s (s.departHerds lid ts) lid := by
  unfold State.departHerds
  induction ts generalizing s with
  | nil => exact Releases.refl s lid
  | cons t ts ih => exact (s.releases_leaveAll lid _ _).trans (ih _)

theorem State.barrier_departHerds (lid x : Nat) (ts : List Thread) (s : State) :
    ((s.departHerds lid ts).launch lid).barrier x = (leavers ts x).foldl Barrier.leave ((s.launch lid).barrier x) := by
  unfold State.departHerds
  induction ts generalizing s with
  | nil => rfl
  | cons t ts ih => rw [List.foldl_cons, ih, State.barrier_leaveAll, leavers_cons, List.foldl_append]

theorem State.leaveHerds_eq (s : State) (lid : Nat) (ts : List Thread) :
    s.leaveHerds lid ts = (ts.flatMap Thread.herdList).dedup.foldl (fun s h => s.settleBarrier lid h 2) (s.departHerds lid ts) := rfl

theorem State.releases_leaveHerds (s : State) (lid : Nat) (ts : List Thread) : Releases s (s.leaveHerds lid ts) lid :=
  (s.releases_departHerds lid ts).trans (State.releases_settleBarriers lid _ _)

/-- Each barrier of a list is settled once. -/
theorem State.barrier_settleBarriers (lid x : Nat) {hs : List Nat} (hnd : hs.Nodup) (s : State) :
    ((hs.foldl (fun s h => s.settleBarrier lid h 2) s).launch lid).barrier x =
      if x ∈ hs then ((s.launch lid).barrier x).settled else (s.launch lid).barrier x := by
  induction hs generalizing s with
  | nil => rfl
  | cons h hs ih =>
    obtain ⟨hh, hnd'⟩ := List.nodup_cons.1 hnd
    rw [List.foldl_cons, ih hnd', State.barrier_settleBarrier]
    by_cases hx : x = h
    · subst hx
      rw [if_neg hh, if_pos rfl, if_pos List.mem_cons_self]
    · simp [hx]

/-- The barriers once the threads have left and the phases have been tested. -/
theorem State.barrier_leaveHerds (s : State) (lid : Nat) (ts : List Thread) (x : Nat) :
    ((s.leaveHerds lid ts).launch lid).barrier x =
      if (ts.any fun u => u.herdList.contains x) then ((leavers ts x).foldl Barrier.leave ((s.launch lid).barrier x)).settled
      else (s.launch lid).barrier x := by
  rw [State.leaveHerds_eq, State.barrier_settleBarriers lid x (List.nodup_dedup _), State.barrier_departHerds]
  have hmem : x ∈ (ts.flatMap Thread.herdList).dedup ↔ (ts.any fun u => u.herdList.contains x) = true := by
    rw [List.mem_dedup, List.mem_flatMap, List.any_eq_true]
    simp only [List.contains_iff_mem]
  rw [if_congr hmem rfl rfl]
  split
  · rfl
  · next hany =>
    have hnone : leavers ts x = [] := by
      refine List.flatMap_eq_nil_iff.2 fun u hu => ?_
      rw [List.map_eq_nil_iff, List.filter_eq_nil_iff]
      intro h hh he
      exact hany (List.any_eq_true.2 ⟨u, hu, List.contains_iff_mem.2 (eq_of_beq he ▸ hh)⟩)
    rw [hnone]
    rfl

end
end Sys2Proof.Machine

namespace Sys2Proof.Machine

section

/-! ### An instruction whose retirement may be its crew's last (R20, R61) -/

/-- An instruction without a destination that can execute at once runs its body once and commits what the body says. -/
theorem State.issue_commits {s b : State} {o : Operands} {body : State → Mask → Body} {es : List Eff} {eff : Nat → Eff}
    (hp : s.poised o = true) (ha : s.active ≠ 0) (hbody : body s s.active = .done b es)
    (hes : ∀ l, s.inG l = true → es.getD l {} = eff l) (hdst : o.dst = []) :
    ∃ (b1 : State) (eff' : Nat → Eff), s.issue o body = b1.commit o s.active eff' (maskOf (s.readsDead o)) s.cur.fresh ∧
      (∀ l, s.inG l = true → eff' l = eff l) ∧ b1 = { b with cores := b1.cores } := by
  obtain ⟨hst, hhead, hp0, hspill, hpre⟩ := State.poised_spec hp
  obtain ⟨hcore, -⟩ := State.standing_spec hst
  obtain ⟨hiss, -⟩ := (State.issue_atHead hhead body).resolve_right fun h => h hcore
  have hself : s.crew s.cur.crew = s.curCrew := rfl
  have hguard : (s.crew s.cur.crew).guarded s.cur = s.active := rfl
  have hread : (maskOf fun l => s.active.getLsbD l &&
      (s.curCrew.readTrap ((s.launch s.curCrew.launch).control.getLsbD 7) (o.srcsAt l) (o.laneOf l)).isNone) = s.active :=
    BitVec.eq_of_getLsbD_eq fun l hl => by
      rw [getLsbD_maskOf, decide_eq_true hl, Bool.true_and]
      cases hG : s.active.getLsbD l with
      | false => rfl
      | true =>
        have hnone : s.curCrew.readTrap ((s.launch s.curCrew.launch).control.getLsbD 7) (o.srcsAt l) (o.laneOf l) = none := hpre l hG
        rw [hnone]
        rfl
  have hallocs : o.allocs = 0 := by rw [Operands.allocs, hdst]; rfl
  have hmay : ∀ b : State, b.mayAllocate s.cur.crew (o.allocs - s.drawn.length) = true := fun b => by rw [hallocs, Nat.zero_sub]; rfl
  refine ⟨if s.cur.entry then b else b.takeBanks (s.curCrew.core.getD s.curCrew.lastCore) (o.banks s.curCrew),
    effOf (fun l => s.curCrew.readTrap ((s.launch s.curCrew.launch).control.getLsbD 7) (o.srcsAt l) (o.laneOf l)) es,
    hiss.trans ?_, fun l hl => ?_, ?_⟩
  · unfold State.executeHead
    dsimp only
    rw [hguard, hself, hp0]
    simp only [bne_self_eq_false, Bool.false_eq_true, if_false]
    rw [if_neg ha, hspill ha]
    dsimp only
    rw [hread, if_neg ha, hbody]
    dsimp only
    rw [hmay b, Bool.not_true, Bool.and_false, if_neg Bool.false_ne_true]
    rfl
  · have hnone : s.curCrew.readTrap ((s.launch s.curCrew.launch).control.getLsbD 7) (o.srcsAt l) (o.laneOf l) = none := hpre l hl
    unfold effOf
    dsimp only
    rw [hnone]
    exact hes l hl
  · split <;> rfl

/-- Without a trap nothing is recorded. -/
theorem State.takeTraps_none (crew : Nat) (pc next : Dword) {why : Nat → Option (Word × Dword)} (h : ∀ l, why l = none) (ls : List Nat) (s : State) :
    s.takeTraps crew pc next why ls = s := by
  induction ls with
  | nil => rfl
  | cons l ls ih => rw [State.takeTraps, h l]; exact ih

theorem retireThread_state {t : Thread} {e : Eff} (he : e.thr = none) (dead fresh : Bool) (next : Dword) (cycle : Nat) :
    (retireThread t e dead fresh next cycle).state = t.state := by
  unfold retireThread
  rw [he]
  cases e.cc <;> cases fresh <;> rfl

/-- A crew that has retired an instruction: only its threads, in their states, its registers, its buffer and its counts have changed. -/
structure Crew.Retired (c d : Crew) : Prop where
  frame : d = { c with threads := d.threads, map := d.map, rob := d.rob, issued := d.issued, retired := d.retired, visible := d.visible }
  states : ∀ l, l < 32 → (d.thr l).state = (c.thr l).state

/-- The crew that a retirement without a destination leaves. -/
def State.retiredCrew (s : State) (o : Operands) (g : Mask) (eff : Nat → Eff) (rlsd : Mask) (fresh : Bool) : Crew :=
  retireCounts s.cur (s.cycleOf s.cur.crew) o g eff (retireReads s.cur (s.cycleOf s.cur.crew) o (g &&& ~~~ trapMask g eff)
    (retireThreads s.cur (s.cycleOf s.cur.crew) g eff rlsd fresh { s.crew s.cur.crew with rob := (s.crew s.cur.crew).behind s.cur }))

theorem State.retired_retiredCrew {s : State} {o : Operands} {g : Mask} {eff : Nat → Eff}
    (htrap : ∀ l, g.getLsbD l = true → (eff l).trap = none) (hthr : ∀ l, g.getLsbD l = true → (eff l).thr = none) (rlsd : Mask) (fresh : Bool) :
    (s.crew s.cur.crew).Retired (s.retiredCrew o g eff rlsd fresh) := by
  have hmask : trapMask g eff = 0 := maskOf_eq_zero fun l _ => by
    cases hG : g.getLsbD l with
    | false => rfl
    | true => rw [htrap l hG]; rfl
  unfold State.retiredCrew
  obtain ⟨hframe1, hthr1⟩ := retireThreads_spec s.cur (s.cycleOf s.cur.crew) g eff rlsd fresh
    { s.crew s.cur.crew with rob := (s.crew s.cur.crew).behind s.cur }
  generalize retireThreads s.cur (s.cycleOf s.cur.crew) g eff rlsd fresh
    { s.crew s.cur.crew with rob := (s.crew s.cur.crew).behind s.cur } = c1 at hframe1 hthr1 ⊢
  obtain ⟨hframe2, -⟩ := retireReads_spec s.cur (s.cycleOf s.cur.crew) o (g &&& ~~~ trapMask g eff) c1
  generalize retireReads s.cur (s.cycleOf s.cur.crew) o (g &&& ~~~ trapMask g eff) c1 = c2 at hframe2 ⊢
  obtain ⟨hframe3, -, hthr3⟩ := retireCounts_spec s.cur (s.cycleOf s.cur.crew) o g eff c2
  generalize retireCounts s.cur (s.cycleOf s.cur.crew) o g eff c2 = c3 at hframe3 hthr3 ⊢
  refine ⟨by rw [hframe3, hframe2, hframe1], fun l hl => ?_⟩
  have hthr2 : c2.thr l = c1.thr l := by rw [hframe2]; rfl
  rw [hthr3 l hl, if_neg fun h => h.1 hmask, hthr2, hthr1 l hl]
  have hno : (g.getLsbD l && (eff l).trap.isSome) = false := by
    cases hG : g.getLsbD l with
    | false => rfl
    | true => rw [htrap l hG]; rfl
  rw [hno, if_neg Bool.false_ne_true]
  split
  · rw [retireThread_state]
    · rfl
    · split
      · next hG => exact hthr l hG
      · rfl
  · rfl

/-- What a retirement without traps and without a destination leaves, before its crew leaves the core if it is done. -/
def State.retired (s : State) (o : Operands) (g : Mask) (eff : Nat → Eff) (rlsd : Mask) (fresh : Bool) : State :=
  let c := s.retiredCrew o g eff rlsd fresh
  let t := (s.setCrew s.cur.crew { s.crew s.cur.crew with rob := (s.crew s.cur.crew).behind s.cur }).setCrew s.cur.crew c
  (if s.cur.entry then t else t.account c.lastCore s.cur.crew s.cur.pays).settleCore c.lastCore

theorem State.commit_eq_retired {s : State} {o : Operands} {g : Mask} {eff : Nat → Eff} (hdst : o.dst = [])
    (htrap : ∀ l, g.getLsbD l = true → (eff l).trap = none) (rlsd : Mask) (fresh : Bool) :
    s.commit o g eff rlsd fresh = (s.retired o g eff rlsd fresh).leaveIfDone s.cur.crew := by
  have hwhy : ∀ l, (if g.getLsbD l then (eff l).trap else none) = none := fun l => by
    split
    · next hG => exact htrap l hG
    · rfl
  have hregs : ∀ (b : State) (v : Nat → Nat → Lane), b.writeRegs s.cur.crew (writeMask g eff) v o.dst 0 s.drawn = b := fun b v => by
    rw [hdst]; rfl
  rw [State.commit_eq]
  dsimp only
  rw [hregs, State.takeTraps_none _ _ _ hwhy, State.crew_setCrew]
  rfl

theorem State.crew_retired (s : State) (o : Operands) (g : Mask) (eff : Nat → Eff) (rlsd : Mask) (fresh : Bool) (k : Nat) :
    (s.retired o g eff rlsd fresh).crew k = if k = s.cur.crew then s.retiredCrew o g eff rlsd fresh else s.crew k := by
  have hpart : ∀ b : State, (b.setCrew s.cur.crew (s.retiredCrew o g eff rlsd fresh)).crew k =
      if k = s.cur.crew then s.retiredCrew o g eff rlsd fresh else b.crew k := fun b => tget_tset _ _ _ _ _
  unfold State.retired
  dsimp only
  rw [State.crew_settleCore]
  split
  · rw [hpart]
    split
    · rfl
    · next hk => exact State.crew_setCrew_ne _ _ hk
  · show ((State.setCrew _ s.cur.crew _).crew k) = _
    rw [hpart]
    split
    · rfl
    · next hk => exact State.crew_setCrew_ne _ _ hk

theorem State.retired_rest (s : State) (o : Operands) (g : Mask) (eff : Nat → Eff) (rlsd : Mask) (fresh : Bool) :
    s.retired o g eff rlsd fresh =
      { s with crews := (s.retired o g eff rlsd fresh).crews, cores := (s.retired o g eff rlsd fresh).cores } := by
  unfold State.retired
  dsimp only
  rw [State.settleCore_spec]
  split <;> rfl

/-! ### A crew leaves its core for the last time (R20, R261) -/

theorem length_leBytes (n x : Nat) : (leBytes n x).length = n := by
  induction n generalizing x with
  | zero => rfl
  | succ n ih => rw [leBytes, List.length_cons, ih]

theorem CrewRec.length_bytes (r : CrewRec) : r.bytes.length = 128 := by
  have hflat : ((List.range 16).flatMap fun k => leBytes 4 (r.stalls.getD k 0)).length = 64 := by
    rw [List.length_flatMap, List.map_congr_left fun k _ => length_leBytes 4 (r.stalls.getD k 0)]
    rfl
  simp only [CrewRec.bytes, JName.bytes, List.length_append, length_leBytes, hflat]

theorem State.leaveQueue_spec (s : State) (k : Nat) : s.leaveQueue k = { s with clusters := (s.leaveQueue k).clusters } := by
  unfold State.leaveQueue
  dsimp only
  split <;> rfl

/-- The launch of a crew that has left takes the crew's record and its areas. -/
def State.launchLeft (s : State) (c : Crew) : Launch :=
  { s.launch c.launch with
    trace := if c.admitSeq.isSome then (s.launch c.launch).trace ++ [(s.crewRecord c).bytes] else (s.launch c.launch).trace
    areas := c.area.toList ++ (s.launch c.launch).areas }

/-- What is left of a crew that has left its core for the last time. -/
def Crew.done (c : Crew) : Crew := { c with gone := true, core := none, map := List.replicate 64 none, meetings := [], rob := [], area := none }

theorem State.crewLeaves_eq {s : State} {k : Nat} (h : (s.crew k).gone = false) :
    s.crewLeaves k =
      ((((s.setLaunch (s.crew k).launch (s.launchLeft (s.crew k))).leaveQueue k).setCrew k (s.crew k).done).settleCore
        (s.crew k).lastCore).settleCore ((s.crew k).chosen.getD (s.crew k).lastCore) := by
  unfold State.crewLeaves
  dsimp only
  rw [h, if_neg Bool.false_ne_true]
  rfl

/-- A crew that leaves replaces one crew and one launch, and what its clusters and cores hold. -/
theorem State.crewLeaves_with {s : State} {k : Nat} (h : (s.crew k).gone = false) : ∃ x y, s.crewLeaves k = { s with
    crews := tset s.crews k (s.crew k).done, launches := tset s.launches (s.crew k).launch (s.launchLeft (s.crew k)), clusters := x, cores := y } := by
  obtain ⟨x, hx⟩ : ∃ x, (s.setLaunch (s.crew k).launch (s.launchLeft (s.crew k))).leaveQueue k =
      { s.setLaunch (s.crew k).launch (s.launchLeft (s.crew k)) with clusters := x } := ⟨_, State.leaveQueue_spec _ _⟩
  have hsettle : ∀ (u : State) n, ∃ y, u.settleCore n = { u with cores := y } := fun u n => ⟨_, State.settleCore_spec u n⟩
  rw [State.crewLeaves_eq h, hx]
  obtain ⟨y, hy⟩ := hsettle (({ s.setLaunch (s.crew k).launch (s.launchLeft (s.crew k)) with clusters := x } : State).setCrew k (s.crew k).done)
    (s.crew k).lastCore
  rw [hy]
  obtain ⟨z, hz⟩ := hsettle { ({ s.setLaunch (s.crew k).launch (s.launchLeft (s.crew k)) with clusters := x } : State).setCrew k (s.crew k).done
    with cores := y } ((s.crew k).chosen.getD (s.crew k).lastCore)
  exact ⟨x, z, hz⟩

theorem State.crew_crewLeaves {s : State} {k : Nat} (h : (s.crew k).gone = false) (j : Nat) :
    (s.crewLeaves k).crew j = if j = k then (s.crew k).done else s.crew j := by
  obtain ⟨x, y, he⟩ := State.crewLeaves_with h
  rw [he]
  exact tget_tset {} (s.crew k).done s.crews k j

theorem State.launch_crewLeaves {s : State} {k : Nat} (h : (s.crew k).gone = false) (n : Nat) :
    (s.crewLeaves k).launch n = if n = (s.crew k).launch then s.launchLeft (s.crew k) else s.launch n := by
  obtain ⟨x, y, he⟩ := State.crewLeaves_with h
  rw [he]
  exact tget_tset {} (s.launchLeft (s.crew k)) s.launches (s.crew k).launch n

/-- An instruction after which no lane of its crew lives on, and which takes no trap: the crew retires it and leaves its core for the last time. -/
theorem State.issue_leaves {s b : State} {o : Operands} {body : State → Mask → Body} {es : List Eff} {eff : Nat → Eff}
    (hp : s.poised o = true) (ha : s.active ≠ 0) (hbody : body s s.active = .done b es)
    (hes : ∀ l, s.inG l = true → es.getD l {} = eff l) (hdst : o.dst = []) (htrap : ∀ l, s.inG l = true → (eff l).trap = none)
    (hthr : ∀ l, s.inG l = true → (eff l).thr = none) (hcur : b.cur = s.cur) (hdone : (b.crew s.cur.crew).allExited = true) :
    ∃ u : State, s.issue o body = u.crewLeaves s.cur.crew ∧ u = { b with crews := u.crews, cores := u.cores } ∧
      (∀ k, k ≠ s.cur.crew → u.crew k = b.crew k) ∧ (b.crew s.cur.crew).Retired (u.crew s.cur.crew) := by
  obtain ⟨b1, eff', hissue, heff, hb1⟩ := State.issue_commits hp ha hbody hes hdst
  have htrap' : ∀ l, s.active.getLsbD l = true → (eff' l).trap = none := fun l hl => by rw [heff l hl]; exact htrap l hl
  have hthr' : ∀ l, s.active.getLsbD l = true → (eff' l).thr = none := fun l hl => by rw [heff l hl]; exact hthr l hl
  have hcrew : ∀ k, b1.crew k = b.crew k := fun k => by rw [hb1]; rfl
  have hcur1 : b1.cur = s.cur := by rw [hb1]; exact hcur
  have hret := State.retired_retiredCrew (s := b1) (o := o) htrap' hthr' (maskOf (s.readsDead o)) s.cur.fresh
  rw [State.commit_eq_retired hdst htrap'] at hissue
  have hcrews := State.crew_retired b1 o s.active eff' (maskOf (s.readsDead o)) s.cur.fresh
  have hrest := State.retired_rest b1 o s.active eff' (maskOf (s.readsDead o)) s.cur.fresh
  generalize b1.retired o s.active eff' (maskOf (s.readsDead o)) s.cur.fresh = u at hissue hcrews hrest
  rw [hcur1] at hissue hcrews hret
  have hself := hcrews s.cur.crew
  rw [if_pos rfl] at hself
  rw [← hself, hcrew] at hret
  have hall : (u.crew s.cur.crew).allExited = true := List.all_eq_true.2 fun l hl => by
    have hlane := List.all_eq_true.1 hdone l hl
    rw [Thread.isLive] at hlane ⊢
    rwa [hret.states l ((mem_laneList l).1 hl)]
  rw [State.leaveIfDone, if_pos hall] at hissue
  refine ⟨u, hissue, ?_, fun k hk => by rw [hcrews, if_neg hk, hcrew], hret⟩
  rw [hrest, hb1]

/-- What the launch of a crew that leaves for the last time takes of it depends on what the crew keeps in a retirement. -/
theorem State.launchLeft_of_retired {s u : State} {c d : Crew} (h : c.Retired d) (hl : u.launch c.launch = s.launch c.launch) :
    ∃ r, r.length = 128 ∧ u.launchLeft d = { s.launch c.launch with
      trace := (s.launch c.launch).trace ++ (if c.admitSeq.isSome then [r] else []), areas := c.area.toList ++ (s.launch c.launch).areas } := by
  refine ⟨(u.crewRecord d).bytes, CrewRec.length_bytes _, ?_⟩
  have hlaunch : d.launch = c.launch := by rw [h.frame]
  have hseq : d.admitSeq = c.admitSeq := by rw [h.frame]
  have harea : d.area = c.area := by rw [h.frame]
  rw [State.launchLeft, hlaunch, hl, hseq, harea]
  split
  · rfl
  · rw [List.append_nil]

end
end Sys2Proof.Machine

namespace Sys2Proof.Machine

section

/-! ### EXIT and YIELD (R20, R21, R27, R31, R107, R261, R302, R368) -/

theorem State.launches_settleCore (s : State) (n : Nat) : (s.settleCore n).launches = s.launches := by
  rw [State.settleCore_spec]

theorem State.launch_settleCore (s : State) (n k : Nat) : (s.settleCore n).launch k = s.launch k := by
  rw [State.launch, State.launches_settleCore]
  rfl

/-- The threads of the lanes of G. -/
def State.groupThreads (s : State) : List Thread := (lanesOf s.active).map s.thrAt

/-- The issuing crew after its lanes of G have ended and its meetings are settled. -/
def State.exitCrew (s : State) : Crew := s.endedCrew.settleMeetings (s.cycleOf s.cur.crew)

/-- The lanes of G have also left their herds. -/
def State.exitHerds (s : State) : State := (s.setCur s.exitCrew).leaveHerds s.curCrew.launch s.groupThreads

/-- What the end of the lanes of G leaves: their windows are free, and the core is settled. -/
@[irreducible] def State.exited (s : State) : State := (s.exitHerds.freeWindows s.curCrew.launch s.groupThreads).settleCore s.curCore

theorem State.endThreads_eq {s : State} (hs : s.standing = true) : s.endThreads s.cur.crew s.active = s.exited := by
  obtain ⟨-, -, hready, -⟩ := State.standing_spec hs
  have hls : (lanesOf s.active).filter (fun l => ((s.crew s.cur.crew).thr l).isLive) = lanesOf s.active := by
    refine List.filter_eq_self.2 fun l hl => ?_
    have hst : ((s.crew s.cur.crew).thr l).state = .ready := hready l (State.inG_inGroup ((s.mem_active l).1 hl))
    rw [Thread.isLive, hst]
    rfl
  unfold State.endThreads
  dsimp only
  rw [hls, State.exited]
  rfl

theorem State.exitCrew_eq {s : State} (h : s.active ≠ 0) : s.exitCrew =
    { s.exitedCrew.settleMeetings (s.cycleOf s.cur.crew) with map := s.endedCrew.map, rob := s.endedCrew.rob } := by
  rw [State.exitCrew, State.endedCrew_eq h, Crew.settleMeetings_with]

theorem State.exitCrew_frame (s : State) : s.exitCrew = { s.curCrew with
    threads := s.exitCrew.threads, meetings := s.exitCrew.meetings, map := s.endedCrew.map, rob := s.endedCrew.rob } := by
  have hf : s.exitCrew = { s.endedCrew with threads := s.exitCrew.threads, meetings := s.exitCrew.meetings } :=
    s.endedCrew.settleMeetings_frame _
  conv_lhs => rw [hf, State.endedCrew_frame]

theorem State.crew_setCur_ne (s : State) (c : Crew) {k : Nat} (hk : k ≠ s.cur.crew) : (s.setCur c).crew k = s.crew k :=
  State.crew_setCrew_ne _ _ hk

theorem State.crew_setCur_self (s : State) (c : Crew) : (s.setCur c).crew s.cur.crew = c := State.crew_setCrew _ _ _

theorem State.cycleOf_setCur_exitCrew (s : State) (k : Nat) : (s.setCur s.exitCrew).cycleOf k = s.cycleOf k := by
  unfold State.cycleOf
  by_cases hk : k = s.cur.crew
  · rw [hk, State.crew_setCur_self, State.exitCrew_frame]; rfl
  · rw [State.crew_setCur_ne _ _ hk]; rfl

theorem State.releases_exitHerds (s : State) : Releases (s.setCur s.exitCrew) s.exitHerds s.curCrew.launch := State.releases_leaveHerds _ _ _

theorem State.crew_exited (s : State) (k : Nat) : s.exited.crew k = s.exitHerds.crew k := by
  rw [State.exited, State.crew_settleCore]
  rfl

theorem State.launch_exited (s : State) (n : Nat) :
    s.exited.launch n = (s.exitHerds.freeWindows s.curCrew.launch s.groupThreads).launch n := by
  rw [State.exited, State.launch_settleCore]

theorem State.launch_exited_ne (s : State) {n : Nat} (hn : n ≠ s.curCrew.launch) : s.exited.launch n = s.launch n := by
  rw [State.launch_exited, State.freeWindows, State.launch_setLaunch_ne _ _ hn, s.releases_exitHerds.launches n hn]
  rfl

theorem State.core_freeWindows (s : State) (lid n : Nat) (ts : List Thread) : (s.freeWindows lid ts).core n = s.core n := rfl

theorem State.core_exited_ne (s : State) {n : Nat} (hn : n ≠ s.curCore) : s.exited.core n = s.core n := by
  rw [State.exited, State.settleCore_ne _ hn, State.core_freeWindows, s.releases_exitHerds.core]
  rfl

/-- The launch of the crew: the threads have left its barriers, and their windows are free. -/
theorem State.launch_exited_self (s : State) : s.exited.launch s.curCrew.launch = { s.curLaunch with
    barriers := (s.exitHerds.launch s.curCrew.launch).barriers
    windows := s.curLaunch.windows.filter fun w => !(s.groupThreads.any fun u => u.window == some w) } := by
  rw [State.launch_exited, State.freeWindows]
  dsimp only
  rw [State.launch_setLaunch, s.releases_exitHerds.launch]
  rfl

/-- The barriers of the launch: the threads have left, and the phases of their herds have been tested. -/
theorem State.barrier_exited (s : State) (h : Nat) : (s.exited.launch s.curCrew.launch).barrier h =
    if (s.groupThreads.any fun u => u.herdList.contains h) then ((leavers s.groupThreads h).foldl Barrier.leave (s.curLaunch.barrier h)).settled
    else s.curLaunch.barrier h := by
  have hl : ∀ n, (s.setCur s.exitCrew).launch n = s.launch n := fun _ => rfl
  have hb := State.barrier_leaveHerds (s.setCur s.exitCrew) s.curCrew.launch s.groupThreads h
  rw [hl] at hb
  rw [State.launch_exited_self, ← State.curLaunch] at *
  exact hb

/-- The issuing crew once the barriers have been settled, but for its threads. -/
theorem State.crew_exitHerds_self (s : State) : s.exitHerds.crew s.cur.crew = { s.exitCrew with threads := (s.exitHerds.crew s.cur.crew).threads } := by
  have h := s.releases_exitHerds.crew s.cur.crew
  rwa [State.crew_setCur_self] at h

theorem State.exited_frame (s : State) : s.exited.crew s.cur.crew = { s.curCrew with
    threads := (s.exited.crew s.cur.crew).threads, meetings := (s.exited.crew s.cur.crew).meetings
    map := (s.exited.crew s.cur.crew).map, rob := (s.exited.crew s.cur.crew).rob } := by
  rw [State.crew_exited, State.crew_exitHerds_self, State.exitCrew_frame]

theorem State.lane_exited (s : State) (r l : Nat) :
    (s.exited.crew s.cur.crew).lane r l = ((lanesOf s.active).foldl Crew.departLane s.curCrew).lane r l := by
  rw [State.crew_exited, State.crew_exitHerds_self, State.exitCrew_frame, ← State.lane_endedCrew]
  rfl

theorem State.exited_rest (s : State) :
    s.exited = { s with crews := s.exited.crews, launches := s.exited.launches, cores := s.exited.cores } := by
  have hh := s.releases_exitHerds.rest
  have he : s.exited = { s.exitHerds.freeWindows s.curCrew.launch s.groupThreads with cores := s.exited.cores } := by
    rw [State.exited]
    exact State.settleCore_spec _ _
  have hf : s.exitHerds.freeWindows s.curCrew.launch s.groupThreads =
      { s.exitHerds with launches := (s.exitHerds.freeWindows s.curCrew.launch s.groupThreads).launches } := rfl
  rw [he, hf, hh]
  rfl

/-- A thread after its crew's phases have been tested: as it was, or woken from BARRIER. -/
theorem State.thr_exited_self (s : State) {l : Nat} (hl : l < 32) :
    (s.exited.crew s.cur.crew).thr l = s.exitCrew.thr l ∨
      (s.exitCrew.thr l).state = .barrier ∧ (s.exited.crew s.cur.crew).thr l = (s.exitCrew.thr l).wake (s.cycleOf s.cur.crew) := by
  have h := s.releases_exitHerds.threads s.cur.crew l hl
  rw [State.crew_setCur_self, State.cycleOf_setCur_exitCrew] at h
  rwa [State.crew_exited]

theorem State.thr_exitCrew_inG {s : State} {l : Nat} (hl : s.inG l = true) : s.exitCrew.thr l = (s.thrAt l).ended := by
  have hl32 := mask_lt (m := s.active) hl
  have ha : s.active ≠ 0 := fun h0 => by
    rw [State.inG, h0] at hl
    simp at hl
  have hthr : s.exitedCrew.thr l = (s.thrAt l).ended := by
    have := getD_map_laneList (fun l => if s.inG l then (s.thrAt l).ended else s.thrAt l) {} l
    rw [if_pos hl32, if_pos hl] at this
    exact this
  rw [State.exitCrew_eq ha]
  exact (Crew.thr_settleMeetings_of_awake (State.awake_exitedCrew hl) _ hl32).trans hthr

/-- The lanes of G have exited. -/
theorem State.state_exited_inG {s : State} {l : Nat} (hl : s.inG l = true) : ((s.exited.crew s.cur.crew).thr l).state = .exited := by
  rcases s.thr_exited_self (mask_lt (m := s.active) hl) with h | ⟨h, -⟩
  · rw [h, State.thr_exitCrew_inG hl]; rfl
  · rw [State.thr_exitCrew_inG hl] at h; cases h

theorem State.cycleOf_exited {s : State} (hs : s.standing = true) : s.exited.cycleOf s.cur.crew = s.cycleOf s.cur.crew := by
  obtain ⟨hcore, -⟩ := State.standing_spec hs
  have hon : (s.exitHerds.freeWindows s.curCrew.launch s.groupThreads).crewsOn s.curCore ≠ [] := by
    refine State.crewsOn_ne_nil (k := s.cur.crew) ?_
    show (s.exitHerds.crew s.cur.crew).core = _
    rw [State.crew_exitHerds_self, State.exitCrew_frame]
    exact hcore
  obtain ⟨hself, -⟩ := State.settleCore_self _ _ hon
  have hcores : (s.exitHerds.freeWindows s.curCrew.launch s.groupThreads).core s.curCore = s.core s.curCore := s.releases_exitHerds.core s.curCore
  unfold State.cycleOf
  rw [State.exited_frame]
  show (s.exited.core (s.curCrew.core.getD s.curCrew.lastCore)).cycle = (s.core (s.curCrew.core.getD s.curCrew.lastCore)).cycle
  rw [hcore, Option.getD_some, State.exited, hself, ← hcores]

/-- An EXIT after which lanes of its crew live on retires (R20). -/
theorem State.exit_retires {s : State} (hp : s.poised {} = true) (ha : s.active ≠ 0)
    (hlive : (s.exited.crew s.cur.crew).allExited = false) : ∃ t, exec .exit s = .next t ∧ Retires s s.exited t {} fun _ => {} := by
  obtain ⟨hst, -⟩ := State.poised_spec hp
  obtain ⟨hcore, hgone, -⟩ := State.standing_spec hst
  obtain ⟨l, hl, hl'⟩ := List.all_eq_false.1 hlive
  have hnone : ({} : Operands).allocs - s.drawn.length = 0 := Nat.zero_sub _
  have hr : s.room {} = true := by rw [State.room, hnone]; exact Bool.or_true _
  refine ⟨_, rfl, s.issue_retires s.exited {} _ [] _ hp hr (fun _ => ?_) (fun h => absurd h ha) (fun _ _ => rfl) (fun _ => ?_) ?_
    (State.cycleOf_exited hst) ?_ ?_ ?_ ?_ ⟨l, (mem_laneList l).1 hl, ?_⟩ (fun _ _ x hx => absurd hx List.not_mem_nil)
    (fun _ r hx => absurd hx List.not_mem_nil) (fun _ _ hx => absurd hx Bool.false_ne_true)⟩
  · rw [State.endThreads_eq hst]
  · rw [hnone]
    rfl
  · rw [State.exited_rest]
  · rw [State.exited_frame]; exact hcore
  · rw [State.exited_frame]; rfl
  · rw [State.exited_frame]; exact hgone
  · rw [State.exited_frame]
  · have hlv : ((s.exited.crew s.cur.crew).thr l).isLive = true := by simpa using hl'
    split
    · exact isLive_threadAfter s hlv (by split <;> rfl) _
    · exact hlv

/-- A crew that has left maps no register. -/
theorem Crew.reg_done (c : Crew) {r : Nat} (hr : r < 64) : c.done.reg r = none := by
  unfold Crew.reg
  split
  · rfl
  · exact List.getD_replicate none hr

/-- An EXIT after which no lane of its crew lives on: the crew leaves its core for the last time (R20, R261). -/
theorem State.exit_leaves {s : State} (hp : s.poised {} = true) (ha : s.active ≠ 0)
    (hdone : (s.exited.crew s.cur.crew).allExited = true) :
    ∃ t, exec .exit s = .next t ∧ (t.crew s.cur.crew).gone = true ∧ (t.crew s.cur.crew).core = none ∧
      (∀ r l, r < 64 → l < 32 → (t.crew s.cur.crew).rd r l = 0) ∧ (∀ k, k ≠ s.cur.crew → t.crew k = s.exited.crew k) ∧
      (∀ n, n ≠ s.curCrew.launch → t.launch n = s.exited.launch n) ∧
      (∃ r, r.length = 128 ∧ t.launch s.curCrew.launch = { s.exited.launch s.curCrew.launch with
        trace := s.curLaunch.trace ++ (if s.curCrew.admitSeq.isSome then [r] else [])
        areas := s.curCrew.area.toList ++ s.curLaunch.areas }) ∧
      t = { s with crews := t.crews, launches := t.launches, cores := t.cores, clusters := t.clusters } := by
  obtain ⟨hst, -⟩ := State.poised_spec hp
  obtain ⟨-, hgone, -⟩ := State.standing_spec hst
  obtain ⟨u, hissue, hrest, hcrews, hret⟩ := State.issue_leaves (o := {}) (es := []) (eff := fun _ => {})
    (body := fun s g => .done (s.endThreads s.cur.crew g) []) hp ha (by rw [State.endThreads_eq hst]) (fun _ _ => rfl) rfl (fun _ _ => rfl)
    (fun _ _ => rfl) (by rw [State.exited_rest]) hdone
  have hframe := State.exited_frame s
  have hlast := State.exited_rest s
  have hself := State.launch_exited_self s
  have hkeeps : (s.exited.launch s.curCrew.launch).trace = s.curLaunch.trace ∧ (s.exited.launch s.curCrew.launch).areas = s.curLaunch.areas := by
    rw [hself]
    exact ⟨rfl, rfl⟩
  have hexec : exec .exit s = .next (u.crewLeaves s.cur.crew) := congrArg Host.Outcome.next hissue
  generalize s.exited = b at *
  have hlaunches : ∀ n, u.launch n = b.launch n := fun n => by rw [hrest]; rfl
  have hlaunch : (b.crew s.cur.crew).launch = s.curCrew.launch := by rw [hframe]
  have hulaunch : (u.crew s.cur.crew).launch = s.curCrew.launch := by rw [hret.frame]; exact hlaunch
  have hugone : (u.crew s.cur.crew).gone = false := by rw [hret.frame, hframe]; exact hgone
  have hcrew := State.crew_crewLeaves hugone s.cur.crew
  rw [if_pos rfl] at hcrew
  refine ⟨_, hexec, by rw [hcrew]; rfl, by rw [hcrew]; rfl, fun r l hr _ => ?_, fun k hk => ?_, fun n hn => ?_, ?_, ?_⟩
  · rw [hcrew, Crew.rd, Crew.lane_eq]
    rw [Crew.reg_done _ hr]
    rfl
  · rw [State.crew_crewLeaves hugone, if_neg hk, hcrews k hk]
  · rw [State.launch_crewLeaves hugone, hulaunch, if_neg hn, hlaunches]
  · obtain ⟨r, hlen, hr⟩ := State.launchLeft_of_retired (s := b) hret (hlaunches _)
    refine ⟨r, hlen, ?_⟩
    rw [State.launch_crewLeaves hugone, hulaunch, if_pos rfl, hr, hlaunch, hkeeps.1, hkeeps.2, hframe]
  · obtain ⟨x, y, he⟩ := State.crewLeaves_with hugone
    rw [he, hrest, hlast]

theorem yield_executes : Executes .yield {} (fun _ => True)
    (fun s => s.setCrew s.cur.crew (s.curCrew.onMask s.active fun _ t => { t with hold := some (s.cycleOf s.cur.crew + 65) })) fun _ _ => {} := by
  refine executes_of_issue (fun _ _ => rfl) rfl (fun s _ => ⟨[], rfl, fun _ _ => rfl⟩) (fun s hp _ => ?_) (fun _ _ => rfl) fun _ _ => rfl
  refine State.steady_setCur (State.poised_spec hp).1 (.of_state rfl fun l hl => ?_)
  rw [Crew.thr_onMask _ _ _ hl]
  split <;> rfl

/-- A choice by a Boolean that is not to be evaluated. -/
theorem ite_of_bool {x : Bool} {p q : Prop} (hp : x = true → p) (hq : x = false → q) : if x = true then p else q := by
  cases x
  · exact hq rfl
  · exact hp rfl

/-- Settles O13: the crew, the barriers and the windows that the end of the lanes of G leaves; the crew then retires its EXIT, or leaves its core. -/
theorem exitAndYield : Obligations.ExitAndYield := by
  unfold Obligations.ExitAndYield
  refine ⟨?_, yield_executes⟩
  intro s hp ha lid b ts d left kept
  obtain ⟨hst, -⟩ := State.poised_spec hp
  have hb : s.exited = b := (State.endThreads_eq hst).symm
  have hdx : s.exitedCrew = d := rfl
  clear_value b d
  subst hb hdx
  have hrel := s.releases_exitHerds
  have hd := State.exitCrew_eq ha
  have hlast := ite_of_bool (State.exit_leaves hp ha) (State.exit_retires hp ha)
  refine ⟨fun l hl => ⟨State.state_exited_inG hl, fun r hr => ?_⟩, fun r l hr hl hl' => ?_, ?_, fun l hl => ?_, fun k hk => ⟨?_, fun hn => ?_, fun l hl => ?_⟩,
    fun n hn => s.launch_exited_ne hn, ?_, fun h => ?_, fun n hn => ?_, s.exited_rest, hlast⟩
  · rw [Crew.rd, State.lane_exited]
    exact Crew.rd_departLanes _ _ hr (mask_lt (m := s.active) hl) ((s.mem_active l).2 hl)
  · rw [State.lane_exited]
    exact Crew.lane_departLanes _ _ hr hl fun hmem => by rw [(s.mem_active l).1 hmem] at hl'; cases hl'
  · rw [State.crew_exited, State.crew_exitHerds_self, hd]
  · have h := s.thr_exited_self hl
    rw [hd] at h
    exact h
  · rw [State.crew_exited, hrel.crew k, State.crew_setCur_ne _ _ hk]
  · rw [State.crew_exited, hrel.others k (by rw [State.crew_setCur_ne _ _ hk]; exact hn), State.crew_setCur_ne _ _ hk]
  · have h := hrel.threads k l hl
    rw [State.crew_setCur_ne _ _ hk, State.cycleOf_setCur_exitCrew] at h
    rwa [State.crew_exited]
  · rw [State.launch_exited_self]
    rfl
  · exact s.barrier_exited h
  · exact s.core_exited_ne hn

end
end Sys2Proof.Machine

namespace Sys2Proof.Machine

section

/-! ### A bin hatches (R17, R34 to R38, R57) -/

/-- Frames that are taken for an interface change what is taken and what is charged, and nothing else. -/
theorem State.takeFrames_frame (vi n : Nat) (s : State) : (s.takeFrames vi n).1 = { s with
    vis := (s.takeFrames vi n).1.vis, frames := (s.takeFrames vi n).1.frames } := by
  induction n generalizing s with
  | zero => rfl
  | succ n ih =>
    rw [State.takeFrames]
    split
    · rfl
    · rw [ih]; rfl

theorem State.launch_setLaunch_eq (s : State) (n k : Nat) (x : Launch) :
    (s.setLaunch n x).launch k = if k = n then x else s.launch k := tget_tset ({} : Launch) x s.launches n k

/-- Areas that are set aside for a launch change the launch's areas, what is taken and what is charged. -/
theorem State.setAside_frame (s : State) (lid n : Nat) :
    s.setAside lid n = { s with
      launches := (s.setAside lid n).launches, vis := (s.setAside lid n).vis, frames := (s.setAside lid n).frames } := by
  unfold State.setAside
  dsimp only
  rw [State.takeFrames_frame]
  rfl

theorem State.launch_takeFrames (s : State) (vi n k : Nat) : (s.takeFrames vi n).1.launch k = s.launch k := by
  rw [State.takeFrames_frame]
  rfl

theorem State.launch_setAside (s : State) (lid n k : Nat) :
    (s.setAside lid n).launch k = { s.launch k with areas := ((s.setAside lid n).launch k).areas } := by
  unfold State.setAside
  dsimp only
  rw [State.launch_setLaunch_eq, State.launch_takeFrames, State.launch_takeFrames]
  split
  · next h => rw [h]
  · rfl

/-- The launch sets an area aside when it has none left. -/
def State.withArea (s : State) (lid : Nat) : State := if (s.launch lid).areas.isEmpty then s.setAside lid 1 else s

theorem State.withArea_frame (s : State) (lid : Nat) : s.withArea lid = { s with
    launches := (s.withArea lid).launches, vis := (s.withArea lid).vis, frames := (s.withArea lid).frames } := by
  unfold State.withArea
  split
  · exact s.setAside_frame lid 1
  · rfl

theorem State.launch_withArea (s : State) (lid k : Nat) :
    (s.withArea lid).launch k = { s.launch k with areas := ((s.withArea lid).launch k).areas } := by
  unfold State.withArea
  split
  · exact s.launch_setAside lid 1 k
  · rfl

theorem State.takeArea_fst (s : State) (lid : Nat) : (s.takeArea lid).1 =
    (s.withArea lid).setLaunch lid { (s.withArea lid).launch lid with areas := ((s.withArea lid).launch lid).areas.tail } := rfl

theorem State.takeArea_frame (s : State) (lid : Nat) : (s.takeArea lid).1 = { s with
    launches := (s.takeArea lid).1.launches, vis := (s.takeArea lid).1.vis, frames := (s.takeArea lid).1.frames } := by
  rw [State.takeArea_fst, State.withArea_frame]
  rfl

theorem State.launch_takeArea (s : State) (lid k : Nat) :
    (s.takeArea lid).1.launch k = { s.launch k with areas := ((s.takeArea lid).1.launch k).areas } := by
  rw [State.takeArea_fst, State.launch_setLaunch_eq]
  split
  · next h => rw [h, State.launch_withArea]
  · exact s.launch_withArea lid k

theorem State.cluster_setCluster_ne (s : State) {n k : Nat} (x : Cluster) (h : k ≠ n) : (s.setCluster n x).cluster k = s.cluster k :=
  tget_tset_ne ({} : Cluster) x s.clusters h

/-- A new crew joins the queue of its cluster: the crew, the queue, and an area of its launch. -/
theorem State.enqueue_frame (s : State) (c : Crew) : s.enqueue c = { s with
    crews := tset s.crews s.nextCrew { c with area := (s.takeArea c.launch).2 }
    clusters := tset s.clusters c.cluster { s.cluster c.cluster with queue := (s.cluster c.cluster).queue ++ [s.nextCrew] }
    nextCrew := s.nextCrew + 1, launches := (s.takeArea c.launch).1.launches, vis := (s.takeArea c.launch).1.vis
    frames := (s.takeArea c.launch).1.frames } := by
  have hcluster : (s.takeArea c.launch).1.cluster c.cluster = s.cluster c.cluster := by rw [State.takeArea_frame]; rfl
  unfold State.enqueue
  dsimp only
  rw [hcluster, State.takeArea_frame]
  rfl

/-- The threads of a bin as the lanes of its crew start. -/
def Bin.starts (b : Bin) : List Brooded := (b.threads.take 32).map fun x => { x with thr := { x.thr with state := .brood, pc := b.entry } }

theorem Bin.starts_get (b : Bin) {l : Nat} (hl : l < 32) :
    b.starts[l]? = (b.threads[l]?).map fun x => { x with thr := { x.thr with state := .brood, pc := b.entry } } := by
  rw [Bin.starts, List.getElem?_map, List.getElem?_take_of_lt hl]

/-- The crew that a bin makes (R34, R36, R38, R227). -/
def State.hatched (s : State) (cl : Nat) (b : Bin) : Crew :=
  { num := s.crewNumber s.nextCrew, launch := b.launch, cluster := cl, hatched := true, map := broodMap b.starts
    threads := bornThreads b.starts, born := b.starts, herdSet := s.nextCrew, visible := !b.spawned
    stepping := (b.starts.filterMap (·.stepping)).min? }

theorem State.hatchCrew_eq (s : State) (cl : Nat) (b : Bin) : s.hatchCrew cl b = s.enqueue (s.hatched cl b) := rfl

theorem Bin.thr_bornThreads (b : Bin) {l : Nat} (hl : l < 32) :
    (bornThreads b.starts).getD l {} = match b.threads[l]? with
      | some x => { x.thr with state := .brood, pc := b.entry }
      | none => {} := by
  rw [bornThreads, getD_map_laneList, if_pos hl, b.starts_get hl]
  cases b.threads[l]? <;> rfl

/-- What a thread brings in a register, if it brings one. -/
def Brooded.brings (x : Brooded) (r : Nat) : Option (Nat × Word) := x.regs.find? fun e => e.1 == r

/-- The lane that holds what has been brought. -/
def laneOf : Option (Nat × Word) → Lane
  | some e => live e.2
  | none => {}

/-- A lane of the crew's registers is what its thread has brought. -/
theorem lane_broodMap {c : Crew} {ts : List Brooded} (hm : c.map = broodMap ts) {r l : Nat} (h0 : 0 < r) (hr : r < 64) (hl : l < 32) :
    c.lane r l = laneOf ((ts[l]?).bind fun x => x.brings r) := by
  have hreg : c.reg r = if (r != 0 && ts.any fun b => b.regs.any fun e => e.1 == r) then
      some { lanes := laneList.map fun l => laneOf ((ts[l]?).bind fun x => x.brings r) } else none := by
    rw [Crew.reg, if_neg (Nat.pos_iff_ne_zero.1 h0), hm, broodMap]
    exact (getD_map_range _ _ _ _).trans (if_pos hr)
  rw [Crew.lane_eq, hreg]
  split
  · have hlane := getD_map_laneList (fun l => laneOf ((ts[l]?).bind fun x => x.brings r)) {} l
    rw [if_pos hl] at hlane
    exact hlane
  · next hany =>
    have hnone : ((ts[l]?).bind fun x => x.brings r) = none := by
      rw [bne_iff_ne.2 (Nat.pos_iff_ne_zero.1 h0), Bool.true_and, List.any_eq_true] at hany
      rw [Option.bind_eq_none_iff]
      intro x hx
      refine List.find?_eq_none.2 fun e he hre => hany ⟨x, List.mem_of_getElem? hx, List.any_eq_true.2 ⟨e, he, hre⟩⟩
    rw [hnone]
    rfl

theorem Bin.brings_starts (b : Bin) {l : Nat} (hl : l < 32) (r : Nat) :
    ((b.starts[l]?).bind fun x => x.brings r) = (b.threads[l]?).bind fun x => x.regs.find? fun e => e.1 == r := by
  rw [b.starts_get hl]
  cases b.threads[l]? <;> rfl

/-- A bin that has been taken out of its cluster hatches into a crew. -/
theorem hatches_hatchCrew {s w : State} {cl i : Nat} (g : Bin) (hw : w = { s with clusters := w.clusters })
    (hself : w.cluster cl = { s.cluster cl with bins := tdel (s.cluster cl).bins i })
    (hne : ∀ n, n ≠ cl → w.cluster n = s.cluster n) : Hatches s (w.hatchCrew cl g) cl i g := by
  have hnext : w.nextCrew = s.nextCrew := by rw [hw]
  have hcrews : w.crews = s.crews := by rw [hw]
  have hlaunches : ∀ n, w.launch n = s.launch n := fun n => by rw [hw]; rfl
  have hframe := w.enqueue_frame (w.hatched cl g)
  rw [← State.hatchCrew_eq] at hframe
  have hcrew : (w.hatchCrew cl g).crew s.nextCrew = { w.hatched cl g with area := (w.takeArea (w.hatched cl g).launch).2 } := by
    rw [State.crew, hframe, hnext]
    exact tget_tset_self _ _ _ _
  refine ⟨?_, fun l hl => ?_, fun r l h0 hr hl => ?_, ?_, fun k hk => ?_, fun n hn => ?_, fun n => ?_, ?_⟩
  · rw [hcrew]
    exact ⟨rfl, rfl, rfl, rfl, rfl⟩
  · rw [hcrew]
    exact g.thr_bornThreads hl
  · have hlane := lane_broodMap (ts := g.starts) (c := (w.hatchCrew cl g).crew s.nextCrew) (by rw [hcrew]; rfl) h0 hr hl
    rw [g.brings_starts hl] at hlane
    exact hlane
  · rw [State.cluster, hframe, ← hnext]
    refine (tget_tset_self _ _ _ _).trans ?_
    show ({ w.cluster cl with queue := (w.cluster cl).queue ++ [w.nextCrew] } : Cluster) = _
    rw [hself]
  · rw [State.crew, hframe]
    dsimp only
    rw [hnext, hcrews]
    exact tget_tset_ne _ _ _ hk
  · rw [State.cluster, hframe]
    exact (tget_tset_ne _ _ _ hn).trans (hne n hn)
  · have hl : (w.hatchCrew cl g).launch n = (w.takeArea g.launch).1.launch n := by
      rw [State.launch, hframe]
      rfl
    rw [hl, State.launch_takeArea, hlaunches]
  · rw [hframe, hnext, hw]

/-! ### What follows a hatching (R35) -/

theorem mem_of_mem_tset {α : Type} {t : Tab α} {k : Nat} {v : α} {e : Nat × α} (h : e ∈ tset t k v) : e = (k, v) ∨ e ∈ t := by
  induction t with
  | nil => exact .inl (List.mem_singleton.1 h)
  | cons a t ih =>
    obtain ⟨i, x⟩ := a
    rw [tset] at h
    split at h
    · exact List.mem_cons.1 h
    · split at h
      · exact (List.mem_cons.1 h).imp id (List.mem_cons_of_mem _)
      · rcases List.mem_cons.1 h with he | he
        · exact .inr (he ▸ List.mem_cons_self)
        · exact (ih he).imp id (List.mem_cons_of_mem _)

/-- A table's entry that has been removed is not there any more. -/
theorem tget_tdel {α : Type} (d : α) (t : Tab α) (k : Nat) : tget d (tdel t k) k = d := by
  induction t with
  | nil => rfl
  | cons e t ih =>
    rw [tdel, List.filter_cons]
    split
    · next h => rw [tget, if_neg (bne_iff_ne.1 h)]; exact ih
    · exact ih

/-- An entry that has just been replaced may as well be removed from the table that was. -/
theorem tdel_tset {α : Type} (t : Tab α) (k : Nat) (v : α) : tdel (tset t k v) k = tdel t k := by
  induction t with
  | nil => simp [tset, tdel]
  | cons e t ih =>
    obtain ⟨i, x⟩ := e
    rw [tset]
    split
    · simp [tdel]
    · split
      · next h => simp [tdel, h]
      · rw [tdel, List.filter_cons, tdel, List.filter_cons]
        exact if_congr Iff.rfl (congrArg _ ih) ih

/-- No thread of a cluster has spilled: no launch holds one, whatever its entry. -/
theorem State.spilledOf_eq_nil_iff (s : State) (cl : Nat) :
    s.spilledOf cl = [] ↔ ∀ e ∈ s.launches, ∀ y ∈ e.2.spill, (y.cluster == cl) = false := by
  unfold State.spilledOf
  rw [List.flatMap_eq_nil_iff]
  simp only [List.map_eq_nil_iff, List.filter_eq_nil_iff, Bool.not_eq_true]

/-- A launch that is replaced, and has spilled what it had, brings no spilled thread into a cluster that has none. -/
theorem State.spilledOf_setLaunch {s : State} {cl lid : Nat} {x : Launch} (h : s.spilledOf cl = []) (hx : x.spill = (s.launch lid).spill) :
    (s.setLaunch lid x).spilledOf cl = [] := by
  rw [State.spilledOf_eq_nil_iff] at h ⊢
  intro e he
  rcases mem_of_mem_tset he with rfl | hmem
  · rw [hx]
    rcases tget_mem ({} : Launch) s.launches lid with hm | hd
    · exact h _ hm
    · have hs : (s.launch lid).spill = [] := by rw [State.launch, hd]
      rw [hs]
      exact fun y hy => absurd hy List.not_mem_nil
  · exact h e hmem

theorem State.spilledOf_congr {s t : State} (h : t.launches = s.launches) (cl : Nat) : t.spilledOf cl = s.spilledOf cl := by
  rw [State.spilledOf, h]
  rfl

theorem State.spilledOf_setAside {s : State} {cl : Nat} (h : s.spilledOf cl = []) (lid n : Nat) : (s.setAside lid n).spilledOf cl = [] := by
  have hl : (s.takeFrames (s.launch lid).vi n).1.launches = s.launches := by rw [State.takeFrames_frame]
  unfold State.setAside
  exact State.spilledOf_setLaunch ((State.spilledOf_congr hl cl).trans h) rfl

theorem State.spilledOf_takeArea {s : State} {cl : Nat} (h : s.spilledOf cl = []) (lid : Nat) : (s.takeArea lid).1.spilledOf cl = [] := by
  have hw : (s.withArea lid).spilledOf cl = [] := by
    unfold State.withArea
    split
    · exact State.spilledOf_setAside h lid 1
    · exact h
  rw [State.takeArea_fst]
  exact State.spilledOf_setLaunch hw rfl

theorem State.spilledOf_hatchCrew {s : State} {cl : Nat} (h : s.spilledOf cl = []) (n : Nat) (b : Bin) : (s.hatchCrew n b).spilledOf cl = [] := by
  refine (State.spilledOf_congr ?_ cl).trans (State.spilledOf_takeArea h b.launch)
  rw [State.hatchCrew_eq, State.enqueue_frame]
  rfl

/-- With no spilled thread a freed bin stays free. -/
theorem State.refillBin_of_nil {s : State} {cl : Nat} (h : s.spilledOf cl = []) (i : Nat) : s.refillBin cl i = s := by
  unfold State.refillBin
  rw [h]
  rfl

/-- A bin's hatching, before it is refilled. -/
def State.hatchOut (s : State) (cl i : Nat) : State :=
  (s.setCluster cl { s.cluster cl with bins := tdel (s.cluster cl).bins i }).hatchCrew cl (tget {} (s.cluster cl).bins i)

theorem State.hatches_hatchOut (s : State) (cl i : Nat) : Hatches s (s.hatchOut cl i) cl i (tget {} (s.cluster cl).bins i) :=
  hatches_hatchCrew _ rfl (State.cluster_setCluster _ _ _) fun _ hn => State.cluster_setCluster_ne _ _ hn

/-- A bin that is not filled again hatches once. -/
theorem State.hatch_succ {s : State} {cl i : Nat} (h : thas (s.cluster cl).bins i = true) (n : Nat)
    (hlen : (tget {} (((s.hatchOut cl i).refillBin cl i).cluster cl).bins i).threads.length < 32) :
    s.hatch cl i (n + 1) = (s.hatchOut cl i).refillBin cl i := by
  rw [State.hatch]
  dsimp only
  rw [if_pos h]
  exact if_neg (Nat.not_le.2 hlen)

/-- Without spilled threads a bin hatches once, and is free. -/
theorem State.hatch_succ_of_nil {s : State} {cl i : Nat} (h : thas (s.cluster cl).bins i = true) (hnil : s.spilledOf cl = []) (n : Nat) :
    s.hatch cl i (n + 1) = s.hatchOut cl i := by
  have hout : (s.hatchOut cl i).spilledOf cl = [] :=
    State.spilledOf_hatchCrew ((State.spilledOf_congr (t := s.setCluster cl { s.cluster cl with bins := tdel (s.cluster cl).bins i }) rfl cl).trans hnil) _ _
  have hrefill := State.refillBin_of_nil hout i
  refine (State.hatch_succ h n ?_).trans hrefill
  rw [hrefill, (s.hatches_hatchOut cl i).cluster]
  dsimp only
  rw [tget_tdel]
  exact Nat.zero_lt_succ _

end
end Sys2Proof.Machine

namespace Sys2Proof.Machine

section

/-! ### Releases by the clock (R17, R21, R24, R34, R35) -/

theorem Meeting.expired_of_deadline {m : Meeting} {d now : Nat} (h : m.deadline = some d) : m.expired now = decide (d < now) := by
  rw [Meeting.expired, h]

theorem State.meetTimeout_of_expired {s : State} {k id : Nat} {m : Meeting} (hm : (s.crew k).meeting id = some m)
    (he : m.expired (s.crew k).now = true) (hw : m.wait ≠ 0) :
    s.meetTimeout k id = some (s.setCrew k ((s.crew k).settleMeeting (s.cycleOf k) id)) := by
  unfold State.meetTimeout
  dsimp only
  rw [hm]
  dsimp only
  rw [he, bne_iff_ne.2 hw]
  rfl

/-- A meeting whose deadline is over releases its waiting threads (R24). -/
theorem meetDeadline_releases {s : State} {k id d : Nat} {m : Meeting} (hm : (s.crew k).meeting id = some m) (hd : m.deadline = some d)
    (hlt : d < (s.crew k).now) (hw : m.wait ≠ 0) :
    ∃ t, exec (.meetDeadline k id) s = .next t ∧ t = { s with crews := t.crews } ∧ (∀ n, n ≠ k → t.crew n = s.crew n) ∧
      (t.crew k).map = (s.crew k).map ∧
      ∀ l, l < 32 → (t.crew k).thr l = if m.wait.getLsbD l then
        { ((s.crew k).thr l).wake (s.cycleOf k) with stack := ((s.crew k).thr l).stack.erase m.id, pc := m.addr }
        else (s.crew k).thr l := by
  have he : m.expired (s.crew k).now = true := (Meeting.expired_of_deadline hd).trans (decide_eq_true hlt)
  refine ⟨_, congrArg Host.Outcome.next (congrArg (Option.getD · s) (State.meetTimeout_of_expired hm he hw)), rfl,
    fun n hn => State.crew_setCrew_ne _ _ hn, ?_, fun l hl => ?_⟩
  · rw [Option.getD_some, State.crew_setCrew, Crew.settleMeeting_frame]
  · rw [Option.getD_some, State.crew_setCrew, Crew.settleMeeting_of_due hm (.inr he), Crew.thr_leaveAll _ _ _ _ hl]

theorem State.endHold_of_over {s : State} {k l y : Nat} (hy : ((s.crew k).thr l).hold = some y) (hle : y ≤ s.holdClock k) :
    s.endHold k l = some (s.onThr k l fun t => { t with hold := none, readySince := s.cycleOf k }) := by
  unfold State.endHold
  dsimp only
  rw [hy]
  exact if_pos hle

/-- The hold of a YIELD ends (R21). -/
theorem yieldExpiry_ends {s : State} {k l y : Nat} (hy : ((s.crew k).thr l).hold = some y) (hle : y ≤ s.holdClock k) :
    ∃ t, exec (.yieldExpiry k l) s = .next t ∧ t = { s with crews := t.crews } ∧ (∀ n, n ≠ k → t.crew n = s.crew n) ∧
      (t.crew k).map = (s.crew k).map ∧
      ∀ j, j < 32 → (t.crew k).thr j =
        if j = l then { (s.crew k).thr l with hold := none, readySince := s.cycleOf k } else (s.crew k).thr j := by
  refine ⟨_, congrArg Host.Outcome.next (congrArg (Option.getD · s) (State.endHold_of_over hy hle)), rfl,
    fun n hn => State.crew_setCrew_ne _ _ hn, ?_, fun j hj => ?_⟩
  · rw [Option.getD_some, State.onThr, State.crew_setCrew]
    rfl
  · rw [Option.getD_some, State.onThr, State.crew_setCrew, Crew.thr_setThr _ _ _ hj]

theorem State.binTimeout_of_over {s : State} {cl i : Nat} (h : thas (s.cluster cl).bins i = true)
    (ht : (tget {} (s.cluster cl).bins i).timer < (s.cluster cl).cycle) : s.binTimeout cl i = some (s.hatch cl i (s.hatchFuel cl)) := by
  unfold State.binTimeout
  dsimp only
  rw [h, decide_eq_true ht]
  rfl

/-- A bin whose timer has expired hatches, and what has spilled takes its place (R34, R35). -/
theorem binTimerExpiry_hatches {s : State} {cl i : Nat} (h : thas (s.cluster cl).bins i = true)
    (ht : (tget {} (s.cluster cl).bins i).timer < (s.cluster cl).cycle) :
    ∃ t u, exec (.binTimerExpiry cl i) s = .next t ∧ Hatches s u cl i (tget {} (s.cluster cl).bins i) ∧
      (s.spilledOf cl = [] → t = u) ∧
      ((tget {} ((u.refillBin cl i).cluster cl).bins i).threads.length < 32 → t = u.refillBin cl i) :=
  ⟨_, s.hatchOut cl i, congrArg Host.Outcome.next (congrArg (Option.getD · s) (State.binTimeout_of_over h ht)), s.hatches_hatchOut cl i,
    fun hnil => State.hatch_succ_of_nil h hnil _, fun hlen => State.hatch_succ h _ hlen⟩

/-- Settles O50: the three events one by one. -/
theorem timedReleases : Obligations.TimedReleases :=
  ⟨fun _ _ _ _ _ hm hd hlt hw => meetDeadline_releases hm hd hlt hw, fun _ _ _ _ hy hle _ => yieldExpiry_ends hy hle,
    fun _ _ _ h ht => binTimerExpiry_hatches h ht⟩

end
end Sys2Proof.Machine

namespace Sys2Proof.Machine

section

/-! ### The cells of a frame (R115) -/

theorem isHost_frame (f : Nat) {i j : Nat} (hi : i < 65536) (hj : j < 65536) : isHost (f * 65536 + i) = isHost (f * 65536 + j) := by
  unfold isHost hostBase
  rw [decide_eq_decide]
  omega

/-- The cell of an address that is reached without the bank-linear layout, part by part. -/
theorem cell_place (pa : Nat) : (place pa false).cell (pa % 256) =
    (((64 * (pa / 2 ^ 36 % 8) + Nat.xor (pa / 256 % 64) (pa / 16384 % 64)) * 16 + pa / 16384 % 16) * 65536 + pa / 2 ^ 20 % 65536) * 1024 +
      (pa / 2 ^ 18 % 4 * 256 + pa % 256) := by
  show ((_ * 16 + _) * 65536 + _) * 1024 + 4 * (pa / 2 ^ 18 % 4) * 64 + pa % 256 = _
  rw [Nat.mul_comm 4, Nat.mul_assoc, Nat.add_assoc]
  rfl

/-- The parts of two numbers that are put together alike are the same. -/
theorem parts_eq {p p' r r' c c' : Nat} (hc : c < 1024) (hc' : c' < 1024) (hr : r < 65536) (hr' : r' < 65536)
    (h : (p * 65536 + r) * 1024 + c = (p' * 65536 + r') * 1024 + c') : p = p' ∧ c = c' := by omega

theorem bank_eq {a x x' b b' : Nat} (hb : b < 16) (hb' : b' < 16) (h : (64 * a + x) * 16 + b = (64 * a + x') * 16 + b') : x = x' ∧ b = b' := by
  omega

theorem column_lt (pa : Nat) : pa / 2 ^ 18 % 4 * 256 + pa % 256 < 1024 := by omega

theorem frame_stack (f : Nat) {i j : Nat} (hi : i < 65536) (hj : j < 65536) : (f * 65536 + i) / 2 ^ 36 % 8 = (f * 65536 + j) / 2 ^ 36 % 8 := by
  omega

/-- The bits 14 to 19 of two addresses of a frame, when their bits 14 to 17 agree. -/
theorem frame_bank {f i j : Nat} (hi : i < 65536) (hj : j < 65536)
    (h : (f * 65536 + i) / 16384 % 16 = (f * 65536 + j) / 16384 % 16) : (f * 65536 + i) / 16384 % 64 = (f * 65536 + j) / 16384 % 64 := by
  omega

/-- The bits of an address of a frame, in three parts. -/
theorem frame_offset {f i j : Nat} (hi : i < 65536) (hj : j < 65536) (hhigh : (f * 65536 + i) / 16384 % 64 = (f * 65536 + j) / 16384 % 64)
    (hmid : (f * 65536 + i) / 256 % 64 = (f * 65536 + j) / 256 % 64)
    (hlow : (f * 65536 + i) / 2 ^ 18 % 4 * 256 + (f * 65536 + i) % 256 = (f * 65536 + j) / 2 ^ 18 % 4 * 256 + (f * 65536 + j) % 256) : i = j := by
  omega

/-- Different bytes of a frame have different cells (R115). -/
theorem cellOf_inj {f i j : Nat} (hi : i < 65536) (hj : j < 65536)
    (h : cellOf (f * 65536 + i) false = cellOf (f * 65536 + j) false) : i = j := by
  unfold cellOf at h
  rw [isHost_frame f hi hj] at h
  split at h
  · exact Nat.add_left_cancel h
  · rw [cell_place, cell_place, frame_stack f hi hj] at h
    obtain ⟨hpc, hlow⟩ := parts_eq (column_lt _) (column_lt _) (Nat.mod_lt _ (Nat.two_pow_pos 16)) (Nat.mod_lt _ (Nat.two_pow_pos 16)) h
    obtain ⟨hxor, hbank⟩ := bank_eq (Nat.mod_lt _ (Nat.two_pow_pos 4)) (Nat.mod_lt _ (Nat.two_pow_pos 4)) hpc
    have hhigh := frame_bank hi hj hbank
    rw [hhigh] at hxor
    exact frame_offset hi hj hhigh (Nat.xor_left_injective hxor) hlow

/-! ### Bytes that are scattered over memory -/

/-- The bytes of a list are written one by one, each at its own address. -/
@[irreducible] def scatter (m : List Host.Cell) (addr : Nat → Nat) (bs : List Byte) (k : Nat) : List Host.Cell :=
  (bs.zipIdx k).foldl (fun m e => Memory.write m (addr e.2) e.1) m

theorem scatter_nil (m : List Host.Cell) (addr : Nat → Nat) (k : Nat) : scatter m addr [] k = m := by
  unfold scatter
  rfl

theorem scatter_cons (m : List Host.Cell) (addr : Nat → Nat) (b : Byte) (bs : List Byte) (k : Nat) :
    scatter m addr (b :: bs) k = scatter (Memory.write m (addr k) b) addr bs (k + 1) := by
  unfold scatter
  rfl

/-- What is read after bytes have been written to different addresses. -/
theorem read_scatter {addr : Nat → Nat} {n : Nat} (hinj : ∀ i j, i < n → j < n → addr i = addr j → i = j) (bs : List Byte) (k : Nat)
    (hn : k + bs.length ≤ n) (m : List Host.Cell) (hm : Memory.wf m = true) (a : Nat) :
    Memory.read (scatter m addr bs k) a = match (List.range' k bs.length).find? fun i => addr i == a with
      | none => Memory.read m a
      | some i => bs.getD (i - k) 0 := by
  induction bs generalizing k m with
  | nil => rw [scatter_nil]; rfl
  | cons b bs ih =>
    rw [List.length_cons] at hn
    have htail := ih (k + 1) (by omega) (Memory.write m (addr k) b) (Memory.wf_write _ _ _ hm)
    rw [scatter_cons, htail, List.length_cons, List.range'_succ, List.find?_cons]
    by_cases hk : addr k = a
    · have hnone : ((List.range' (k + 1) bs.length).find? fun i => addr i == a) = none := by
        refine List.find?_eq_none.2 fun i hi he => ?_
        rw [List.mem_range'_1] at hi
        have := hinj i k (by omega) (by omega) ((eq_of_beq he).trans hk.symm)
        omega
      rw [hnone, beq_iff_eq.2 hk]
      dsimp only
      rw [Memory.read_write _ _ _ hm, if_pos hk.symm, Nat.sub_self]
      rfl
    · rw [beq_eq_false_iff_ne.2 hk]
      dsimp only
      cases hf : (List.range' (k + 1) bs.length).find? fun i => addr i == a with
      | none =>
        dsimp only
        rw [Memory.read_write _ _ _ hm, if_neg fun he => hk he.symm]
      | some i =>
        have hi := List.mem_of_find?_eq_some hf
        rw [List.mem_range'_1] at hi
        have hsub : i - k = (i - (k + 1)) + 1 := by omega
        dsimp only
        rw [hsub, List.getD_cons_succ]

/-- A write of one byte covers no word, so that no poison goes (R126). -/
theorem clearWords_one (bad : List Nat) (a : Nat) : clearWords bad a 1 = bad := by
  refine List.filter_eq_self.2 fun w _ => ?_
  rw [Bool.not_eq_true', Bool.and_eq_false_iff, decide_eq_false_iff_not, decide_eq_false_iff_not]
  omega

/-- A home write of the bytes of a list, one by one. -/
theorem State.foldl_writeHome (addr : Nat → Nat) (bs : List Byte) (k : Nat) (s : State) :
    (bs.zipIdx k).foldl (fun s e => s.writeHome (addr e.2) [e.1]) s = { s with mem := scatter s.mem addr bs k } := by
  induction bs generalizing s k with
  | nil => rw [scatter_nil]; rfl
  | cons b bs ih =>
    have hone : s.writeHome (addr k) [b] = { s with mem := Memory.write s.mem (addr k) b } := by
      unfold State.writeHome
      rw [List.length_singleton, clearWords_one]
      rfl
    rw [List.zipIdx_cons, List.foldl_cons, hone, ih, scatter_cons]

/-! ### A thread enters a bin (R34, R35) -/

/-- The lowest slot that no spilled thread has is one that none has: there are more numbers to choose from than threads. -/
theorem Launch.spillSlot_free (x : Launch) : ∀ y ∈ x.spill, y.slot ≠ x.spillSlot := by
  have hsome : ((List.range (x.spill.length + 1)).find? fun k => !x.spill.any fun y => y.slot == k).isSome = true := by
    rw [List.find?_isSome]
    by_contra hnone
    have hsub : List.range (x.spill.length + 1) ⊆ x.spill.map (·.slot) := fun k hk => by
      by_contra hk'
      refine hnone ⟨k, hk, ?_⟩
      rw [Bool.not_eq_true', List.any_eq_false]
      exact fun y hy he => hk' (List.mem_map.2 ⟨y, hy, eq_of_beq he⟩)
    have hlen := ((List.nodup_range (n := x.spill.length + 1)).subperm hsub).length_le
    rw [List.length_range, List.length_map] at hlen
    omega
  obtain ⟨k, hk⟩ := Option.isSome_iff_exists.1 hsome
  have hfree := List.find?_some hk
  rw [Bool.not_eq_true', List.any_eq_false] at hfree
  rw [Launch.spillSlot, hk, Option.getD_some]
  exact fun y hy he => hfree y hy (beq_iff_eq.2 he)

theorem length_flatMap_leBytes (n m : Nat) (f : Nat → Nat) : ((List.range m).flatMap fun r => leBytes n (f r)).length = m * n := by
  rw [List.length_flatMap, List.map_congr_left fun k _ => length_leBytes n (f k)]
  simp [Nat.mul_comm]

/-- A thread takes 512 bytes of the spill area. -/
theorem Brooded.length_bytes (b : Brooded) : b.bytes.length = 512 := by
  simp only [Brooded.bytes, List.length_append, length_leBytes, length_flatMap_leBytes]

theorem State.saveBrooded_eq (s : State) (lid slot : Nat) (b : Brooded) :
    s.saveBrooded lid slot b = match (s.launch lid).broodAreas[slot / 128]? with
      | none => s
      | some f => { s with mem := scatter s.mem (fun i => cellOf (f * 65536 + slot % 128 * 512 + i) false) b.bytes 0 } := by
  unfold State.saveBrooded
  cases (s.launch lid).broodAreas[slot / 128]? with
  | none => rfl
  | some f => exact State.foldl_writeHome (fun i => cellOf (f * 65536 + slot % 128 * 512 + i) false) b.bytes 0 s

theorem State.saveBrooded_frame (s : State) (lid slot : Nat) (b : Brooded) :
    s.saveBrooded lid slot b = { s with mem := (s.saveBrooded lid slot b).mem } := by
  rw [State.saveBrooded_eq]
  cases (s.launch lid).broodAreas[slot / 128]? <;> rfl

/-- Without a frame for its slot a spilled thread is written nowhere. -/
theorem State.saveBrooded_none {s : State} {lid slot : Nat} (h : (s.launch lid).broodAreas[slot / 128]? = none) (b : Brooded) :
    s.saveBrooded lid slot b = s := by
  rw [State.saveBrooded_eq, h]

/-- The place of a memory cell among the 512 of a slot of the spill area. -/
def slotByte (f slot a : Nat) : Option Nat := (List.range 512).find? fun i => cellOf (f * 65536 + slot % 128 * 512 + i) false == a

/-- The bytes of the thread's slot of the spill area are the thread's, and every other byte stays. -/
theorem State.read_saveBrooded {s : State} {lid slot f : Nat} (h : (s.launch lid).broodAreas[slot / 128]? = some f) (b : Brooded)
    (hwf : Memory.wf s.mem = true) (a : Nat) :
    Memory.read (s.saveBrooded lid slot b).mem a = (slotByte f slot a).elim (Memory.read s.mem a) fun i => b.bytes.getD i 0 := by
  have hinj : ∀ i j, i < 512 → j < 512 →
      cellOf (f * 65536 + slot % 128 * 512 + i) false = cellOf (f * 65536 + slot % 128 * 512 + j) false → i = j := fun i j hi hj h => by
    rw [Nat.add_assoc, Nat.add_assoc] at h
    have := cellOf_inj (by omega) (by omega) h
    omega
  have hread := read_scatter hinj b.bytes 0 (by rw [b.length_bytes]) s.mem hwf a
  rw [b.length_bytes, ← List.range_eq_range', ← slotByte] at hread
  rw [State.saveBrooded_eq, h]
  dsimp only
  rw [hread]
  cases slotByte f slot a with
  | none => rfl
  | some i => simp only [Nat.sub_zero, Option.elim_some]

/-- The bin that a thread of a key enters, if the cluster has one. -/
def State.binFor (s : State) (cl lid : Nat) (spawned : Bool) (entry : Dword) (key : Word) : Option (Nat × Bin) :=
  (s.cluster cl).bins.find? fun e => e.2.hasKey lid spawned entry key

/-- The cluster takes a thread into a bin that it has. -/
def State.joinBin (s : State) (cl i : Nat) (g : Bin) (x : Brooded) : State :=
  s.setCluster cl { s.cluster cl with bins := tset (s.cluster cl).bins i { g with threads := g.threads ++ [x] } }

section
variable {s : State} {cl lid timer : Nat} {spawned : Bool} {entry : Dword} {key : Word} {x : Brooded}

theorem State.enterBin_of_bin {i : Nat} {g : Bin} (h : s.binFor cl lid spawned entry key = some (i, g)) :
    s.enterBin cl lid spawned entry key timer x = some (if 32 ≤ g.threads.length + 1 then
      (s.joinBin cl i g x).hatch cl i ((s.joinBin cl i g x).hatchFuel cl) else s.joinBin cl i g x) := by
  unfold State.enterBin
  dsimp only
  rw [← State.binFor, h]
  rfl

theorem State.enterBin_of_free {i : Nat} (h : s.binFor cl lid spawned entry key = none) (hfree : (s.cluster cl).freeBin = some i) :
    s.enterBin cl lid spawned entry key timer x = some (s.setCluster cl { s.cluster cl with
      bins := tset (s.cluster cl).bins i { launch := lid, spawned := spawned, entry := entry, key := key, timer := (s.cluster cl).cycle + timer, threads := [x] } }) := by
  unfold State.enterBin
  dsimp only
  rw [← State.binFor, h, hfree]

/-- The thread that spills, as its launch lists it. -/
def State.spilling (s : State) (cl lid timer : Nat) (spawned : Bool) (entry : Dword) (key : Word) (x : Brooded) : Spilled :=
  { order := (s.cluster cl).spills, slot := (s.launch lid).spillSlot, cluster := cl, spawned := spawned, entry := entry, key := key, timer := timer, thr := x }

/-- The launch lists the thread, and the cluster counts it. -/
def State.spillInto (s : State) (cl lid : Nat) (y : Spilled) : State :=
  (s.setLaunch lid { s.launch lid with spill := (s.launch lid).spill ++ [y] }).setCluster cl
    { s.cluster cl with spills := (s.cluster cl).spills + 1 }

theorem State.enterBin_of_full (h : s.binFor cl lid spawned entry key = none) (hfull : (s.cluster cl).freeBin = none) :
    s.enterBin cl lid spawned entry key timer x = if (s.launch lid).spill.length < (s.launch lid).spillUnits * 256 then
      some ((s.spillInto cl lid (s.spilling cl lid timer spawned entry key x)).saveBrooded lid (s.launch lid).spillSlot x) else none := by
  unfold State.enterBin
  dsimp only
  rw [← State.binFor, h, hfull]
  rfl

/-- The 32nd thread makes its bin hatch. -/
theorem State.hatches_joinBin (i : Nat) {g : Bin} (x : Brooded) (hnil : s.spilledOf cl = []) :
    Hatches s ((s.joinBin cl i g x).hatch cl i ((s.joinBin cl i g x).hatchFuel cl)) cl i { g with threads := g.threads ++ [x] } := by
  have hbins : ((s.joinBin cl i g x).cluster cl) =
      { s.cluster cl with bins := tset (s.cluster cl).bins i { g with threads := g.threads ++ [x] } } := State.cluster_setCluster _ _ _
  have hhas : thas ((s.joinBin cl i g x).cluster cl).bins i = true := by
    rw [hbins]
    exact List.any_eq_true.2 ⟨_, mem_tset _ _ _, beq_self_eq_true i⟩
  have hnil' : (s.joinBin cl i g x).spilledOf cl = [] := (State.spilledOf_congr rfl cl).trans hnil
  rw [State.hatchFuel, State.hatch_succ_of_nil hhas hnil', State.hatchOut, hbins]
  dsimp only
  rw [tget_tset_self, tdel_tset]
  refine hatches_hatchCrew _ rfl (State.cluster_setCluster _ _ _) fun n hn => ?_
  rw [State.cluster_setCluster_ne _ _ hn]
  exact State.cluster_setCluster_ne _ _ hn

/-- A thread that finds no bin and no free one joins the spill area of its launch, in whose memory it is written. -/
theorem State.spills_of_full :
    let t := (s.spillInto cl lid (s.spilling cl lid timer spawned entry key x)).saveBrooded lid (s.launch lid).spillSlot x
    t = { s with clusters := t.clusters, launches := t.launches, mem := t.mem } ∧
      ((∀ n, n ≠ cl → t.cluster n = s.cluster n) ∧ t.cluster cl = { s.cluster cl with spills := (s.cluster cl).spills + 1 }) ∧
      (∀ n, n ≠ lid → t.launch n = s.launch n) ∧
      t.launch lid = { s.launch lid with spill := (s.launch lid).spill ++ [s.spilling cl lid timer spawned entry key x] } := by
  intro t
  have hframe : t = { s.spillInto cl lid (s.spilling cl lid timer spawned entry key x) with mem := t.mem } := State.saveBrooded_frame _ _ _ _
  have hcluster : ∀ n, t.cluster n = (s.spillInto cl lid (s.spilling cl lid timer spawned entry key x)).cluster n := fun n => by rw [hframe]; rfl
  have hlaunch : ∀ n, t.launch n = (s.spillInto cl lid (s.spilling cl lid timer spawned entry key x)).launch n := fun n => by rw [hframe]; rfl
  refine ⟨by rw [hframe]; rfl, ⟨fun n hn => ?_, ?_⟩, fun n hn => ?_, ?_⟩
  · rw [hcluster]
    exact State.cluster_setCluster_ne _ _ hn
  · rw [hcluster]
    exact State.cluster_setCluster _ _ _
  · rw [hlaunch]
    exact State.launch_setLaunch_ne _ _ hn
  · rw [hlaunch]
    exact State.launch_setLaunch _ _ _

end

end
end Sys2Proof.Machine

namespace Sys2Proof.Machine

section

/-! ### What brooding leaves of the machine (R34 to R38) -/

/-- Only crews that have been made since differ, besides the clusters, the launches and memory. -/
structure Broods (s t : State) : Prop where
  cur : t.cur = s.cur
  cores : t.cores = s.cores
  next : s.nextCrew ≤ t.nextCrew
  crews : ∀ k, k < s.nextCrew → t.crew k = s.crew k

theorem Broods.refl (s : State) : Broods s s := ⟨rfl, rfl, Nat.le_refl _, fun _ _ => rfl⟩

theorem Broods.trans {s t u : State} (h : Broods s t) (h' : Broods t u) : Broods s u where
  cur := h'.cur.trans h.cur
  cores := h'.cores.trans h.cores
  next := Nat.le_trans h.next h'.next
  crews k hk := (h'.crews k (Nat.lt_of_lt_of_le hk h.next)).trans (h.crews k hk)

/-- A state that has the same crews, and the same cores. -/
theorem Broods.of_same {s t : State} (hcur : t.cur = s.cur) (hcores : t.cores = s.cores) (hcrews : t.crews = s.crews)
    (hnext : t.nextCrew = s.nextCrew) : Broods s t :=
  ⟨hcur, hcores, Nat.le_of_eq hnext.symm, fun k _ => by rw [State.crew, hcrews]; rfl⟩

theorem Hatches.broods {s t : State} {cl i : Nat} {g : Bin} (h : Hatches s t cl i g) : Broods s t where
  cur := by rw [h.rest]
  cores := by rw [h.rest]
  next := by rw [h.rest]; exact Nat.le_succ _
  crews k hk := h.crews k (Nat.ne_of_lt hk)

theorem State.broods_refillBin (s : State) (cl i : Nat) : Broods s (s.refillBin cl i) := by
  unfold State.refillBin
  split
  · exact Broods.refl s
  · exact .of_same rfl rfl rfl rfl

theorem State.broods_hatch (cl i fuel : Nat) (s : State) : Broods s (s.hatch cl i fuel) := by
  induction fuel generalizing s with
  | zero => exact Broods.refl s
  | succ n ih =>
    have hout := (s.hatches_hatchOut cl i).broods.trans (State.broods_refillBin _ cl i)
    rw [State.hatch]
    dsimp only
    split
    · split
      · exact hout.trans (ih _)
      · exact hout
    · exact Broods.refl s

theorem State.broods_joinBin (s : State) (cl i : Nat) (g : Bin) (x : Brooded) : Broods s (s.joinBin cl i g x) := .of_same rfl rfl rfl rfl

/-- Wherever a thread goes, no crew that has been made changes. -/
theorem State.broods_enterBin {s b : State} {cl lid timer : Nat} {spawned : Bool} {entry : Dword} {key : Word} {x : Brooded}
    (h : s.enterBin cl lid spawned entry key timer x = some b) : Broods s b := by
  cases hbin : s.binFor cl lid spawned entry key with
  | some e =>
    obtain ⟨i, g⟩ := e
    rw [State.enterBin_of_bin hbin, Option.some.injEq] at h
    rw [← h]
    split
    · exact (s.broods_joinBin cl i g x).trans (State.broods_hatch _ _ _ _)
    · exact s.broods_joinBin cl i g x
  | none =>
    cases hfree : (s.cluster cl).freeBin with
    | some i =>
      rw [State.enterBin_of_free hbin hfree, Option.some.injEq] at h
      rw [← h]
      exact .of_same rfl rfl rfl rfl
    | none =>
      rw [State.enterBin_of_full hbin hfree] at h
      split at h
      · rw [Option.some.injEq] at h
        rw [← h, State.saveBrooded_frame]
        exact .of_same rfl rfl rfl rfl
      · cases h

/-! ### Lanes that act one after the other (R140) -/

/-- Lanes none of which waits act all of them. -/
theorem State.eachLane_some (f : State → Nat → State × Eff) (ls : List Nat) (s : State) :
    ∃ b es, s.eachLane (fun s l => some (f s l)) ls = some (b, es) := by
  induction ls generalizing s with
  | nil => exact ⟨s, [], rfl⟩
  | cons l ls ih =>
    obtain ⟨b, es, h⟩ := ih (f s l).1
    refine ⟨b, (l, (f s l).2) :: es, ?_⟩
    rw [State.eachLane]
    dsimp only
    rw [h]

/-- The states of the lanes that act: a lane acts, and then the others. -/
theorem State.eachLane_cons {f : State → Nat → State × Eff} {l : Nat} {ls : List Nat} {s b : State} {es : Tab Eff}
    (h : s.eachLane (fun s l => some (f s l)) (l :: ls) = some (b, es)) :
    ∃ fs, es = (l, (f s l).2) :: fs ∧ (f s l).1.eachLane (fun s l => some (f s l)) ls = some (b, fs) := by
  obtain ⟨c, fs, hfs⟩ := State.eachLane_some f ls (f s l).1
  rw [State.eachLane] at h
  dsimp only at h
  rw [hfs] at h
  obtain ⟨rfl, rfl⟩ := Prod.mk.inj (Option.some.inj h)
  exact ⟨fs, rfl, hfs⟩

theorem State.eachLane_nil {f : State → Nat → State × Eff} {s b : State} {es : Tab Eff}
    (h : s.eachLane (fun s l => some (f s l)) [] = some (b, es)) : b = s ∧ es = [] := by
  obtain ⟨rfl, rfl⟩ := Prod.mk.inj (Option.some.inj h)
  exact ⟨rfl, rfl⟩

/-- What holds of a lane's step, and of steps that follow each other, holds of the lanes' steps together. -/
theorem State.eachLane_rel {f : State → Nat → State × Eff} {R : State → State → Prop} (hrefl : ∀ s, R s s)
    (htrans : ∀ {s t u}, R s t → R t u → R s u) (hf : ∀ s l, R s (f s l).1) {ls : List Nat} {s b : State} {es : Tab Eff}
    (h : s.eachLane (fun s l => some (f s l)) ls = some (b, es)) : R s b := by
  induction ls generalizing s es with
  | nil => rw [(State.eachLane_nil h).1]; exact hrefl s
  | cons l ls ih =>
    obtain ⟨fs, -, hfs⟩ := State.eachLane_cons h
    exact htrans (hf s l) (ih hfs)

/-- What holds of every lane's effect, and of no effect, holds of each effect of the lanes. -/
theorem State.eachLane_eff {f : State → Nat → State × Eff} {P : Eff → Prop} (h0 : P {}) (hf : ∀ s l, P (f s l).2) {ls : List Nat}
    {s b : State} {es : Tab Eff} (h : s.eachLane (fun s l => some (f s l)) ls = some (b, es)) (l : Nat) : P (tget {} es l) := by
  induction ls generalizing s es with
  | nil => rw [(State.eachLane_nil h).2]; exact h0
  | cons k ls ih =>
    obtain ⟨fs, rfl, hfs⟩ := State.eachLane_cons h
    rw [tget]
    split
    · exact hf s k
    · exact ih hfs

/-! ### SPAWN (R36, R355) -/

theorem State.spawnLane_of_none {s : State} {a n : Reg} {entry : Dword} {timer l : Nat}
    (h : 2 ^ 32 ≤ s.curLaunch.nextTid ∨ s.enterBin s.curCrew.cluster s.curCrew.launch true entry 0 timer (s.child s.cur.crew l a.toNat n.toNat) = none) :
    s.spawnLane a n entry timer l = (s, trapped causeSpawn 0) := by
  have hnone : (if 2 ^ 32 ≤ (s.launch s.curCrew.launch).nextTid then none
      else s.enterBin s.curCrew.cluster s.curCrew.launch true entry 0 timer (s.child s.cur.crew l a.toNat n.toNat)) = none := by
    split
    · rfl
    · next hlt => exact h.resolve_left hlt
  unfold State.spawnLane
  dsimp only
  rw [hnone]

theorem State.spawnLane_of_some {s b : State} {a n : Reg} {entry : Dword} {timer l : Nat} (hlt : s.curLaunch.nextTid < 2 ^ 32)
    (h : s.enterBin s.curCrew.cluster s.curCrew.launch true entry 0 timer (s.child s.cur.crew l a.toNat n.toNat) = some b) :
    s.spawnLane a n entry timer l =
      (b.setLaunch s.curCrew.launch { b.launch s.curCrew.launch with nextTid := s.curLaunch.nextTid + 1 }, {}) := by
  have hsome : (if 2 ^ 32 ≤ (s.launch s.curCrew.launch).nextTid then none
      else s.enterBin s.curCrew.cluster s.curCrew.launch true entry 0 timer (s.child s.cur.crew l a.toNat n.toNat)) = some b :=
    (if_neg (Nat.not_le.2 hlt)).trans h
  unfold State.spawnLane
  dsimp only
  rw [hsome]
  rfl

/-- A lane's SPAWN leaves every crew as it was, and either traps or has no effect in its own thread. -/
theorem State.spawnLane_cases (s : State) (a n : Reg) (entry : Dword) (timer l : Nat) :
    s.spawnLane a n entry timer l = (s, trapped causeSpawn 0) ∨
      Broods s (s.spawnLane a n entry timer l).1 ∧ (s.spawnLane a n entry timer l).2 = {} := by
  by_cases hle : 2 ^ 32 ≤ s.curLaunch.nextTid
  · exact .inl (State.spawnLane_of_none (.inl hle))
  · cases h : s.enterBin s.curCrew.cluster s.curCrew.launch true entry 0 timer (s.child s.cur.crew l a.toNat n.toNat) with
    | none => exact .inl (State.spawnLane_of_none (.inr h))
    | some b =>
      rw [State.spawnLane_of_some (Nat.not_le.1 hle) h]
      exact .inr ⟨(State.broods_enterBin h).trans (.of_same rfl rfl rfl rfl), rfl⟩

theorem State.broods_spawnLane (s : State) (a n : Reg) (entry : Dword) (timer l : Nat) : Broods s (s.spawnLane a n entry timer l).1 := by
  rcases s.spawnLane_cases a n entry timer l with h | ⟨h, -⟩
  · rw [h]; exact Broods.refl s
  · exact h

/-- An effect that writes no register and puts no thread in another's place. -/
def Eff.plain (e : Eff) : Prop := e.w = [] ∧ e.thr = none

theorem State.plain_spawnLane (s : State) (a n : Reg) (entry : Dword) (timer l : Nat) : (s.spawnLane a n entry timer l).2.plain := by
  rcases s.spawnLane_cases a n entry timer l with h | ⟨-, h⟩
  · rw [h]; exact ⟨rfl, rfl⟩
  · rw [h]; exact ⟨rfl, rfl⟩

/-- The issuing crew is one that has been made, so that brooding leaves it. -/
theorem Broods.steady {s t : State} (h : Broods s t) (hs : s.standing = true) (hlt : s.cur.crew < s.nextCrew) : s.Steady t := by
  have hcrew : t.curCrew = s.curCrew := by
    rw [State.curCrew, h.cur]
    exact h.crews _ hlt
  have hcore : ∀ n, t.core n = s.core n := fun n => by rw [State.core, h.cores]; rfl
  refine ⟨h.cur, ?_, by rw [hcrew], fun l hl => ?_⟩
  · rw [State.cycleOf, h.crews _ hlt, hcore]; rfl
  · rw [State.thrAt, hcrew]
    exact (State.steady_refl hs).awake l hl

/-- SPAWN lane after lane. -/
theorem spawn_lanesAct (a n : Reg) (entry : BitVec 24) (t : BitVec 8) : LanesAct (.spawn a n entry t)
    (fun _ => { a := (List.range n.toNat).map fun i => a.toNat + i, visible := true })
    (fun s => s.fencedAll 1 ∧ s.cur.crew < s.nextCrew)
    fun s l => some (s.spawnLane a n (s.packetsOn entry) (timerCycles t) l) := by
  intro s hp ⟨hfenced, hlt⟩
  obtain ⟨b, es, hes⟩ := State.eachLane_some (fun s l => s.spawnLane a n (s.packetsOn entry) (timerCycles t) l) (lanesOf s.active) s
  have hbroods : Broods s b := State.eachLane_rel Broods.refl Broods.trans (fun s l => s.broods_spawnLane a n _ _ l) hes
  have hplain : ∀ l, (tget {} es l).plain := State.eachLane_eff ⟨rfl, rfl⟩ (fun s l => s.plain_spawnLane a n _ _ l) hes
  refine ⟨b, es, hes, fun hr => ⟨_, rfl, ?_⟩, fun _ ⟨l, _, _, _, hw⟩ => absurd (hplain l).1 hw⟩
  refine State.issue_retires_steady (es := perLane fun l => tget {} es l) hp hr (fun _ => ?_) (fun ha => ?_)
    (fun l hl => State.getD_perLane_inG hl _) rfl (hbroods.steady (State.poised_spec hp).1 hlt) (fun l => (hplain l).1) (fun l => (hplain l).2)
  · have hall : (lanesOf s.active).all (fun l => s.fenced 1 s.cur.crew l) = true :=
      List.all_eq_true.2 fun l hl => hfenced l ((s.mem_active l).1 hl)
    simp only [hall, if_true, offTarget_eq, hes]
  · rw [ha, lanesOf_zero] at hes
    exact (State.eachLane_nil hes).1

/-! ### REGROUP (R38, R345, R346) -/

/-- The thread of a lane as it regroups. -/
def State.regrouping (s : State) (key : Reg) (marked : Bool) (l : Nat) : Brooded :=
  { thr := { s.thrAt l with
      state := .brood, fence := none, got := none, waitG := 0, passBar := false
      tstat := if s.curCrew.readsReleased [key.toNat] l then (s.thrAt l).tstat ||| 1 else (s.thrAt l).tstat }
    regs := s.curCrew.travels l key marked, stepping := s.curCrew.stepping }

/-- The bin that the thread of a lane enters as it regroups, or the spill area. -/
def State.regroupBin (s : State) (key : Reg) (marked : Bool) (entry : Dword) (timer l : Nat) : Option State :=
  s.enterBin s.curCrew.cluster s.curCrew.launch false entry (s.curCrew.rd key.toNat l) timer (s.regrouping key marked l)

/-- A lane of the issuing crew is empty: its thread has gone elsewhere. -/
def State.emptyLane (b : State) (crew l : Nat) : State := b.setCrew crew (((b.crew crew).clearLane l .released).setThr l {})

section
variable {s b : State} {key : Reg} {marked : Bool} {entry : Dword} {timer l : Nat}

theorem State.regroupLane_of_none (h : s.regroupBin key marked entry timer l = none) :
    s.regroupLane key marked entry timer l = (s, trapped causeSpawn 0) := by
  unfold State.regroupLane
  dsimp only
  rw [State.regroupBin] at h
  exact (congrArg (fun o : Option State => match o with
    | none => (s, trapped causeSpawn 0)
    | some s' => (s'.emptyLane s.cur.crew l, ({ pc := .kept } : Eff))) h).trans rfl

theorem State.regroupLane_of_some (h : s.regroupBin key marked entry timer l = some b) :
    s.regroupLane key marked entry timer l = (b.emptyLane s.cur.crew l, { pc := .kept }) := by
  unfold State.regroupLane
  dsimp only
  rw [State.regroupBin] at h
  exact (congrArg (fun o : Option State => match o with
    | none => (s, trapped causeSpawn 0)
    | some s' => (s'.emptyLane s.cur.crew l, ({ pc := .kept } : Eff))) h).trans rfl

end

/-- Lanes of the issuing crew may have gone elsewhere; every other lane, and the rest of the crew, is as it was. -/
structure Regroups (s t : State) (ls : List Nat) : Prop where
  cur : t.cur = s.cur
  cores : t.cores = s.cores
  next : s.nextCrew ≤ t.nextCrew
  crew : t.crew s.cur.crew = { s.crew s.cur.crew with threads := (t.crew s.cur.crew).threads, map := (t.crew s.cur.crew).map }
  thr : ∀ l, l < 32 → l ∉ ls → (t.crew s.cur.crew).thr l = (s.crew s.cur.crew).thr l
  lane : ∀ r l, r < 64 → l < 32 → l ∉ ls → (t.crew s.cur.crew).lane r l = (s.crew s.cur.crew).lane r l

theorem Regroups.refl (s : State) (ls : List Nat) : Regroups s s ls :=
  ⟨rfl, rfl, Nat.le_refl _, rfl, fun _ _ _ => rfl, fun _ _ _ _ _ => rfl⟩

theorem Regroups.trans {s t u : State} {l : Nat} {ls : List Nat} (h : Regroups s t [l]) (h' : Regroups t u ls) : Regroups s u (l :: ls) where
  cur := h'.cur.trans h.cur
  cores := h'.cores.trans h.cores
  next := Nat.le_trans h.next h'.next
  crew := by
    have hc := h'.crew
    rw [h.cur, h.crew] at hc
    exact hc
  thr k hk hm := by
    obtain ⟨h1, h2⟩ := not_or.1 (mt List.mem_cons.2 hm)
    have ht := h'.thr k hk h2
    rw [h.cur] at ht
    exact ht.trans (h.thr k hk fun hx => h1 (List.mem_singleton.1 hx))
  lane r k hr hk hm := by
    obtain ⟨h1, h2⟩ := not_or.1 (mt List.mem_cons.2 hm)
    have ht := h'.lane r k hr hk h2
    rw [h.cur] at ht
    exact ht.trans (h.lane r k hr hk fun hx => h1 (List.mem_singleton.1 hx))

/-- What REGROUP has made of a lane: it traps and the thread stays, or the thread is gone and the lane is clear. -/
def State.laneGone (s t : State) (l : Nat) (e : Eff) : Prop :=
  (e = trapped causeSpawn 0 ∧ (t.crew s.cur.crew).thr l = (s.crew s.cur.crew).thr l) ∨
    (e = { pc := .kept } ∧ (t.crew s.cur.crew).thr l = {} ∧ ∀ r, r < 64 → (t.crew s.cur.crew).rd r l = 0)

theorem State.crew_emptyLane (b : State) (crew l : Nat) :
    (b.emptyLane crew l).crew crew = ((b.crew crew).clearLane l .released).setThr l {} := State.crew_setCrew _ _ _

theorem State.thr_emptyLane (b : State) (crew l : Nat) {k : Nat} (hk : k < 32) :
    ((b.emptyLane crew l).crew crew).thr k = if k = l then {} else (b.crew crew).thr k := by
  rw [State.crew_emptyLane, Crew.thr_setThr _ _ _ hk]
  rfl

theorem State.lane_emptyLane_ne (b : State) (crew : Nat) {l r k : Nat} (hr : r < 64) (hk : k < 32) (hne : k ≠ l) :
    ((b.emptyLane crew l).crew crew).lane r k = (b.crew crew).lane r k := by
  rw [State.crew_emptyLane]
  exact (Crew.lane_clearLane _ l .released hr hk).trans (if_neg hne)

theorem State.rd_emptyLane (b : State) (crew : Nat) {l r : Nat} (hr : r < 64) (hl : l < 32) :
    ((b.emptyLane crew l).crew crew).rd r l = 0 := by
  rw [State.crew_emptyLane]
  exact Crew.rd_clearLane _ .released hr hl

/-- One lane's REGROUP. -/
theorem State.regroupLane_spec {s : State} (hlt : s.cur.crew < s.nextCrew) (key : Reg) (marked : Bool) (entry : Dword) (timer : Nat) {l : Nat}
    (hl : l < 32) : Regroups s (s.regroupLane key marked entry timer l).1 [l] ∧
      s.laneGone (s.regroupLane key marked entry timer l).1 l (s.regroupLane key marked entry timer l).2 := by
  cases h : s.regroupBin key marked entry timer l with
  | none =>
    rw [State.regroupLane_of_none h]
    exact ⟨Regroups.refl s [l], .inl ⟨rfl, rfl⟩⟩
  | some b =>
    have hb := State.broods_enterBin h
    have hcrew := hb.crews _ hlt
    rw [State.regroupLane_of_some h]
    refine ⟨⟨hb.cur, hb.cores, hb.next, ?_, fun k hk hm => ?_, fun r k hr hk hm => ?_⟩, .inr ⟨rfl, ?_, fun r hr => State.rd_emptyLane b _ hr hl⟩⟩
    · rw [State.crew_emptyLane, hcrew]; rfl
    · rw [State.thr_emptyLane b _ l hk, if_neg fun he => hm (List.mem_singleton.2 he), hcrew]
    · rw [State.lane_emptyLane_ne b _ hr hk fun he => hm (List.mem_singleton.2 he), hcrew]
    · rw [State.thr_emptyLane b _ l hl, if_pos rfl]

/-- The lanes' REGROUPs, one after the other. -/
theorem State.regroupLanes_spec {f : State → Nat → State × Eff}
    (hf : ∀ (s : State) l, s.cur.crew < s.nextCrew → l < 32 → Regroups s (f s l).1 [l] ∧ s.laneGone (f s l).1 l (f s l).2)
    {ls : List Nat} (hnd : ls.Nodup) (h32 : ∀ l ∈ ls, l < 32) {s b : State} (hlt : s.cur.crew < s.nextCrew) {es : Tab Eff}
    (h : s.eachLane (fun s l => some (f s l)) ls = some (b, es)) :
    Regroups s b ls ∧ (∀ l ∈ ls, s.laneGone b l (tget {} es l)) ∧ ∀ l e, (l, e) ∈ es → l ∈ ls ∧ tget {} es l = e := by
  induction ls generalizing s es with
  | nil =>
    obtain ⟨rfl, rfl⟩ := State.eachLane_nil h
    exact ⟨Regroups.refl _ _, fun l hl => absurd hl List.not_mem_nil, fun l e he => absurd he List.not_mem_nil⟩
  | cons l ls ih =>
    obtain ⟨hl, hnd'⟩ := List.nodup_cons.1 hnd
    obtain ⟨fs, rfl, hfs⟩ := State.eachLane_cons h
    have hl32 := h32 l List.mem_cons_self
    obtain ⟨hstep, hgone⟩ := hf s l hlt hl32
    obtain ⟨hrest, hlanes, hlist⟩ := ih hnd' (fun k hk => h32 k (List.mem_cons_of_mem l hk))
      (hstep.cur ▸ Nat.lt_of_lt_of_le hlt hstep.next) hfs
    have hthr := hrest.thr
    have hlane := hrest.lane
    rw [hstep.cur] at hthr hlane
    refine ⟨hstep.trans hrest, fun k hk => ?_, fun k e hk => ?_⟩
    · rw [tget]
      split
      · next he =>
        subst he
        unfold State.laneGone at hgone ⊢
        rw [hthr l hl32 hl]
        refine hgone.imp_right fun ⟨h1, h2, h3⟩ => ⟨h1, h2, fun r hr => ?_⟩
        rw [Crew.rd, hlane r l hr hl32 hl]
        exact h3 r hr
      · next he =>
        have hkls : k ∈ ls := (List.mem_cons.1 hk).resolve_left fun e => he e.symm
        have hk' := hlanes k hkls
        unfold State.laneGone at hk' ⊢
        rw [hstep.cur, hstep.thr k (h32 k hk) fun hx => he (List.mem_singleton.1 hx).symm] at hk'
        exact hk'
    · rcases List.mem_cons.1 hk with he | hmem
      · obtain ⟨rfl, rfl⟩ := Prod.mk.inj he
        exact ⟨List.mem_cons_self, if_pos rfl⟩
      · obtain ⟨hkls, hget⟩ := hlist k e hmem
        exact ⟨List.mem_cons_of_mem l hkls, (if_neg fun he : l = k => hl (he ▸ hkls)).trans hget⟩

/-- The lanes of G that have no meeting (R345). -/
def State.going (s : State) : Mask := maskOf fun l => s.inG l && (s.thrAt l).stack.isEmpty

theorem State.mem_going (s : State) (l : Nat) : l ∈ lanesOf s.going ↔ s.inG l = true ∧ (s.thrAt l).stack = [] := by
  rw [mem_lanesOf, State.going, getLsbD_maskOf, Bool.and_eq_true, Bool.and_eq_true, decide_eq_true_eq, List.isEmpty_iff]
  exact ⟨fun h => h.2, fun h => ⟨mask_lt (m := s.active) h.1, h⟩⟩

/-- The lanes of G that have a meeting. -/
def State.meets (s : State) : Mask := maskOf fun l => s.inG l && !(s.thrAt l).stack.isEmpty

theorem State.getLsbD_meets {s : State} {l : Nat} (hl : s.inG l = true) : s.meets.getLsbD l = !(s.thrAt l).stack.isEmpty := by
  rw [State.meets, getLsbD_maskOf, hl, decide_eq_true (mask_lt (m := s.active) hl), Bool.true_and, Bool.true_and]

theorem State.active_and_not_meets (s : State) : s.active &&& ~~~s.meets = s.going :=
  BitVec.eq_of_getLsbD_eq fun l hl => by
    rw [BitVec.getLsbD_and, BitVec.getLsbD_not, State.meets, State.going, getLsbD_maskOf, getLsbD_maskOf, decide_eq_true hl]
    show (s.inG l && _) = _
    cases s.inG l <;> simp

/-- The lanes of G whose futures REGROUP waits for. -/
theorem State.regroup_waits_none {s : State} (h : ∀ l, s.inG l = true → (s.thrAt l).stack = [] → s.curCrew.allPending l = []) :
    (maskOf fun l => s.active.getLsbD l && !s.meets.getLsbD l && !(s.curCrew.allPending l).isEmpty) = 0 := by
  refine maskOf_eq_zero fun l _ => ?_
  cases hG : s.active.getLsbD l with
  | false => rfl
  | true =>
    rw [State.getLsbD_meets hG]
    cases hs : (s.thrAt l).stack with
    | nil => rw [h l hG hs]; rfl
    | cons id ids => rfl

/-- The effect of REGROUP in a lane of G: a thread that has a meeting traps. -/
def State.regroupEffect (s : State) (es : Tab Eff) (l : Nat) : Eff :=
  if (s.thrAt l).stack = [] then tget {} es l else trapped causeRegroupMeet 0

/-- REGROUP runs its lanes' moves at once when none of them waits. -/
theorem regroup_body {s b : State} {a : Reg} {entry : BitVec 24} {t : BitVec 8} {es : Tab Eff}
    (hready : ∀ l, s.inG l = true → (s.thrAt l).stack = [] → s.curCrew.allPending l = [] ∧ s.fenced 1 s.cur.crew l = true)
    (hes : s.eachLane (fun s l => some (s.regroupLane a (s.cur.lu.getLsbD 0) (s.packetsOn entry) (timerCycles t) l)) (lanesOf s.going) = some (b, es)) :
    ∃ body, exec (.regroup a entry t) s = .next (s.issue { a := [a.toNat], visible := true } body) ∧
      body s s.active = .done b (perLane fun l => if s.meets.getLsbD l then trapped causeRegroupMeet 0 else tget {} es l) := by
  refine ⟨_, rfl, ?_⟩
  have hwaits := State.regroup_waits_none fun l hl hs => (hready l hl hs).1
  have hall : (lanesOf s.going).all (fun l => s.fenced 1 s.cur.crew l) = true := List.all_eq_true.2 fun l hl =>
    (hready l ((s.mem_going l).1 hl).1 ((s.mem_going l).1 hl).2).2
  have hmeets : (maskOf fun l => s.active.getLsbD l && !(s.curCrew.thr l).stack.isEmpty) = s.meets := rfl
  dsimp only
  rw [hmeets, hwaits, State.active_and_not_meets, hall]
  simp only [bne_self_eq_false, Bool.false_eq_true, if_false, if_true, offTarget_eq, hes]

theorem State.regroupEffect_eq {s : State} {l : Nat} (hl : s.inG l = true) (es : Tab Eff) :
    (perLane fun l => if s.meets.getLsbD l then trapped causeRegroupMeet 0 else tget {} es l).getD l {} = s.regroupEffect es l := by
  rw [State.getD_perLane_inG hl, State.getLsbD_meets hl, State.regroupEffect]
  cases (s.thrAt l).stack <;> rfl

/-- What REGROUP has left in the lanes of G. -/
structure RegroupDone (s b : State) (es : Tab Eff) : Prop where
  regroups : Regroups s b (lanesOf s.going)
  gone : ∀ l ∈ lanesOf s.going, s.laneGone b l (tget {} es l)
  listed : ∀ l e, (l, e) ∈ es → l ∈ lanesOf s.going ∧ tget {} es l = e

/-- A lane of G that traps holds its thread as it was. -/
theorem RegroupDone.thr_of_trap {s b : State} {es : Tab Eff} (h : RegroupDone s b es) {l : Nat} (hl : s.inG l = true)
    (ht : (s.regroupEffect es l).trap.isSome = true) : (b.crew s.cur.crew).thr l = (s.crew s.cur.crew).thr l := by
  by_cases hgo : l ∈ lanesOf s.going
  · rw [State.regroupEffect, if_pos ((s.mem_going l).1 hgo).2] at ht
    rcases h.gone l hgo with ⟨-, hthr⟩ | ⟨he, -⟩
    · exact hthr
    · rw [he] at ht; cases ht
  · exact h.regroups.thr l (mask_lt (m := s.active) hl) hgo

theorem RegroupDone.plain {s b : State} {es : Tab Eff} (h : RegroupDone s b es) {l : Nat} (hl : s.inG l = true) :
    (s.regroupEffect es l).plain := by
  unfold State.regroupEffect
  split
  · next hs =>
    rcases h.gone l ((s.mem_going l).2 ⟨hl, hs⟩) with ⟨he, -⟩ | ⟨he, -⟩ <;> (rw [he]; exact ⟨rfl, rfl⟩)
  · exact ⟨rfl, rfl⟩

/-- Once every lane of the crew has exited, none of G has trapped: a lane that traps holds a READY thread. -/
theorem RegroupDone.no_trap {s b : State} {es : Tab Eff} (h : RegroupDone s b es) (hs : s.standing = true)
    (hdone : (b.crew s.cur.crew).allExited = true) {l : Nat} (hl : s.inG l = true) : (s.regroupEffect es l).trap = none := by
  obtain ⟨-, -, hready, -⟩ := State.standing_spec hs
  cases ht : (s.regroupEffect es l).trap with
  | none => rfl
  | some w =>
    have hlane := List.all_eq_true.1 hdone l ((mem_laneList l).2 (mask_lt (m := s.active) hl))
    have hst : ((s.crew s.cur.crew).thr l).state = .ready := hready l (State.inG_inGroup hl)
    rw [h.thr_of_trap hl (by rw [ht]; rfl), Thread.isLive, hst] at hlane
    cases hlane

/-- A REGROUP after which no lane of its crew lives on: the crew leaves its core. -/
theorem regroup_leaves {s b : State} {a : Reg} {entry : BitVec 24} {t : BitVec 8} {es : Tab Eff}
    (hp : s.poised { a := [a.toNat], visible := true } = true) (ha : s.active ≠ 0)
    (hready : ∀ l, s.inG l = true → (s.thrAt l).stack = [] → s.curCrew.allPending l = [] ∧ s.fenced 1 s.cur.crew l = true)
    (hes : s.eachLane (fun s l => some (s.regroupLane a (s.cur.lu.getLsbD 0) (s.packetsOn entry) (timerCycles t) l)) (lanesOf s.going) = some (b, es))
    (h : RegroupDone s b es) (hdone : (b.crew s.cur.crew).allExited = true) :
    ∃ u, exec (.regroup a entry t) s = .next u ∧ (u.crew s.cur.crew).gone = true ∧ u.mem = b.mem := by
  obtain ⟨hst, -⟩ := State.poised_spec hp
  obtain ⟨-, hgone, -⟩ := State.standing_spec hst
  obtain ⟨body, hx, hbody⟩ := regroup_body (b := b) hready hes
  obtain ⟨u, hissue, hrest, -, hret⟩ := State.issue_leaves hp ha hbody (fun l hl => State.regroupEffect_eq hl es) rfl
    (fun l hl => h.no_trap hst hdone hl) (fun l hl => (h.plain hl).2) h.regroups.cur hdone
  have hugone : (u.crew s.cur.crew).gone = false := by rw [hret.frame, h.regroups.crew]; exact hgone
  refine ⟨_, hx.trans (congrArg Host.Outcome.next hissue), ?_, ?_⟩
  · rw [State.crew_crewLeaves hugone, if_pos rfl]; rfl
  · obtain ⟨x, y, he⟩ := State.crewLeaves_with hugone
    rw [he, hrest]

/-- A REGROUP after which lanes of its crew live on retires. -/
theorem regroup_retires {s b : State} {a : Reg} {entry : BitVec 24} {t : BitVec 8} {es : Tab Eff}
    (hp : s.poised { a := [a.toNat], visible := true } = true) (ha : s.active ≠ 0)
    (hready : ∀ l, s.inG l = true → (s.thrAt l).stack = [] → s.curCrew.allPending l = [] ∧ s.fenced 1 s.cur.crew l = true)
    (hes : s.eachLane (fun s l => some (s.regroupLane a (s.cur.lu.getLsbD 0) (s.packetsOn entry) (timerCycles t) l)) (lanesOf s.going) = some (b, es))
    (h : RegroupDone s b es) (hlive : (b.crew s.cur.crew).allExited = false) :
    ∃ u, exec (.regroup a entry t) s = .next u ∧ Retires s b u { a := [a.toNat], visible := true } (s.regroupEffect es) := by
  obtain ⟨hst, -⟩ := State.poised_spec hp
  obtain ⟨hcore, hgone, hrdy, -⟩ := State.standing_spec hst
  obtain ⟨body, hx, hbody⟩ := regroup_body (b := b) hready hes
  obtain ⟨l, hl, hl'⟩ := List.all_eq_false.1 hlive
  have hnone : ({ a := [a.toNat], visible := true } : Operands).allocs - s.drawn.length = 0 := Nat.zero_sub _
  have hr : s.room { a := [a.toNat], visible := true } = true := by rw [State.room, hnone]; exact Bool.or_true _
  have hcores : ∀ n, b.core n = s.core n := fun n => by rw [State.core, h.regroups.cores]; rfl
  refine ⟨_, hx, s.issue_retires b _ body _ _ hp hr (fun _ => hbody) (fun h0 => absurd h0 ha) (fun k hk => State.regroupEffect_eq hk es)
    (fun _ => ?_) h.regroups.cur ?_ ?_ ?_ ?_ ?_ ⟨l, (mem_laneList l).1 hl, ?_⟩ (fun k hk x hx => ?_) (fun _ r hx => absurd hx List.not_mem_nil)
    (fun k hk hx => ?_)⟩
  · rw [hnone]; rfl
  · rw [State.cycleOf, h.regroups.crew, hcores]; rfl
  · rw [h.regroups.crew]; exact hcore
  · rw [h.regroups.crew]; rfl
  · rw [h.regroups.crew]; exact hgone
  · rw [h.regroups.crew]; rfl
  · have hlv : ((b.crew s.cur.crew).thr l).isLive = true := by simpa using hl'
    split
    · refine isLive_threadAfter s hlv ?_ _
      split
      · next hG => exact (h.plain hG).2
      · rfl
    · exact hlv
  · rw [(h.plain hk).1] at hx
    cases hx
  · have hst' : ((s.crew s.cur.crew).thr k).state = .ready := hrdy k (State.inG_inGroup hk)
    rw [h.thr_of_trap hk hx, hst']
    exact ThreadState.noConfusion

/-! ### Where a thread goes, and one lane's SPAWN and REGROUP, as the rules say -/

/-- Another cluster than the one that changes. -/
theorem State.only_setCluster (s : State) (cl : Nat) (v : Cluster) :
    (∀ n, n ≠ cl → (s.setCluster cl v).cluster n = s.cluster n) ∧ (s.setCluster cl v).cluster cl = v :=
  ⟨fun _ hn => State.cluster_setCluster_ne _ _ hn, State.cluster_setCluster _ _ _⟩

theorem State.launch_spillInto (s : State) (cl lid : Nat) (y : Spilled) :
    (s.spillInto cl lid y).launch lid = { s.launch lid with spill := (s.launch lid).spill ++ [y] } := by
  rw [State.spillInto, State.launch, State.setCluster]
  exact State.launch_setLaunch _ _ _

/-- The memory in which a spilled thread is written. -/
theorem State.read_spills {s : State} {cl lid : Nat} (y : Spilled) (k : Nat) (x : Brooded) (hwf : Memory.wf s.mem = true) (a : Nat) :
    Memory.read ((s.spillInto cl lid y).saveBrooded lid k x).mem a =
      ((s.launch lid).broodAreas[k / 128]?).elim (Memory.read s.mem a) fun f =>
        (slotByte f k a).elim (Memory.read s.mem a) fun i => x.bytes.getD i 0 := by
  have hareas : ((s.spillInto cl lid y).launch lid).broodAreas = (s.launch lid).broodAreas := by
    rw [State.launch_spillInto]
  have hmem : (s.spillInto cl lid y).mem = s.mem := rfl
  cases h : (s.launch lid).broodAreas[k / 128]? with
  | none =>
    rw [State.saveBrooded_none ((congrArg (·[k / 128]?) hareas).trans h)]
    rfl
  | some f => rw [State.read_saveBrooded ((congrArg (·[k / 128]?) hareas).trans h) x hwf a, hmem, Option.elim_some]

/-- A thread enters its bin: it is the 32nd, or waits there. -/
theorem State.enterBin_joins {s : State} {cl lid : Nat} {spawned : Bool} {entry : Dword} {key : Word} (timer : Nat) (x : Brooded)
    {i : Nat} {g : Bin} (h : s.binFor cl lid spawned entry key = some (i, g)) :
    (g.threads.length < 31 → s.enterBin cl lid spawned entry key timer x = some (s.joinBin cl i g x)) ∧
      (g.threads.length = 31 → s.enterBin cl lid spawned entry key timer x =
        some ((s.joinBin cl i g x).hatch cl i ((s.joinBin cl i g x).hatchFuel cl))) :=
  ⟨fun hlt => (State.enterBin_of_bin h).trans (congrArg some (if_neg (by omega))),
    fun heq => (State.enterBin_of_bin h).trans (congrArg some (if_pos (by omega)))⟩

/-! ### One lane's REGROUP, as the rules say -/

/-- A key that is not of the group any more is noted in the thread's status (R125). -/
theorem Crew.readsReleased_one (c : Crew) (r l : Nat) : c.readsReleased [r] l = ((c.lane r l).st == .released) := by
  rw [Crew.readsReleased, List.any_cons, List.any_nil, Bool.or_false]

/-- Settles O14: where a thread goes, what one lane of SPAWN and of REGROUP does, and the two instructions, whose lanes act one after the other. -/
theorem spawnAndRegroup : Obligations.SpawnAndRegroup := by
  unfold Obligations.SpawnAndRegroup
  refine ⟨?_, ?_, ?_, spawn_lanesAct, ?_⟩
  · intro s cl lid timer spawned entry key x
    refine ⟨fun i g hbin => ?_, fun i hbin hspot => ?_, fun hbin hspot => ?_⟩
    · obtain ⟨hjoin, hhatch⟩ := State.enterBin_joins timer x (hbin : s.binFor cl lid spawned entry key = some (i, g))
      exact ⟨fun hlt => ⟨_, hjoin hlt, rfl, State.only_setCluster _ _ _⟩, fun heq hnil _ => ⟨_, hhatch heq, State.hatches_joinBin i x hnil⟩⟩
    · exact ⟨_, State.enterBin_of_free hbin hspot, rfl, State.only_setCluster _ _ _⟩
    · have hfull := State.enterBin_of_full (timer := timer) (x := x) (hbin : s.binFor cl lid spawned entry key = none) hspot
      split
      · next hlt =>
        obtain ⟨hframe, honly, hothers, hlaunch⟩ := State.spills_of_full (s := s) (cl := cl) (lid := lid) (timer := timer) (spawned := spawned)
          (entry := entry) (key := key) (x := x)
        refine ⟨_, (s.launch lid).spillSlot, hfull.trans (if_pos hlt), hframe, honly, hothers, hlaunch, (s.launch lid).spillSlot_free, fun hwf a => ?_⟩
        have hread := State.read_spills (cl := cl) (lid := lid) (s.spilling cl lid timer spawned entry key x) (s.launch lid).spillSlot x hwf a
        refine hread.trans ?_
        cases (s.launch lid).broodAreas[(s.launch lid).spillSlot / 128]? with
        | none => rfl
        | some f =>
          rw [Option.elim_some, slotByte]
          dsimp only
          generalize ((List.range 512).find? fun i => cellOf (f * 65536 + (s.launch lid).spillSlot % 128 * 512 + i) false == a) = o
          cases o <;> rfl
      · next hge => exact hfull.trans (if_neg hge)
  · intro s a n entry timer l
    exact ⟨State.spawnLane_of_none, fun b hlt h => State.spawnLane_of_some hlt h⟩
  · intro s key marked entry timer l hl
    have hx : s.regroupBin key marked entry timer l = s.enterBin s.curCrew.cluster s.curCrew.launch false entry (s.curCrew.rd key.toNat l) timer
        { thr := { s.thrAt l with
            state := .brood, fence := none, got := none, waitG := 0, passBar := false
            tstat := if (s.curCrew.lane key.toNat l).st = .released then (s.thrAt l).tstat ||| 1 else (s.thrAt l).tstat }
          regs := s.curCrew.travels l key marked, stepping := s.curCrew.stepping } := by
      rw [State.regroupBin, State.regrouping, Crew.readsReleased_one]
      simp only [beq_iff_eq]
    refine ⟨fun h => State.regroupLane_of_none (hx.trans h), fun b h => ?_⟩
    rw [State.regroupLane_of_some (hx.trans h)]
    exact ⟨rfl, rfl, fun k hk => State.crew_setCrew_ne _ _ hk, (State.thr_emptyLane b _ l hl).trans (if_pos rfl),
      fun w hw => State.rd_emptyLane b _ hw hl,
      fun k hk hne => ⟨(State.thr_emptyLane b _ l hk).trans (if_neg hne), fun w hw => State.lane_emptyLane_ne b _ hw hk hne⟩⟩
  · intro a entry t s o hp ha hlt hready go
    obtain ⟨b, es, hes⟩ := State.eachLane_some (fun s l => s.regroupLane a (s.cur.lu.getLsbD 0) (s.packetsOn entry) (timerCycles t) l) (lanesOf s.going) s
    obtain ⟨h1, h2, h3⟩ := State.regroupLanes_spec (fun s l hlt hl => s.regroupLane_spec hlt a (s.cur.lu.getLsbD 0) (s.packetsOn entry) (timerCycles t) hl)
      (List.nodup_range.filter _) (fun l hl => mask_lt ((mem_lanesOf _ l).1 hl)) hlt hes
    have hdone : RegroupDone s b es := ⟨h1, h2, h3⟩
    refine ⟨b, es, hes, fun l hl hs e he htrap => ?_, ite_of_bool (regroup_leaves hp ha hready hes hdone) (regroup_retires hp ha hready hes hdone)⟩
    obtain ⟨hgo, hget⟩ := h3 l e he
    rcases h2 l hgo with ⟨he', -⟩ | ⟨-, hthr, hrd⟩
    · rw [hget] at he'
      rw [he'] at htrap
      cases htrap
    · exact ⟨by rw [hthr], hrd⟩

end
end Sys2Proof.Machine

namespace Sys2Proof.Machine

section

/-! ### The eviction of a crew whose area is no frame of the device (R115, R226)

An eviction area is a frame number, and nothing in the statement bounds it by the device's 2^23 frames. The number of a DRAM cell takes bits 36
to 38 of an address for the stack and drops those above (R115), so that frame 2^23 has the cells of frame 0: what is written to the area is read
back from it, and yet lies in cells that belong to another frame. -/

/-- A crew that is ready to leave core 0, with the word 1 in w1 of lane 0, and with the first frame number behind the device's as its area. -/
def farCrew : Crew :=
  { core := some 0, leaving := true, area := some (2 ^ 23)
    map := setAt 64 none [] 1 (some { bank := some 0, lanes := [live 1] }) }

/-- A machine in which that crew is the only one, and memory is clear. -/
def farArea : State := { crews := [(0, farCrew)] }

theorem readyVictim_farArea : farArea.readyVictim 0 = some 0 := by decide +kernel

theorem length_saved_farCrew : farCrew.saved.length ≤ 32768 := by decide +kernel

/-- The cell in which the word of w1 is saved lies in no cell of the area's frame number. -/
theorem not_inFrame_farCrew : inFrame (2 ^ 23) false (farCrew.evictCell (256 * 1) + 4 * 0) = false := by decide +kernel

/-- Refutes O58: when the crew of `farArea` is evicted, the word 1 of its register is read from its eviction area, in a cell that the statement
says has kept its 0, for the area's number is that of no frame of the device. -/
theorem not_launchEvents : ¬ Obligations.LaunchEvents := by
  intro h
  obtain ⟨-, -, -, -, -, -, -, -, hevict, -⟩ := h
  obtain ⟨t, -, -, -, harea, -⟩ := hevict farArea 0 0 readyVictim_farArea rfl length_saved_farCrew
  obtain ⟨houtside, hsaved, -⟩ := harea (2 ^ 23) rfl
  have hword := (hsaved 1 { bank := some 0, lanes := [live 1] } (by decide) rfl rfl).1 0 (by decide) rfl
  have hone : Memory.read t.mem (farCrew.evictCell (256 * 1) + 4 * 0) = 1 := (List.cons.inj hword).1
  have hzero : Memory.read t.mem (farCrew.evictCell (256 * 1) + 4 * 0) = 0 := houtside _ not_inFrame_farCrew
  exact absurd (hone.symm.trans hzero) (by decide)

end
end Sys2Proof.Machine

namespace Sys2Proof.Machine

section

/-! # The registers and the retirement of instructions -/

/-! ### The state after reset (R54, R55, R152, R249) -/

/-- No core of the reset state is listed, so that each is the reset core. -/
@[simp] theorem State.core_reset (n : Nat) : State.reset.core n = {} := rfl

theorem State.freeRegs_reset (n : Nat) : State.reset.freeRegs n = 1024 := rfl

theorem getD_replicate_of_lt {α : Type} {n k : Nat} (h : k < n) (x d : α) : (List.replicate n x).getD k d = x := by
  rw [List.getD_eq_getElem _ _ (by simpa using h), List.getElem_replicate]

theorem State.numbered_reset : State.reset.numbered :=
  ⟨fun _ he => absurd he List.not_mem_nil, fun _ hc => absurd hc List.not_mem_nil⟩

/-- Settles O33: the reset state lists no part, so that every part reads as its reset record. -/
theorem resetState : Obligations.ResetState := by
  refine ⟨⟨rfl, rfl, rfl, rfl, rfl, rfl, rfl, rfl, rfl, rfl, rfl, rfl, rfl, rfl, rfl, fun n => ?_⟩, State.reset_memory, State.numbered_reset⟩
  refine ⟨rfl, State.freeRegs_reset n, rfl, fun k hk => ?_, fun k hk => ?_⟩
  · exact getD_replicate_of_lt hk _ _
  · exact getD_replicate_of_lt hk _ _

end

end Sys2Proof.Machine

namespace Sys2Proof.Machine

section

/-! ### What a step runs (R59, R65, R77, R225) -/

section
variable {s : State} {n : Nat}

/-- A step that nothing has been sent to runs the next core's turn, when no event of the module's own can happen. -/
theorem step_turn (hi : s.inbox = []) (ht : s.tripped = false) (ha : s.agenda = none) (hn : s.nextCore = some n) :
    step s = match s.nextHead n with
      | some k => stepHead s n k
      | none => match s.nextEarly n with
        | some e => stepEarly s n e
        | none => match s.best n with
          | none => .next (s.tick n)
          | some g => stepIssue (s.charge n g) n g := by
  unfold step
  simp only [hi, ht, ha, hn]
  rfl

theorem step_event {e : Instr} {rest : List Instr} (hi : s.inbox = e :: rest) (he : isEvent e = true) (hl : s.lets e = true) :
    step s = exec e { s with inbox := rest } := by
  unfold step
  simp only [hi, he, hl, Bool.and_self, if_true]

theorem step_agenda {e : Instr} {p : Nat} (hi : s.inbox = []) (ht : s.tripped = false) (ha : s.agenda = some (e, p)) :
    step s = exec e { s with nmCur := p } := by
  unfold step
  simp only [hi, ht, ha]
  rfl

theorem step_round (hi : s.inbox = []) (ht : s.tripped = false) (ha : s.agenda = none) (hn : s.nextCore = none) :
    step s = .next s.round := by
  unfold step
  simp only [hi, ht, ha, hn]
  rfl

/-- The core whose turn it is, once the oldest entry of a crew has been tried (R225). -/
def State.tries (s : State) (n k : Nat) : State := { s.setCore n { s.core n with tried := k :: (s.core n).tried } with turn := n }

theorem stepHead_eq {k : Nat} {e : RobEntry} {es : List RobEntry} (hr : (s.crew k).rob = e :: es) :
    stepHead s n k = exec e.issue.instr { s.tries n k with cur := { e.issue with entry := true } } := by
  have hr' : ((s.tries n k).crew k).rob = e :: es := hr
  unfold stepHead
  dsimp only
  split
  · next h => rw [show (s.crew k).rob = [] from h] at hr; cases hr
  · next y _ h =>
    rw [show (s.crew k).rob = y :: _ from h] at hr
    cases hr
    rfl

theorem stepEarly_eq {k j : Nat} {e : RobEntry} (hr : (s.crew k).rob[j]? = some e) :
    stepEarly s n (k, j) = exec e.issue.instr { s with cur := { e.issue with early := some j }, turn := n } := by
  unfold stepEarly
  rw [hr]

end

/-- Settles O34, branch by branch of the step. -/
theorem stepRunsDecoded : Obligations.StepRunsDecoded := by
  refine ⟨fun _ _ _ hi he hl => step_event hi he hl, fun s hi ht => ⟨fun _ _ => step_agenda hi ht, step_round hi ht, fun n ha hn => ?_⟩⟩
  have hturn := step_turn hi ht ha hn
  refine ⟨fun k e es hh hr => ⟨s.tries n k, rfl, fun m hm => State.core_setCore_ne _ _ hm, State.core_setCore _ _ _, ?_⟩,
    fun k j e hh hy hr => ?_, fun hh hy => ⟨fun hb => ?_, fun g hb => ?_⟩⟩
  · rw [hturn, hh]
    exact stepHead_eq hr
  · rw [hturn, hh, hy]
    exact stepEarly_eq hr
  · rw [hturn, hh, hy, hb]
  · rw [hturn, hh, hy, hb]
    unfold stepIssue
    dsimp only
    generalize (s.charge n g).target n ((s.charge n g).asidOf g.crew) g.pc = x
    cases x with
    | error c => rfl
    | ok p => dsimp only; generalize p.fetch (slotIdx g.pc) = y; cases y <;> rfl

end

end Sys2Proof.Machine

namespace Sys2Proof

section

/-! ### The checks of a slot (R47, R66, R68, R70, R74, R76) -/

theorem need_eq_nil (ok : Bool) (r : Reason) : need ok r = [] ↔ ok = true := by
  cases ok <;> simp [need]

theorem lowest_eq_none (rs : List Reason) : lowest rs = none ↔ rs = [] := by
  cases rs with
  | nil => simp [lowest]
  | cons r rs => unfold lowest; cases lowest rs <;> simp

/-- The lowest of several reasons is one of them, with the lowest number. -/
theorem lowest_least {rs : List Reason} {r : Reason} (h : lowest rs = some r) : r ∈ rs ∧ ∀ q ∈ rs, r.number ≤ q.number := by
  induction rs generalizing r with
  | nil => cases h
  | cons x xs ih =>
    unfold lowest at h
    cases hx : lowest xs with
    | none =>
      rw [hx] at h
      cases h
      rw [lowest_eq_none] at hx
      simp [hx]
    | some y =>
      rw [hx] at h
      obtain ⟨hy, hmin⟩ := ih hx
      cases h
      simp only [List.mem_cons, forall_eq_or_imp]
      by_cases hle : x.number ≤ y.number
      · rw [if_pos hle]
        exact ⟨.inl rfl, Nat.le_refl _, fun q hq => hle.trans (hmin q hq)⟩
      · rw [if_neg hle]
        exact ⟨.inr hy, by omega, hmin⟩

/-- The opcode of a word that is not wide is none of R68's. -/
theorem opcode_ne_of_not_wide {w : Word} (h : wideOpcode w = false) (n : Nat)
    (hn : n ∈ [0x3a, 0x81, 0x83, 0xab, 0xac, 0xb6, 0xc0, 0xc1]) : (fieldsOf w).op.toNat ≠ n := by
  intro he
  have hop : w.extractLsb' 24 8 = BitVec.ofNat 8 n := by
    apply BitVec.eq_of_toNat_eq
    rw [show (w.extractLsb' 24 8).toNat = n from he, BitVec.toNat_ofNat]
    have := (w.extractLsb' 24 8).isLt
    rw [show (w.extractLsb' 24 8).toNat = n from he] at this
    omega
  unfold wideOpcode at h
  rw [hop] at h
  simp only [List.mem_cons, List.not_mem_nil, or_false] at hn
  obtain rfl | rfl | rfl | rfl | rfl | rfl | rfl | rfl := hn <;> exact absurd h (by decide)

theorem decode3_ext {lo : Nat} (h : lo ≠ 10) (f : Fields) (x y : Word) : decode3 lo f x = decode3 lo f y := by
  unfold decode3
  split
  case h_7 => exact absurd rfl h
  all_goals rfl

theorem decode8_ext {lo : Nat} (h1 : lo ≠ 1) (h3 : lo ≠ 3) (f : Fields) (x y : Word) : decode8 lo f x = decode8 lo f y := by
  unfold decode8
  split
  case h_2 => exact absurd rfl h1
  case h_4 => exact absurd rfl h3
  all_goals rfl

theorem decodeA_ext {lo : Nat} (h1 : lo ≠ 11) (h2 : lo ≠ 12) (f : Fields) (x y : Word) : decodeA lo f x = decodeA lo f y := by
  unfold decodeA
  split
  case h_12 => exact absurd rfl h1
  case h_13 => exact absurd rfl h2
  all_goals rfl

theorem decodeB_ext {lo : Nat} (h : lo ≠ 6) (f : Fields) (x y : Word) : decodeB lo f x = decodeB lo f y := by
  unfold decodeB
  split
  case h_7 => exact absurd rfl h
  all_goals rfl

theorem decodeC_ext {lo : Nat} (h0 : lo ≠ 0) (h1 : lo ≠ 1) (f : Fields) (x y : Word) : decodeC lo f x = decodeC lo f y := by
  unfold decodeC
  split
  case h_1 => exact absurd rfl h0
  case h_2 => exact absurd rfl h1
  all_goals rfl

/-- Only the words of wide opcodes are read with the word of the slot after them (R68). -/
theorem decode_ext {w : Word} (h : wideOpcode w = false) (x y : Word) : decode w x = decode w y := by
  have hop := opcode_ne_of_not_wide h
  unfold decode decodeFields
  dsimp only
  split
  case h_4 hi => exact decode3_ext (fun h => hop 0x3a (by decide) (by omega)) _ _ _
  case h_8 hi => exact decode8_ext (fun h => hop 0x81 (by decide) (by omega)) (fun h => hop 0x83 (by decide) (by omega)) _ _ _
  case h_9 hi => exact decodeA_ext (fun h => hop 0xab (by decide) (by omega)) (fun h => hop 0xac (by decide) (by omega)) _ _ _
  case h_10 hi => exact decodeB_ext (fun h => hop 0xb6 (by decide) (by omega)) _ _ _
  case h_11 hi => exact decodeC_ext (fun h => hop 0xc0 (by decide) (by omega)) (fun h => hop 0xc1 (by decide) (by omega)) _ _ _
  all_goals rfl

/-- The word that a slot's instruction takes as its extension may as well be that of the next slot. -/
theorem Packet.decode_extensionOf {p : Packet} {n : Nat} (h : wideOpcode (p.slot n) = p.marksWide n) :
    decode (p.slot n) (p.extensionOf n) = decode (p.slot n) (p.slot (n + 1)) := by
  unfold Packet.extensionOf
  cases hw : p.marksWide n with
  | true => rfl
  | false => exact decode_ext (h.trans hw) _ _

theorem Packet.ctlReasons_eq_nil (p : Packet) :
    p.ctlReasons = [] ↔ p.ctl.extractLsb' 30 2 = 0 ∧ p.ctl.getLsbD 0 = false ∧ p.ext ≠ 3 := by
  unfold Packet.ctlReasons
  simp only [List.append_eq_nil_iff, need_eq_nil, beq_iff_eq, Bool.and_eq_true, Bool.not_eq_true', bne_iff_ne]

theorem guardOk_iff (g : BitVec 6) :
    guardOk g = true ↔ (g.extractLsb' 0 4 = 0 ∨ g.extractLsb' 0 4 = 15 → g.extractLsb' 4 2 = 0) := by
  unfold guardOk
  simp only [Bool.or_eq_true, Bool.not_eq_true', beq_iff_eq, Bool.or_eq_false_iff, beq_eq_false_iff_ne]
  tauto

/-- A slot that holds an instruction gives no reason, and its instruction is i, exactly when every check passes. -/
theorem Packet.slotReasons_eq_nil {p : Packet} {n : Nat} (hx : p.isExtension n = false) (i : Instr) :
    (p.slotReasons n = [] ∧ decode (p.slot n) (p.extensionOf n) = .ok i) ↔
      wideOpcode (p.slot n) = p.marksWide n ∧ decode (p.slot n) (p.slot (n + 1)) = .ok i ∧ i.wf = true ∧
      lastUseOk i (p.lu n) = true ∧ guardOk (p.guard n) = true := by
  unfold Packet.slotReasons
  simp only [hx, Bool.false_eq_true, if_false, List.append_eq_nil_iff, need_eq_nil, beq_iff_eq, Instr.wf]
  constructor
  · rintro ⟨⟨⟨hw, hd⟩, hg⟩, hi⟩
    rw [hi, List.append_eq_nil_iff, need_eq_nil] at hd
    exact ⟨hw, Packet.decode_extensionOf hw ▸ hi, hd.1, hd.2, hg⟩
  · rintro ⟨hw, hi, hwf, hl, hg⟩
    have hi' := (Packet.decode_extensionOf hw).trans hi
    refine ⟨⟨⟨hw, ?_⟩, hg⟩, hi'⟩
    rw [hi', List.append_eq_nil_iff, need_eq_nil]
    exact ⟨hwf, hl⟩

theorem Packet.fetch_eq_ok (p : Packet) (n : Nat) (x : Slotted) :
    p.fetch n = .ok x ↔ p.ctlReasons ++ p.slotReasons n = [] ∧ decode (p.slot n) (p.extensionOf n) = .ok x.instr ∧
      x.guard = p.guard n ∧ x.lu = p.lu n ∧ x.wide = p.marksWide n := by
  obtain ⟨i, g, l, w⟩ := x
  unfold Packet.fetch
  cases hl : lowest (p.ctlReasons ++ p.slotReasons n) with
  | some r =>
    have hne : p.ctlReasons ++ p.slotReasons n ≠ [] := fun h => by rw [(lowest_eq_none _).2 h] at hl; cases hl
    simp [hne]
  | none =>
    have hnil := (lowest_eq_none _).1 hl
    cases hd : decode (p.slot n) (p.extensionOf n) with
    | error r => simp
    | ok j => simp [hnil, eq_comm]

theorem Packet.fetch_eq_error {p : Packet} {n : Nat} (hx : p.isExtension n = false) {r : Reason} (h : p.fetch n = .error r) :
    lowest (p.ctlReasons ++ p.slotReasons n) = some r := by
  unfold Packet.fetch at h
  cases hl : lowest (p.ctlReasons ++ p.slotReasons n) with
  | some q => rw [hl] at h; cases h; rfl
  | none =>
    have hs := (List.append_eq_nil_iff.1 ((lowest_eq_none _).1 hl)).2
    rw [hl] at h
    unfold Packet.slotReasons at hs
    cases hd : decode (p.slot n) (p.extensionOf n) with
    | ok i => rw [hd] at h; cases h
    | error q => simp [hx, hd] at hs

/-- Settles O38: the decoder answers the lowest reason, and an instruction only where there is none. -/
theorem slotChecks : Obligations.SlotChecks := by
  intro p n hx
  refine ⟨fun x => ?_, fun r hr => lowest_least (Packet.fetch_eq_error hx hr)⟩
  have hslot := Packet.slotReasons_eq_nil hx x.instr
  rw [guardOk_iff] at hslot
  rw [Packet.fetch_eq_ok, List.append_eq_nil_iff, Packet.ctlReasons_eq_nil]
  constructor
  · rintro ⟨⟨⟨hgen, hres, hext⟩, hs⟩, hd, hfields⟩
    obtain ⟨hw, hi, hwf, hl, hg⟩ := hslot.1 ⟨hs, hd⟩
    exact ⟨hgen, hres, hext, hw, hi, hwf, hl, hg, hfields⟩
  · rintro ⟨hgen, hres, hext, hw, hi, hwf, hl, hg, hfields⟩
    obtain ⟨hs, hd⟩ := hslot.2 ⟨hw, hi, hwf, hl, hg⟩
    exact ⟨⟨⟨hgen, hres, hext⟩, hs⟩, hd, hfields⟩

end
end Sys2Proof

namespace Sys2Proof.Machine

section

/-! ### Instructions whose guard is false in every lane (R47, R263) -/

/-- Only an instruction without a destination has registers that differ from lane to lane (R282). -/
theorem operandsOf_lanes_or_dst (i : Instr) (s : State) : (operandsOf i s).lanes = [] ∨ (operandsOf i s).dst = [] := by
  cases i
  case bput => exact .inr rfl
  all_goals exact .inl rfl

/-- The marks of an instruction release none of its destinations (R51). -/
theorem not_mem_releasedAt {o : Operands} (h : o.lanes = [] ∨ o.dst = []) (lu : BitVec 3) (l r : Nat) (hr : r ∈ o.dst) : r ∉ o.releasedAt lu l := by
  obtain h | h := h
  · unfold Operands.releasedAt
    simp [h]
  · rw [h] at hr
    exact absurd hr List.not_mem_nil

section
variable {s : State}

theorem State.not_inG_of_inactive (h : s.active = 0) (l : Nat) : s.inG l = false := by
  unfold State.inG
  rw [h]
  exact BitVec.getLsbD_zero

/-- Only the lanes of G read their sources (R263). -/
theorem State.readsDead_of_not_inG {o : Operands} {l : Nat} (h : s.inG l = false) : s.readsDead o l = false := by
  unfold State.readsDead
  rw [h, Bool.false_and, Bool.false_and]

/-- Where no lane executes, the operands of an instruction make no difference. -/
theorem Retires.of_inactive {b t : State} {o o' : Operands} {eff : Nat → Eff} (ha : s.active = 0) (h : Retires s b t o eff) :
    Retires s b t o' eff :=
  have hG := State.not_inG_of_inactive ha
  { h with
    written := fun _ l _ _ _ hl => absurd hl (by rw [hG l]; exact Bool.false_ne_true)
    others := fun r l hr hl _ => by
      rw [h.others r l hr hl fun hl => absurd hl (by rw [hG l]; exact Bool.false_ne_true), hG l]
      rfl
    threads := fun l hl => by
      rw [h.threads l hl, State.readsDead_of_not_inG (hG l), State.readsDead_of_not_inG (hG l)] }

/-- Nothing stands in the way of an instruction whose guard is false in every lane but its place in the crew and its port. -/
theorem State.poised_of_inactive {o : Operands} (hst : s.standing = true) (hhead : s.atHead o = true) (ha : s.active = 0) : s.poised o = true := by
  have hG := State.not_inG_of_inactive ha
  unfold State.poised State.unblocked
  simp [hst, hhead, hG, ha]

/-- An oldest entry that has not executed, or an instruction that issues with no entry before it in a cycle in which no bank has been read. -/
theorem State.atHead_of {o : Operands} (he : s.cur.early = none) (hr : s.headResult = none)
    (h : s.cur.entry = true ∨ ((s.core s.curCore).clash = [] ∧ s.curCrew.rob = [])) : s.atHead o = true := by
  unfold State.atHead
  rw [he, hr]
  obtain h | ⟨hc, hrob⟩ := h
  · simp [h]
  · rw [show (s.core s.curCrew.lastCore).clash = [] from hc, hrob]
    simp

/-- An instruction at the head whose guard is false in every lane retires without effect, whatever its body (R263). -/
theorem State.issue_inactive {o : Operands} (body : State → Mask → Body) (hst : s.standing = true) (hhead : s.atHead o = true)
    (ha : s.active = 0) (ho : o.lanes = [] ∨ o.dst = []) : Retires s s (s.issue o body) {} fun _ => {} := by
  obtain ⟨hcore, hgone, hready, l, hl, hin, -⟩ := State.standing_spec hst
  have hp := State.poised_of_inactive hst hhead ha
  have hG := State.not_inG_of_inactive ha
  refine Retires.of_inactive (o := o) ha (State.issue_retires s s o body [] (fun _ => {}) hp ?_ (absurd ha) (fun _ => rfl)
    (fun _ _ => rfl) id rfl rfl hcore rfl hgone rfl ⟨l, hl, ?_⟩ (fun _ _ _ hx => absurd hx List.not_mem_nil)
    (fun _ _ => not_mem_releasedAt ho _ _ _) fun _ _ h => absurd h Bool.false_ne_true)
  · rw [State.room, ha]
    rfl
  · rw [if_pos hin, hG l]
    exact isLive_threadAfter s ((State.steady_refl hst).awake l hin).1 rfl _

end

/-- Nothing stops an instruction that stands before no BAR of a debugger's step (R257). -/
theorem State.stepStops_of_notStepped {s : State} (h : s.notStepped) : s.stepStops = 0 :=
  State.stepStops_eq_zero (h.imp id (Or.imp id fun h l hl => h l (mask_lt (m := s.cur.mask) hl) hl))

/-- Settles O39: every instruction issues with its own operands, and without a lane that executes these do nothing. -/
theorem guardFalse : Obligations.GuardFalse := by
  refine ⟨fun _ _ => rfl, fun i hi s hst ha hns he hr h => ?_⟩
  obtain ⟨body, hx⟩ := exec_issues i hi s (State.stepStops_of_notStepped hns)
  exact ⟨_, hx, State.issue_inactive body hst (State.atHead_of he hr h) ha (operandsOf_lanes_or_dst i s)⟩

end
end Sys2Proof.Machine

namespace Sys2Proof.Machine

section

/-! ### What may be allocated depends on the crews' registers, entries and places alone (R54 to R56) -/

/-- A crew but for what its threads hold beside their states. -/
def Crew.outline (c : Crew) : Crew := { c with threads := c.threads.map fun t => { state := t.state } }

/-- The crews of a table, but for what their threads hold beside their states. -/
def outlines (t : Tab Crew) : Tab Crew := t.map fun e => (e.1, e.2.outline)

theorem tget_map_out {α β : Type} (f : α → β) (d : α) (t : Tab α) (k : Nat) :
    tget (f d) (t.map fun e => (e.1, f e.2)) k = f (tget d t k) := by
  induction t with
  | nil => rfl
  | cons e t ih =>
    rw [List.map_cons]
    simp only [tget]
    split
    · rfl
    · exact ih

/-- What is read of a table in a part that a change of its entries leaves alone. -/
theorem tget_map_part {α β : Type} (p : α → β) {f : Nat × α → Nat × α} (hkey : ∀ e, (f e).1 = e.1) (hp : ∀ e, p (f e).2 = p e.2)
    (d : α) (t : Tab α) (k : Nat) : p (tget d (t.map f) k) = p (tget d t k) := by
  induction t with
  | nil => rfl
  | cons e t ih =>
    rw [List.map_cons]
    simp only [tget, hkey]
    split
    · exact hp e
    · exact ih

theorem State.outline_crew (s : State) (k : Nat) : tget {} (outlines s.crews) k = (s.crew k).outline := tget_map_out Crew.outline {} s.crews k

section
variable {s t : State}

theorem State.outline_crew_eq (h : outlines t.crews = outlines s.crews) (k : Nat) : (t.crew k).outline = (s.crew k).outline := by
  rw [← State.outline_crew, h, State.outline_crew]

theorem Crew.state_outline (c : Crew) (l : Nat) : (c.outline.thr l).state = (c.thr l).state := by
  show ((c.threads.map fun t => ({ state := t.state } : Thread)).getD l {}).state = (c.threads.getD l {}).state
  rw [List.getD_eq_getElem?_getD, List.getD_eq_getElem?_getD, List.getElem?_map]
  cases c.threads[l]? <;> rfl

theorem State.outline_crewsOn (s : State) (n : Nat) : outlines (s.crewsOn n) = (outlines s.crews).filter fun e => e.2.core == some n := by
  unfold State.crewsOn outlines
  rw [List.filter_map]
  rfl

theorem State.outline_crewsOn_eq (h : outlines t.crews = outlines s.crews) (n : Nat) : outlines (t.crewsOn n) = outlines (s.crewsOn n) := by
  rw [State.outline_crewsOn, h, State.outline_crewsOn]

/-- A test of crews that their outlines pass alike says the same of crews that are alike. -/
theorem all_crewsOn_eq (h : outlines t.crews = outlines s.crews) (n : Nat) (p q : Nat × Crew → Bool)
    (hpq : ∀ k c d, c.outline = d.outline → p (k, c) = q (k, d)) : (t.crewsOn n).all p = (s.crewsOn n).all q := by
  have key : ∀ xs ys : Tab Crew, outlines xs = outlines ys → xs.all p = ys.all q := by
    intro xs
    induction xs with
    | nil => intro ys hy; cases ys with
      | nil => rfl
      | cons y ys => cases hy
    | cons x xs ih => intro ys hy; cases ys with
      | nil => cases hy
      | cons y ys =>
        obtain ⟨i, c⟩ := x
        obtain ⟨j, d⟩ := y
        obtain ⟨hij, hys⟩ := List.cons.inj hy
        obtain ⟨rfl, hcd⟩ := Prod.mk.inj hij
        rw [List.all_cons, List.all_cons, hpq i c d hcd, ih ys hys]
  exact key _ _ (State.outline_crewsOn_eq h n)

theorem State.bankUse_eq (h : outlines t.crews = outlines s.crews) (n b : Nat) : t.bankUse n b = s.bankUse n b := by
  have key : ∀ u : State, u.bankUse n b = ((outlines (u.crewsOn n)).map fun e => e.2.inBank b).sum := fun u => by
    unfold State.bankUse outlines
    rw [List.map_map]
    rfl
  rw [key, key, State.outline_crewsOn_eq h]

/-- What a crew may allocate depends on the crews' outlines and on the sizes of the pools. -/
theorem State.mayAllocate_eq (h : outlines t.crews = outlines s.crews) (hp : ∀ n, (t.core n).poolBanks = (s.core n).poolBanks) (k n : Nat) :
    t.mayAllocate k n = s.mayAllocate k n := by
  have hcrew := State.outline_crew_eq h
  have hcore : ∀ k, (t.crew k).core = (s.crew k).core := fun k => (congrArg Crew.core (hcrew k) :)
  have hseq : ∀ k, (t.crew k).seqKey = (s.crew k).seqKey := fun k => (congrArg Crew.seqKey (hcrew k) :)
  have hwait : ∀ k, (t.crew k).waitsSince = (s.crew k).waitsSince := fun k => (congrArg Crew.waitsSince (hcrew k) :)
  have hfree : ∀ m, t.freeRegs m = s.freeRegs m := fun m => by
    unfold State.freeRegs
    rw [hp]
    simp only [funext (State.bankUse_eq h m)]
  have hold : ∀ m j, t.isOldest m j = s.isOldest m j := fun m j => all_crewsOn_eq h m _ _ fun _ c d hcd => by
    rw [hseq, show c.seqKey = d.seqKey from (congrArg Crew.seqKey hcd :)]
  have hfirst : ∀ m j, t.firstWaiter m j = s.firstWaiter m j := fun m j => all_crewsOn_eq h m _ _ fun _ c d hcd => by
    rw [hwait, show c.waitsSince = d.waitsSince from (congrArg Crew.waitsSince hcd :), hold]
  unfold State.mayAllocate
  rw [hcore]
  simp only [hfree, hold, hfirst]

end

/-! ### What the accesses of a lane leave (R129 to R131, R137 to R140) -/

/-- What an access of a lane leaves: the instruction, the crews but for what their threads hold beside their states, the launches' options,
the clocks and pools of the cores, and what engines own and compute. -/
structure Accesses (s t : State) : Prop where
  cur : t.cur = s.cur
  crews : outlines t.crews = outlines s.crews
  control : ∀ n, (t.launch n).control = (s.launch n).control
  cycle : ∀ n, (t.core n).cycle = (s.core n).cycle
  pool : ∀ n, (t.core n).poolIdle = (s.core n).poolIdle
  owned : t.owned = s.owned
  pchs : t.pchs = s.pchs

section
variable {r s t : State}

theorem Accesses.refl (s : State) : Accesses s s := ⟨rfl, rfl, fun _ => rfl, fun _ => rfl, fun _ => rfl, rfl, rfl⟩

theorem Accesses.trans (h : Accesses r s) (h' : Accesses s t) : Accesses r t where
  cur := h'.cur.trans h.cur
  crews := h'.crews.trans h.crews
  control n := (h'.control n).trans (h.control n)
  cycle n := (h'.cycle n).trans (h.cycle n)
  pool n := (h'.pool n).trans (h.pool n)
  owned := h'.owned.trans h.owned
  pchs := h'.pchs.trans h.pchs

/-- An access that leaves the crews, the launches and the cores alone. -/
theorem Accesses.of_same (h : Accesses r s) (hcur : t.cur = s.cur) (hcrews : t.crews = s.crews) (hl : t.launches = s.launches)
    (hc : t.cores = s.cores) (ho : t.owned = s.owned) (hp : t.pchs = s.pchs) : Accesses r t :=
  h.trans ⟨hcur, by rw [hcrews], fun n => by unfold State.launch; rw [hl], fun n => by unfold State.core; rw [hc],
    fun n => by unfold State.core; rw [hc], ho, hp⟩

theorem Accesses.setCore (h : Accesses r s) {n : Nat} {c : Core} (hcycle : c.cycle = (s.core n).cycle) (hpool : c.poolIdle = (s.core n).poolIdle) :
    Accesses r (s.setCore n c) := by
  refine h.trans ⟨rfl, rfl, fun _ => rfl, fun m => ?_, fun m => ?_, rfl, rfl⟩ <;>
    · by_cases hm : m = n
      · subst hm; rw [State.core_setCore]; assumption
      · rw [State.core_setCore_ne _ _ hm]

theorem Accesses.holdTlb (h : Accesses r s) {core : Nat} {e : TlbEntry} : Accesses r (s.holdTlb core e) := by
  refine .of_same (s := s.setCore core _) (h.setCore ?_ ?_) rfl rfl rfl rfl rfl rfl <;> rfl

theorem Accesses.writeHome (h : Accesses r s) {cell : Nat} {data : List Byte} : Accesses r (s.writeHome cell data) :=
  h.of_same rfl rfl rfl rfl rfl rfl

theorem Accesses.markLine (h : Accesses r s) {line : Nat} : Accesses r (s.markLine line) := by
  refine h.trans ⟨rfl, rfl, fun _ => rfl, fun n => ?_, fun n => ?_, rfl, rfl⟩
  · refine tget_map_part Core.cycle ?_ ?_ {} s.cores n <;> exact fun _ => rfl
  · refine tget_map_part Core.poolIdle ?_ ?_ {} s.cores n <;> exact fun _ => rfl

theorem Accesses.applyHome (h : Accesses r s) {cell : Nat} {data : List Byte} : Accesses r (s.applyHome cell data).1 :=
  h.writeHome.markLine.of_same rfl rfl rfl rfl rfl rfl

theorem Accesses.fill (h : Accesses r s) {core lease va : Nat} {e : TlbEntry} : Accesses r (s.fill core lease e va) := by
  refine .of_same (s := s.setCore core _) (h.setCore ?_ ?_) rfl rfl rfl rfl rfl rfl <;> rfl

theorem Accesses.setWindow (h : Accesses r s) {core : Nat} {w : Window} : Accesses r (s.setWindow core w) := h.setCore rfl rfl

/-- WCT is no state of a thread, and the completion times of a launch no option of it (R130). -/
theorem Accesses.raiseWct (h : Accesses r s) {lid ct : Nat} {tid : Word} : Accesses r (s.raiseWct lid tid ct) := by
  refine h.trans ⟨rfl, ?_, fun n => ?_, fun _ => rfl, fun _ => rfl, rfl, rfl⟩
  · unfold outlines State.raiseWct
    dsimp only
    rw [List.map_map]
    refine List.map_congr_left fun e _ => ?_
    refine Prod.ext rfl ?_
    dsimp only [Function.comp_apply]
    split
    · unfold Crew.outline
      dsimp only
      rw [List.map_map]
      congr 1
      refine List.map_congr_left fun u _ => ?_
      dsimp only [Function.comp_apply]
      split <;> rfl
    · rfl
  · refine tget_map_part Launch.control ?_ ?_ {} s.launches n
    · exact fun _ => rfl
    · intro e
      dsimp only
      split <;> rfl

end

/-! ### Accesses none of which waits -/

theorem State.flights_raiseWct (s : State) (lid : Nat) (tid : Word) (ct : Nat) : (s.raiseWct lid tid ct).flights = s.flights := rfl
theorem State.flights_applyHome (s : State) (cell : Nat) (data : List Byte) : (s.applyHome cell data).1.flights = s.flights := rfl
theorem State.flights_holdTlb (s : State) (core : Nat) (e : TlbEntry) : (s.holdTlb core e).flights = s.flights := rfl

/-- An access that does not wait: a trap, or what an access leaves, with the stores that are on their way as they were, where that is asked. -/
def Done.Goes (s : State) (still : Prop) : Done → Prop
  | .wait => False
  | .trap _ => True
  | .ok t _ => Accesses s t ∧ (still → t.flights = s.flights)

theorem Done.Goes.ite {s : State} {still c : Prop} {inst : Decidable c} {d e : Done} (hd : d.Goes s still) (he : e.Goes s still) :
    (if c then d else e).Goes s still := by
  split <;> assumption

section
variable {s : State}

theorem State.inFlight_of_quiet (h : s.quietMemory) (core cell : Nat) : s.inFlight core cell = false := by
  obtain ⟨hf, -⟩ := h
  unfold State.inFlight
  rw [hf]
  rfl

theorem State.ownedBy_of_quiet (h : s.quietMemory) (cell n : Nat) : s.ownedBy cell n = false := by
  obtain ⟨-, ho, -⟩ := h
  unfold State.ownedBy
  rw [ho]
  rfl

theorem State.serves_of_quiet (h : s.quietMemory) (cell : Nat) : s.serves cell = true := by
  obtain ⟨-, -, hp⟩ := h
  unfold State.serves State.opens
  rw [hp]
  simp

theorem State.quiet_of_accesses {t : State} (h : s.quietMemory) (ha : Accesses s t) (hf : t.flights = s.flights) : t.quietMemory := by
  obtain ⟨h1, h2, h3⟩ := h
  refine ⟨hf.trans h1, ha.owned.trans h2, fun n => ?_⟩
  rw [← h3 n]
  unfold State.pch
  rw [ha.pchs]

theorem State.loadVirt_goes (h : s.quietMemory) (core asid : Nat) (dbg home : Bool) (va n : Nat) : (s.loadVirt core asid dbg home va n).Goes s True := by
  unfold State.loadVirt
  split
  · trivial
  · next e _ =>
    have hh := (Accesses.refl s).holdTlb (core := core) (e := e)
    have hq : (s.holdTlb core e).quietMemory := State.quiet_of_accesses h hh rfl
    dsimp only
    split
    · exact .ite trivial ⟨hh, fun _ => rfl⟩
    · rw [State.inFlight_of_quiet hq, State.ownedBy_of_quiet hq, State.serves_of_quiet hq, Bool.or_true, Bool.not_true, Bool.or_self, Bool.or_self,
        if_neg Bool.false_ne_true]
      refine .ite trivial (.ite trivial ?_)
      split
      · exact ⟨hh, fun _ => rfl⟩
      · exact ⟨hh.fill, fun _ => rfl⟩

theorem State.loadScratch_goes (core lid off n : Nat) : (s.loadScratch core lid off n).Goes s True :=
  .ite trivial (.ite trivial ⟨.refl s, fun _ => rfl⟩)

/-- A store waits for nothing unless it is applied at once (R141). -/
theorem State.storeVirt_goes {dbg : Bool} (h : dbg = true → s.quietMemory) (core asid lid : Nat) (tid : Word) (drop : Bool) (va : Nat)
    (data : List Byte) : (s.storeVirt core asid lid tid dbg drop va data).Goes s (dbg = true) := by
  unfold State.storeVirt
  split
  · trivial
  · next e _ =>
    have hh := (Accesses.refl s).holdTlb (core := core) (e := e)
    have hcore : ∀ cell, Accesses s ((s.holdTlb core e).setCore core
        (if drop then ((s.holdTlb core e).core core).setSector cell none else if e.uc then (s.holdTlb core e).core core
          else ((s.holdTlb core e).core core).storeL1 cell data)) := fun cell => by
      refine hh.setCore ?_ ?_ <;>
        · split
          · rfl
          · split
            · rfl
            · unfold Core.storeL1
              split <;> rfl
    dsimp only
    refine .ite ⟨hh.of_same rfl rfl rfl rfl rfl rfl, fun _ => rfl⟩ ?_
    cases dbg with
    | false => exact ⟨(hcore _).of_same rfl rfl rfl rfl rfl rfl, fun h => absurd h Bool.false_ne_true⟩
    | true =>
      have hq : (s.holdTlb core e).quietMemory := State.quiet_of_accesses (h rfl) hh rfl
      rw [State.inFlight_of_quiet hq, State.ownedBy_of_quiet hq, State.serves_of_quiet hq, Bool.not_true, Bool.or_self, Bool.or_self,
        if_neg Bool.false_ne_true, if_pos rfl]
      exact .ite trivial ⟨(hcore _).applyHome.raiseWct, fun _ => by
        rw [State.flights_raiseWct, State.flights_applyHome, State.setCore_flights, State.flights_holdTlb]⟩

theorem State.storeScratch_goes (core lid off : Nat) (data : List Byte) (still : Prop) : (s.storeScratch core lid off data).Goes s still :=
  .ite trivial ⟨(Accesses.refl s).setWindow, fun _ => rfl⟩

theorem State.atomVirt_goes (h : s.quietMemory) (core asid lid : Nat) (tid : Word) (dbg : Bool) (o : Nat) (b64 : Bool) (va x k : Nat) :
    (s.atomVirt core asid lid tid dbg o b64 va x k).Goes s True := by
  unfold State.atomVirt
  split
  · trivial
  · next e _ =>
    have hh := (Accesses.refl s).holdTlb (core := core) (e := e)
    have hq : (s.holdTlb core e).quietMemory := State.quiet_of_accesses h hh rfl
    dsimp only
    rw [State.inFlight_of_quiet hq, State.ownedBy_of_quiet hq, State.serves_of_quiet hq, Bool.not_true, Bool.or_self, Bool.or_self,
      if_neg Bool.false_ne_true]
    have hset : Accesses s ((s.holdTlb core e).setCore core (((s.holdTlb core e).core core).setSector (e.cell va) none)) := hh.setCore rfl rfl
    exact .ite trivial (.ite trivial ⟨hset.applyHome.raiseWct, fun _ => by
      rw [State.flights_raiseWct, State.flights_applyHome, State.setCore_flights, State.flights_holdTlb]⟩)

theorem State.atomScratch_goes (core lid o : Nat) (b64 : Bool) (off x k : Nat) : (s.atomScratch core lid o b64 off x k).Goes s True :=
  .ite trivial (.ite trivial ⟨(Accesses.refl s).setWindow, fun _ => rfl⟩)

end

/-! ### The lanes of a load, a store and an ATOM -/

/-- Values that a lane writes, and no thread that takes the lane's place. -/
def Eff.valued (e : Eff) : Prop := e.thr = none ∧ ∀ x ∈ e.w, x.slot = none ∨ x.pend = true

theorem valued_trapped (c : Word) (va : Dword) : (trapped c va).valued := ⟨rfl, fun _ h => absurd h List.not_mem_nil⟩
theorem valued_nothing : ({} : Eff).valued := ⟨rfl, fun _ h => absurd h List.not_mem_nil⟩

theorem valued_of_live {ws : List Lane} (h : ∀ x ∈ ws, ∃ v, x = live v) : ({ w := ws } : Eff).valued :=
  ⟨rfl, fun x hx => by obtain ⟨v, rfl⟩ := h x hx; exact .inl rfl⟩

/-- A lane that does not wait: what its access leaves, and values as its effect. -/
def LaneGoes (s : State) (still : Prop) (x : Option (State × Eff)) : Prop :=
  ∃ t e, x = some (t, e) ∧ Accesses s t ∧ (still → t.flights = s.flights) ∧ e.valued

/-- What becomes of a lane when its access is done: it waits, it takes the trap of the access, or it has an effect. -/
def Done.inLane (s : State) (va : Dword) (f : List Byte → Eff) : Done → Option (State × Eff)
  | .wait => none
  | .trap c => some (s, trapped c va)
  | .ok t bs => some (t, f bs)

/-- A lane whose access does not wait takes the trap of the access, or has an effect. -/
theorem Done.Goes.lane {s : State} {still : Prop} {d : Done} (h : d.Goes s still) (va : Dword) {f : List Byte → Eff} (hf : ∀ bs, (f bs).valued) :
    LaneGoes s still (d.inLane s va f) := by
  cases d with
  | wait => exact absurd h id
  | trap c => exact ⟨s, _, rfl, .refl s, fun _ => rfl, valued_trapped c va⟩
  | ok t bs => exact ⟨t, _, rfl, h.1, h.2, hf bs⟩

theorem live_of_mem_loadLanes {z : BitVec 3} {x : Bool} {bs : List Byte} {y : Lane} (h : y ∈ loadLanes z x bs) : ∃ v, y = live v := by
  unfold loadLanes at h
  split at h <;> simp only [List.mem_cons, List.not_mem_nil, or_false] at h
  · exact ⟨_, h⟩
  · exact ⟨_, h⟩
  · exact ⟨_, h⟩
  · obtain h | h := h <;> exact ⟨_, h⟩
  · obtain h | h | h | h := h <;> exact ⟨_, h⟩

theorem live_of_mem_live2 {v : Dword} {y : Lane} (h : y ∈ live2 v) : ∃ u, y = live u := by
  simp only [live2, List.mem_cons, List.not_mem_nil, or_false] at h
  obtain h | h := h <;> exact ⟨_, h⟩

section
variable {s : State}

theorem State.loadLane_goes (h : s.quietMemory) (a b : Reg) (z : BitVec 3) (p : BitVec 2) (x home : Bool) (off : Word) (l : Nat) :
    LaneGoes s True (s.loadLane a b z p x home off l) := by
  refine Done.Goes.lane ?_ _ (f := fun bs => { w := loadLanes z x bs }) fun bs => valued_of_live fun _ => live_of_mem_loadLanes
  generalize s.accessAt l a b z p off = w
  cases w with
  | trap c v => trivial
  | scratch o => exact State.loadScratch_goes _ _ _ _
  | virt va => exact State.loadVirt_goes h _ _ _ _ _ _

theorem State.storeLane_goes (h : s.curLaunch.dbgmx = true → s.quietMemory) (d a b : Reg) (z : BitVec 3) (p : BitVec 2) (drop : Bool)
    (off : Word) (l : Nat) : LaneGoes s (s.curLaunch.dbgmx = true) (s.storeLane d a b z p drop off l) := by
  refine Done.Goes.lane ?_ _ (f := fun _ => {}) fun _ => valued_nothing
  generalize s.accessAt l a b z p off = w
  cases w with
  | trap c v => trivial
  | scratch o => exact State.storeScratch_goes _ _ _ _ _
  | virt va => exact State.storeVirt_goes h _ _ _ _ _ _ _

theorem State.atomLane_goes (h : s.quietMemory) (d a b : Reg) (o : BitVec 4) (b64 scratch : Bool) (l : Nat) :
    LaneGoes s True (s.atomLane d a b o b64 scratch l) := by
  refine Done.Goes.lane ?_ _ (f := fun bs => { w := if b64 then live2 (BitVec.ofNat 64 (leNat bs)) else [live (BitVec.ofNat 32 (leNat bs))] })
    fun bs => valued_of_live fun y hy => ?_
  · generalize s.atomPlace l a b64 scratch = w
    cases w with
    | trap c v => trivial
    | scratch o => exact State.atomScratch_goes _ _ _ _ _ _ _
    | virt va => exact State.atomVirt_goes h _ _ _ _ _ _ _ _ _ _
  · cases b64 with
    | true => exact live_of_mem_live2 hy
    | false => exact ⟨_, List.mem_singleton.1 hy⟩

end

/-- What holds of a state in which no lane waits holds of what the lane leaves. -/
def LanesGo (f : State → Nat → Option (State × Eff)) (P : State → Prop) : Prop :=
  ∀ s l, P s → ∃ t e, f s l = some (t, e) ∧ Accesses s t ∧ P t ∧ e.valued

theorem lanesGo_of_quiet {f : State → Nat → Option (State × Eff)} (hf : ∀ s l, s.quietMemory → LaneGoes s True (f s l)) :
    LanesGo f State.quietMemory := fun s l h => by
  obtain ⟨t, e, hx, ha, hfl, he⟩ := hf s l h
  exact ⟨t, e, hx, ha, State.quiet_of_accesses h ha (hfl trivial), he⟩

/-- Stores wait for nothing unless the launch has the mixed-size debug option (R141). -/
def State.storesGo (s : State) : Prop := s.curLaunch.dbgmx = true → s.quietMemory

theorem lanesGo_of_store {f : State → Nat → Option (State × Eff)} (hf : ∀ s l, s.storesGo → LaneGoes s (s.curLaunch.dbgmx = true) (f s l)) :
    LanesGo f State.storesGo := fun s l h => by
  obtain ⟨t, e, hx, ha, hfl, he⟩ := hf s l h
  refine ⟨t, e, hx, ha, fun hm => ?_, he⟩
  have hlaunch : t.curCrew.launch = s.curCrew.launch := by
    unfold State.curCrew
    rw [ha.cur]
    exact (congrArg Crew.launch (State.outline_crew_eq ha.crews s.cur.crew) :)
  have hmix : s.curLaunch.dbgmx = true := by
    rw [← hm]
    unfold Launch.dbgmx State.curLaunch
    rw [hlaunch, ha.control]
  exact State.quiet_of_accesses (h hmix) ha (hfl hmix)

/-- Lanes none of which waits act all of them (R140). -/
theorem LanesGo.eachLane {f : State → Nat → Option (State × Eff)} {P : State → Prop} (hf : LanesGo f P) (ls : List Nat) {s : State} (h : P s) :
    ∃ b es, s.eachLane f ls = some (b, es) ∧ Accesses s b ∧ ∀ l, (tget {} es l).valued := by
  induction ls generalizing s with
  | nil => exact ⟨s, [], rfl, .refl s, fun _ => valued_nothing⟩
  | cons l ls ih =>
    obtain ⟨t, e, hx, ha, ht, he⟩ := hf s l h
    obtain ⟨b, es, hes, hb, hval⟩ := ih ht
    refine ⟨b, (l, e) :: es, ?_, ha.trans hb, fun k => ?_⟩
    · rw [State.eachLane, hx]
      dsimp only
      rw [hes]
    · rw [tget]
      split
      · exact he
      · exact hval k

/-- What an access leaves of the issuing crew. -/
theorem Accesses.crew_eq {s t : State} (h : Accesses s t) (k : Nat) : t.crew k = { s.crew k with threads := (t.crew k).threads } := by
  have he : { (t.crew k).outline with threads := (t.crew k).threads } = { (s.crew k).outline with threads := (t.crew k).threads } := by
    rw [State.outline_crew_eq h.crews]
  exact he

theorem Accesses.state_eq {s t : State} (h : Accesses s t) (k l : Nat) : ((t.crew k).thr l).state = ((s.crew k).thr l).state := by
  rw [← Crew.state_outline, State.outline_crew_eq h.crews, Crew.state_outline]

/-- An instruction whose body has its lanes act one after the other acts as its lanes do, when none of them waits. -/
theorem LanesGo.lanesAct {i : Instr} {o : Operands} {P more : State → Prop} {f : State → Nat → Option (State × Eff)} {why : Nat}
    (hf : LanesGo f P) (hP : ∀ s, more s → P s) (hlanes : o.lanes = [])
    (hx : ∀ s, more s → ∃ body, exec i s = .next (s.issue o body) ∧ body s s.active = match s.eachLane f (lanesOf s.active) with
      | none => .wait why
      | some (s', es) => .done s' (perLane fun l => tget {} es l)) : LanesAct i (fun _ => o) more f := by
  intro s hp hm
  obtain ⟨hst, -⟩ := State.poised_spec hp
  obtain ⟨hcore, hgone, hready, l, hl, hin, -⟩ := State.standing_spec hst
  obtain ⟨body, hexec, hbody⟩ := hx s hm
  obtain ⟨b, es, hes, ha, hval⟩ := hf.eachLane (lanesOf s.active) (hP s hm)
  rw [hes] at hbody
  have hlane : ∀ l, s.inG l = true → (perLane fun l => tget {} es l).getD l {} = tget {} es l := fun l hl => State.getD_perLane_inG hl _
  refine ⟨b, es, hes, fun hr => ⟨_, hexec, ?_⟩, fun hmay hw => ⟨_, hexec, ?_⟩⟩
  · have hcrew := ha.crew_eq s.cur.crew
    have hst' : ∀ l, ((b.crew s.cur.crew).thr l).state = (s.thrAt l).state := ha.state_eq s.cur.crew
    have hcore' : (b.crew s.cur.crew).core = some s.curCore := by rw [hcrew]; exact hcore
    refine State.issue_retires s b o body _ _ hp hr (fun _ => hbody) (fun h0 => ?_) hlane (fun h => ?_) ha.cur ?_ hcore' ?_ ?_ ?_
      ⟨l, hl, ?_⟩ (fun l _ => (hval l).2) (fun k r => not_mem_releasedAt (.inl hlanes) _ k r) fun l hl _ => ?_
    · rw [h0, lanesOf_zero] at hes
      cases hes
      rfl
    · rw [State.mayAllocate_eq ha.crews fun n => by rw [Core.poolBanks, ha.pool, Core.poolBanks]]
      exact h
    · unfold State.cycleOf
      rw [hcore', show (s.crew s.cur.crew).core = some s.curCore from hcore]
      exact ha.cycle _
    · rw [hcrew]; rfl
    · rw [hcrew]; exact hgone
    · rw [hcrew]; rfl
    · rw [if_pos hin]
      refine isLive_threadAfter s ?_ ?_ _
      · rw [Thread.isLive, hst', hready l hin]
        rfl
      · split
        · exact (hval l).1
        · rfl
    · rw [hst', hready l (State.inG_inGroup hl)]
      exact ThreadState.noConfusion
  · exact State.issue_waits s b o body _ _ hp (fun _ => hbody) hlane hmay hw

/-- A load, a store without a release, or an ATOM. -/
theorem LanesGo.memory {i : Instr} {o : Operands} {P : State → Prop} {f : State → Nat → Option (State × Eff)} (hf : LanesGo f P)
    (hlanes : o.lanes = []) (hx : ∀ s, exec i s = .next (s.memory o 4 f)) : LanesAct i (fun _ => o) P f :=
  hf.lanesAct (fun _ => id) hlanes fun s _ => ⟨_, hx s, rfl⟩

end
end Sys2Proof.Machine

namespace Sys2Proof.Machine

section

/-! ### What the oldest instruction of a crew does once nothing blocks it (R47 to R52, R58, R59) -/

/-- The lanes of G whose sources can be read (R52, R123). -/
def State.readers (s : State) (o : Operands) : Mask := maskOf fun l => s.inG l && s.readable o l

/-- What the reads of a lane of the issuing crew come to (R52, R123). -/
def State.cause (s : State) (o : Operands) (l : Nat) : Option (Word × Dword) :=
  s.curCrew.readTrap (s.curLaunch.control.getLsbD 7) (o.srcsAt l) (o.laneOf l)

/-- Whether a lane that reads and does not trap has a result that cannot be allocated in a state (R56). -/
def State.lacksRoom (s b : State) (o : Operands) (es : List Eff) : Bool :=
  (maskOf fun l => (s.readers o).getLsbD l && (effOf (s.cause o) es l).trap.isNone && !(effOf (s.cause o) es l).w.isEmpty) != 0 &&
    !b.mayAllocate s.cur.crew (o.allocs - s.drawn.length)

/-- What an instruction at the head leaves, given how its execution ends: it waits, its lanes stand in another state, or it retires. -/
def State.concludes (s : State) (o : Operands) : Body → State
  | .wait why => s.stall o why
  | .hold b m => b.setCrew s.cur.crew ((b.crew s.cur.crew).dropLanes m)
  | .done b es =>
    if s.lacksRoom b o es then (s.stall o 0).drawHead o
    else (if s.cur.entry then b else b.takeBanks s.curCore (o.banks s.curCrew)).commit o s.active (effOf (s.cause o) es)
      (maskOf (s.readsDead o)) s.cur.fresh

section
variable {s : State} {o : Operands}

/-- What unblocked says: the group stands on its core, its instruction is its crew's oldest, and no source is pending or spilled. -/
theorem State.unblocked_spec (h : s.unblocked o = true) :
    s.standing = true ∧ s.atHead o = true ∧ s.curCrew.pendingIn o s.active = 0 ∧
    (if s.active = 0 then none else s.curCrew.spilledOne (o.srcs ++ o.lanes.flatten ++ o.dst)) = none := by
  unfold State.unblocked at h
  simp only [Bool.and_eq_true, Bool.or_eq_true, beq_iff_eq] at h
  obtain ⟨⟨⟨hst, hhead⟩, hpend⟩, hspill⟩ := h
  refine ⟨hst, hhead, ?_, ?_⟩
  · unfold Crew.pendingIn
    obtain hpeek | hpend := hpend
    · rw [if_pos hpeek]
    · split
      · rfl
      · refine maskOf_eq_zero fun l hl => ?_
        have := List.all_eq_true.1 hpend l ((mem_laneList l).2 hl)
        rw [Bool.or_eq_true, Bool.not_eq_true', Bool.not_eq_true'] at this
        exact Bool.and_eq_false_iff.2 this
  · split
    · rfl
    · next ha =>
      refine List.find?_eq_none.2 fun r hr => ?_
      have := List.all_eq_true.1 (hspill.resolve_left ha) r hr
      cases hq : s.curCrew.reg r with
      | none => exact Bool.false_ne_true
      | some q => rw [hq] at this; simpa using this

theorem State.readable_iff (l : Nat) : s.readable o l = true ↔ s.cause o l = none := Option.isNone_iff_eq_none

theorem State.getLsbD_readers (l : Nat) : (s.readers o).getLsbD l = (s.inG l && s.readable o l) := by
  unfold State.readers
  rw [getLsbD_maskOf]
  cases hG : s.inG l with
  | false => simp
  | true => simp [mask_lt (m := s.active) hG]

/-- An instruction that nothing blocks runs its body once in the lanes that can read, if there is any (R47, R52, R123). -/
theorem State.issue_unblocked (h : s.unblocked o = true) (body : State → Mask → Body) :
    s.issue o body = s.concludes o (if s.readers o = 0 then .done s [] else body s (s.readers o)) := by
  obtain ⟨hst, hhead, hpend, hspill⟩ := State.unblocked_spec h
  obtain ⟨hcore, -⟩ := State.standing_spec hst
  obtain ⟨hiss, -⟩ := (State.issue_atHead hhead body).resolve_right fun h => h hcore
  have hcoreEq : s.curCrew.core.getD s.curCrew.lastCore = s.curCore := by rw [hcore]; rfl
  have hself : s.crew s.cur.crew = s.curCrew := rfl
  have hguard : s.curCrew.guarded s.cur = s.active := rfl
  rw [hiss]
  unfold State.executeHead
  dsimp only
  rw [hself, hguard, hpend, hspill, hcoreEq]
  rfl

end

end
end Sys2Proof.Machine

namespace Sys2Proof.Machine

section

/-! ### Fences (R133, R307) -/

theorem State.readers_of_poised {s : State} {o : Operands} (hp : s.poised o = true) : s.readers o = s.active := by
  obtain ⟨-, -, -, -, hread⟩ := State.poised_spec hp
  refine BitVec.eq_of_getLsbD_eq fun l _ => ?_
  rw [State.getLsbD_readers]
  show (s.inG l && _) = s.inG l
  cases hG : s.inG l with
  | false => rfl
  | true => exact State.readable_iff l |>.2 (hread l hG)

theorem State.unblocked_of_poised {s : State} {o : Operands} (hp : s.poised o = true) : s.unblocked o = true := by
  unfold State.poised at hp
  exact (Bool.and_eq_true _ _ ▸ hp).1

theorem State.fencedAll_iff (s : State) (k : Nat) :
    s.fencedAll k ↔ ((lanesOf s.active).all fun l => s.fenced k s.cur.crew l) = true := by
  unfold State.fencedAll
  rw [List.all_eq_true]
  exact forall_congr' fun l => by rw [State.mem_active]

/-- A fence that every lane of G has passed does nothing more. -/
theorem fence_executes {i : Instr} {k : Nat} (hx : ∀ s, exec i s = .next (s.fence k)) (more : State → Prop) (hm : ∀ s, more s → s.fencedAll k) :
    Executes i {} more (fun s => s) (fun _ _ => {}) :=
  executes_of_issue (fun s _ => hx s) rfl (fun s h => ⟨[], if_pos ((s.fencedAll_iff k).1 (hm s h)), fun _ _ => rfl⟩)
    (fun _ hp _ => State.steady_refl (State.poised_spec hp).1) (fun _ _ => rfl) (fun _ _ => rfl)

theorem Crew.threads_dropLanes (c : Crew) (m : Mask) (l : Nat) : (c.dropLanes m).thr l = c.thr l := by
  rw [Crew.dropLanes_frame]
  rfl

/-- A fence that some lane of G has not passed holds the lanes of G, and lets the others of the group go on (R47, R307). -/
theorem State.fence_holds {s : State} {k : Nat} (hp : s.poised {} = true) (hf : ¬ s.fencedAll k) :
    (s.fence k).mem = s.mem ∧ (s.fence k).cores = s.cores ∧ ∀ l, l < 32 → s.inGroup l = true →
      (((s.fence k).crew s.cur.crew).thr l).state = .ready ∧
      (((s.fence k).crew s.cur.crew).thr l).fence = (if s.inG l then some k else none) ∧
      (((s.fence k).crew s.cur.crew).thr l).pc = if s.inG l then (s.thrAt l).pc else s.nextPc := by
  obtain ⟨hst, -⟩ := State.poised_spec hp
  obtain ⟨-, -, hready, -⟩ := State.standing_spec hst
  have hact : s.active ≠ 0 := fun h0 => hf fun l hl => absurd hl (by rw [State.not_inG_of_inactive h0]; exact Bool.false_ne_true)
  have hfence : s.fence k = (s.fenceHold k s.active).setCrew s.cur.crew (((s.fenceHold k s.active).crew s.cur.crew).dropLanes s.cur.mask) := by
    unfold State.fence
    rw [State.issue_unblocked (State.unblocked_of_poised hp), State.readers_of_poised hp, if_neg hact,
      if_neg fun h => hf ((s.fencedAll_iff k).2 h)]
    rfl
  rw [hfence]
  refine ⟨rfl, rfl, fun l hl hin => ?_⟩
  rw [State.crew_setCrew, Crew.threads_dropLanes]
  unfold State.fenceHold
  dsimp only
  rw [State.crew_setCrew, Crew.thr_onMask _ _ _ hl, Crew.thr_onMask _ _ _ hl]
  have hG : s.active.getLsbD l = s.inG l := rfl
  have hM : s.cur.mask.getLsbD l = true := hin
  have hthr : (s.crew s.cur.crew).thr l = s.thrAt l := rfl
  rw [BitVec.getLsbD_and, BitVec.getLsbD_not, hG, hM, hthr, decide_eq_true hl]
  cases s.inG l with
  | true => exact ⟨hready l hin, rfl, rfl⟩
  | false => exact ⟨hready l hin, rfl, rfl⟩

theorem strel_lanesAct (d a b : Reg) (z : BitVec 3) (p : BitVec 2) : LanesAct (.strel d a b z p) (fun _ => opsStore d a b z p)
    (fun s => s.fencedAll 1 ∧ (s.curLaunch.dbgmx = true → s.quietMemory)) fun s l => s.storeLane d a b z p false 0 l := by
  have hgo : LanesGo (fun s l => s.storeLane d a b z p false 0 l) State.storesGo :=
    lanesGo_of_store fun s l h => s.storeLane_goes h d a b z p false 0 l
  exact hgo.lanesAct (fun s h => h.2) rfl fun s h => ⟨_, rfl, if_pos ((s.fencedAll_iff 1).1 h.1)⟩

theorem load_lanesAct {i : Instr} {d a b : Reg} {z : BitVec 3} {p : BitVec 2} {x home : Bool} {off : Word}
    (hx : ∀ s, exec i s = .next (s.load1 d a b z p x home off)) :
    LanesAct i (fun _ => opsLoad d a b z p) State.quietMemory fun s l => s.loadLane a b z p x home off l :=
  LanesGo.memory (lanesGo_of_quiet fun s l h => s.loadLane_goes h a b z p x home off l) rfl hx

theorem store_lanesAct {i : Instr} {d a b : Reg} {z : BitVec 3} {p : BitVec 2} {drop : Bool} {off : Word}
    (hx : ∀ s, exec i s = .next (s.store1 d a b z p drop off)) :
    LanesAct i (fun _ => opsStore d a b z p) (fun s => s.curLaunch.dbgmx = true → s.quietMemory) fun s l => s.storeLane d a b z p drop off l :=
  LanesGo.memory (lanesGo_of_store fun s l h => s.storeLane_goes h d a b z p drop off l) rfl hx

theorem atom_lanesAct (d a b : Reg) (o : BitVec 4) (w p : Bool) : LanesAct (.atom d a b o w p) (fun _ => opsAtom d a b o w p)
    State.quietMemory fun s l => s.atomLane d a b o w p l :=
  LanesGo.memory (lanesGo_of_quiet fun s l h => s.atomLane_goes h d a b o w p l) rfl fun _ => rfl

/-- Settles O15: no access waits in quiet memory, so that its lanes act in order; a fence waits for its lanes' completion times alone. -/
theorem memoryInstructions : Obligations.MemoryInstructions := by
  refine ⟨fun d a b z p x => load_lanesAct fun _ => rfl, fun d a b z p x off => load_lanesAct fun _ => rfl,
    fun d a b z p x => load_lanesAct fun _ => rfl, fun d a b z p x => load_lanesAct fun _ => rfl,
    fun d a b z p => store_lanesAct fun _ => rfl, fun d a b z p off => store_lanesAct fun _ => rfl,
    fun d a b z p => store_lanesAct fun _ => rfl, strel_lanesAct, atom_lanesAct,
    fence_executes (fun _ => rfl) _ fun _ _ _ _ => rfl, fence_executes (fun _ => rfl) _ fun _ h => h,
    fence_executes (fun _ => rfl) _ fun _ h => h, ?_⟩
  rintro i k (⟨rfl, rfl⟩ | ⟨rfl, rfl⟩) s hp hf
  · exact ⟨_, rfl, State.fence_holds hp hf⟩
  · exact ⟨_, rfl, State.fence_holds hp hf⟩

end
end Sys2Proof.Machine

namespace Sys2Proof.Machine

section

/-! ### Lanes that cannot read, in a state whose next crew number is the issuing crew's (R34, R36, R123, log 6)

The statement does not ask that crew numbers lie below the next one to be given. Where that number is the issuing crew's own, the bin that SPAWN fills in
one lane hatches into the issuing crew itself, and puts other threads in the place of the lanes that trap. -/

/-- A register whose lanes 16 to 31 are poisoned (R123). -/
def halfPoisoned : PReg := { bank := some 0, poisonHi := true, lanes := List.replicate 32 (live 7) }

/-- A crew on core 0 with threads in lanes 0 and 16, and that register as its w5. -/
def twoLaneCrew : Crew :=
  { core := some 0, threads := laneList.map fun l => if l = 0 ∨ l = 16 then { state := .ready } else {}
    map := setAt 64 none [] 5 (some halfPoisoned) }

/-- A bin of the cluster's SPAWN that one more thread fills (R34). -/
def bin31 : Bin := { entry := 4, threads := List.replicate 31 {} }

/-- A machine in which that crew has the number that the next one is given, and issues in both lanes. -/
def ownNumber : State := { dtime := 1, crews := [(0, twoLaneCrew)], clusters := [(0, { bins := [(0, bin31)] })], cur := { mask := 0x00010001 } }

theorem unblocked_ownNumber : ownNumber.unblocked (operandsOf (.spawn 5 1 0 0) ownNumber) = true := by decide +kernel

theorem readTrap_ownNumber : ownNumber.curCrew.readTrap (ownNumber.curLaunch.control.getLsbD 7)
    ((operandsOf (.spawn 5 1 0 0) ownNumber).srcsAt 16) ((operandsOf (.spawn 5 1 0 0) ownNumber).laneOf 16) = some (causePoison, 0) := by
  decide +kernel

/-- Whether an outcome records a trap, and leaves the thread of lane 16 at another address than 0. -/
def movesTrapped : Host.Outcome State Fault Refusal → Bool
  | .next t => !t.traps.isEmpty && (t.thrAt 16).pc != 0
  | _ => false

theorem exec_ownNumber : movesTrapped (exec (.spawn 5 1 0 0) ownNumber) = true := by decide +kernel

/-- Refutes O40: in `ownNumber` the SPAWN of lane 0 hatches a crew over the issuing one, so that lane 16, which takes POISON, does not keep its
program counter. -/
theorem not_sourceTraps : ¬ Obligations.SourceTraps := by
  intro h
  obtain ⟨-, -, -, -, -, hall⟩ := h
  obtain ⟨-, t, ht, hor⟩ := hall (.spawn 5 1 0 0) rfl ownNumber unblocked_ownNumber (.inr (.inl rfl))
  have hmoves := exec_ownNumber
  rw [ht, movesTrapped, Bool.and_eq_true, bne_iff_ne] at hmoves
  obtain ⟨htraps, hpc⟩ := hmoves
  obtain ⟨-, hnone⟩ | hkeep := hor
  · rw [hnone] at htraps
    exact absurd htraps (by decide)
  · obtain ⟨-, -, hsame⟩ := hkeep 16 causePoison 0 (by decide +kernel) readTrap_ownNumber
    exact hpc (hsame.trans (by decide +kernel))

end
end Sys2Proof.Machine

namespace Sys2Proof.Machine

section

/-! ### A branch behind unretired entries, in a state whose issued instruction is another (R59, R62)

The statement runs `exec i` from any state, and does not ask that `i` be the instruction that State.cur names. Whether the threads of an entry go
on at once is decided by the instruction that State.cur names: a branch that is run where that is NOP does not note the cycle. -/

/-- A crew of core 0 with a thread in lane 0 and one unretired entry of it, of the instruction NOP. -/
def nopBehind : Crew := { core := some 0, threads := [{ state := .ready }], rob := [{ issue := { mask := 1 } }] }

/-- A machine in cycle 1 of core 0, in which that entry executes. -/
def nopIssued : State := { crews := [(0, nopBehind)], cores := [(0, { cycle := 1 })], cur := { mask := 1, early := some 0 } }

/-- Whether an outcome leaves cycle 0 as that since which the thread of lane 0 is READY. -/
def leavesReadySince : Host.Outcome State Fault Refusal → Bool
  | .next t => (t.thrAt 0).readySince == 0
  | _ => false

theorem exec_nopIssued : leavesReadySince (exec (.br 0) nopIssued) = true := by decide +kernel

/-- Refutes O41: in `nopIssued` BR executes as an entry, and its thread is not READY since the cycle in which it does, as the statement has it. -/
theorem not_allocationAndBanks : ¬ Obligations.AllocationAndBanks := by
  intro h
  obtain ⟨-, -, -, -, -, -, -, hbr, -⟩ := h
  obtain ⟨hearly, -⟩ := hbr 0
  obtain ⟨t, r, more, since, ht, -, -, -, -, hthr⟩ := hearly nopIssued 0 { issue := { mask := 1 } } rfl rfl rfl rfl
    ⟨.inr fun l r _ hr => absurd hr List.not_mem_nil, fun _ r hr => absurd hr List.not_mem_nil⟩
  have hready : (t.thrAt 0).readySince = 1 := by
    rw [hthr 0 (by decide), if_pos ⟨rfl, rfl⟩]
    decide +kernel
  have hleaves := exec_nopIssued
  rw [ht, leavesReadySince, hready] at hleaves
  exact absurd hleaves (by decide)

end
end Sys2Proof.Machine

namespace Sys2Proof.Machine

section

/-! ### The spill of a pool, in a state that lists two crews under one number (R57)

A table of crews is a list of numbers and crews, and the statement does not ask that no number stands in it twice. What a core holds is read from
every entry of the list, and a crew by its number from the first: the register that is cold in the second entry is spilled in the first, where it
holds a pending future. -/

/-- The first crew under number 0: its w1 holds a pending future, so that it is not cold. -/
def futureCrew : Crew :=
  { core := some 0, area := some 0, map := setAt 64 none [] 1 (some { bank := some 0, lanes := [future 0] }) }

/-- The second crew under number 0: its w1 is cold, and an entry of it has drawn 319 registers. -/
def coldCrew : Crew :=
  { core := some 0, admitSeq := some 0, area := some 0, map := setAt 64 none [] 1 (some { bank := some 0, lanes := [live 7] })
    rob := [{ banks := List.replicate 319 0 }] }

/-- A machine whose core 0 holds both, with one pool bank, 191 free registers, and a pool that has been exhausted for 4096 cycles. -/
def twiceNumbered : State :=
  { crews := [(0, futureCrew), (0, coldCrew)], cores := [(0, { poolIdle := [some 0], exhausted := some 0, cycle := 4096 })] }

/-- Whether an outcome has w1 of crew 0 in its spill slot. -/
def spillsFuture : Host.Outcome State Fault Refusal → Bool
  | .next t => ((t.crew 0).reg 1).any (·.spilled)
  | _ => false

theorem exec_twiceNumbered : spillsFuture (exec (.poolSpill 0) twiceNumbered) = true := by decide +kernel

/-- Refutes O51: in `twiceNumbered` a register spills that holds a pending future. -/
theorem not_poolAndWindows : ¬ Obligations.PoolAndWindows := by
  intro h
  obtain ⟨-, -, -, -, hspill, -⟩ := h
  obtain ⟨t, ht, -, -, -, -, -, -, hreg, -⟩ := hspill twiceNumbered 0 0 rfl (by decide)
  have hspilled := exec_twiceNumbered
  rw [ht, spillsFuture] at hspilled
  have hold : (twiceNumbered.crew 0).reg 1 = some { bank := some 0, lanes := [future 0] } := rfl
  obtain hsame | ⟨p, hp, -, hpend, -⟩ := hreg 0 1 (by decide)
  · rw [hsame, hold] at hspilled
    exact absurd hspilled (by decide)
  · rw [hold] at hp
    cases hp
    exact absurd (hpend 0 (by decide)) (by decide)

end
end Sys2Proof.Machine


namespace Sys2Proof.Machine

section

/-! ### What kills a launch stays with it (R233) -/

/-- Each launch's cause of being killed is what it was. -/
def Causes (s t : State) : Prop := ∀ n, (t.launch n).killCause = (s.launch n).killCause

section
variable {r s : State}

theorem Causes.refl (s : State) : Causes s s := fun _ => rfl

theorem Causes.ite {c : Prop} {inst : Decidable c} {t : State} (hs : Causes r s) (ht : Causes r t) : Causes r (if c then s else t) := by
  split
  · exact hs
  · exact ht

theorem Causes.foldl {α : Type} {f : State → α → State} (hf : ∀ s x, Causes r s → Causes r (f s x)) (xs : List α) (h : Causes r s) :
    Causes r (xs.foldl f s) := by
  induction xs generalizing s with
  | nil => exact h
  | cons x xs ih => exact ih (hf s x h)

theorem Causes.setLaunch (h : Causes r s) {n : Nat} {x : Launch} (hx : x.killCause = (s.launch n).killCause) : Causes r (s.setLaunch n x) := by
  intro k
  rw [State.launch_setLaunch_eq, ← h k]
  split
  · next he => rw [hx, he]
  · rfl

theorem Causes.setCrew (h : Causes r s) {k : Nat} {c : Crew} : Causes r (s.setCrew k c) := h
theorem Causes.setCore (h : Causes r s) {n : Nat} {c : Core} : Causes r (s.setCore n c) := h
theorem Causes.wakeFutures (h : Causes r s) {n : Nat} : Causes r (s.wakeFutures n) := h
theorem Causes.setCluster (h : Causes r s) {k : Nat} {c : Cluster} : Causes r (s.setCluster k c) := h
theorem Causes.settleCore (h : Causes r s) {n : Nat} : Causes r (s.settleCore n) := fun k => by rw [State.launch_settleCore, h k]

/-! #### Commands and bins -/

theorem Causes.tellDependants (h : Causes r s) {id : Nat} {st : Word} : Causes r (s.tellDependants id st) := fun k =>
  (tget_map_part Launch.killCause (by intro _; rfl) (by intro _; rfl) {} s.launches k).trans (h k)

theorem Causes.finish (h : Causes r s) {id : Nat} {st : Word} : Causes r (s.finish id st) := by
  unfold State.finish
  split
  · exact h
  · refine Causes.settleCore (Causes.wakeFutures (Causes.setCore (Causes.tellDependants ?_)))
    exact h

theorem Causes.cancelLaunch (h : Causes r s) {lid : Nat} : Causes r (s.cancelLaunch lid) := by
  unfold State.cancelLaunch
  dsimp only
  split
  · exact h.setLaunch rfl
  · exact .ite h (h.setLaunch rfl)
  · exact h

theorem Causes.cancelCmd (h : Causes r s) {c : Cmd} : Causes r (s.cancelCmd c) := by
  unfold State.cancelCmd
  refine .ite ?_ h
  split
  · exact h.cancelLaunch
  · exact h.finish

theorem Causes.hatchCrew (h : Causes r s) {cl : Nat} {b : Bin} : Causes r (s.hatchCrew cl b) := fun k => by
  rw [State.hatchCrew_eq, State.enqueue_frame]
  exact (congrArg Launch.killCause (s.launch_takeArea _ k)).trans (h k)

theorem Causes.refillBin (h : Causes r s) {cl i : Nat} : Causes r (s.refillBin cl i) := by
  unfold State.refillBin
  split
  · exact h
  · exact h.setCluster.setLaunch rfl

theorem Causes.hatch (h : Causes r s) {cl i fuel : Nat} : Causes r (s.hatch cl i fuel) := by
  induction fuel generalizing s with
  | zero => exact h
  | succ fuel ih => exact .ite (.ite (ih h.setCluster.hatchCrew.refillBin) h.setCluster.hatchCrew.refillBin) h

theorem Causes.dropBins (h : Causes r s) {lid cl : Nat} : Causes r (s.dropBins lid cl) :=
  .foldl (fun _ _ h => .ite h.setCluster.refillBin.hatch h.setCluster.refillBin) _ h

/-! #### Threads that end -/

theorem Causes.onBarrier (h : Causes r s) {lid n : Nat} {f : Barrier → Barrier} : Causes r (s.onBarrier lid n f) := h.setLaunch rfl

theorem Causes.settleBarrier (h : Causes r s) {lid n fuel : Nat} : Causes r (s.settleBarrier lid n fuel) := by
  induction fuel generalizing s with
  | zero => exact h
  | succ fuel ih => exact .ite (ih (Causes.onBarrier (s := s.wakeBarrier _ _ _) h)) h

theorem Causes.leaveHerds (h : Causes r s) {lid : Nat} {ts : List Thread} : Causes r (s.leaveHerds lid ts) :=
  .foldl (fun _ _ h => h.settleBarrier) _ (.foldl (fun _ _ h => .foldl (fun _ _ h => h.onBarrier) _ h) _ h)

theorem Causes.freeWindows (h : Causes r s) {lid : Nat} {ts : List Thread} : Causes r (s.freeWindows lid ts) := h.setLaunch rfl

theorem Causes.leaveQueue (h : Causes r s) {k : Nat} : Causes r (s.leaveQueue k) := .ite h h

theorem Causes.crewLeaves (h : Causes r s) {k : Nat} : Causes r (s.crewLeaves k) := by
  unfold State.crewLeaves
  extract_lets +onlyGivenNames c x s₁
  have hs₁ : Causes r s₁ := h.setLaunch rfl
  clear_value s₁
  exact .ite h hs₁.leaveQueue.setCrew.settleCore.settleCore

theorem Causes.leaveIfDone (h : Causes r s) {k : Nat} : Causes r (s.leaveIfDone k) := .ite h.crewLeaves h

theorem Causes.endThreads (h : Causes r s) {k : Nat} {m : Mask} : Causes r (s.endThreads k m) :=
  h.setCrew.leaveHerds.freeWindows.settleCore

theorem Causes.exitLanes (h : Causes r s) {k : Nat} {m : Mask} : Causes r (s.exitLanes k m) := h.endThreads.leaveIfDone

theorem Causes.killCrew (h : Causes r s) {k : Nat} : Causes r (s.killCrew k) := h.setCluster.setCrew.exitLanes

end

/-- A running launch that has not been killed is killed with the cause (R233). -/
theorem State.killCause_killLaunch {s : State} {lid cause : Nat} (hr : (s.launch lid).phase = .running) (hk : (s.launch lid).killCause = none) :
    ((s.killLaunch lid cause).launch lid).killCause = some cause := by
  have hset : Causes (s.setLaunch lid { s.launch lid with killCause := some cause, spill := [] }) (s.killLaunch lid cause) := by
    unfold State.killLaunch
    extract_lets +onlyGivenNames x
    have hx : x.phase = .running := hr
    split
    case h_1 hp => exact absurd (hx.symm.trans hp) (by decide)
    case h_2 hp => exact absurd (hx.symm.trans hp) (by decide)
    case h_4 _ _ hp => exact absurd hx hp
    rw [hk, Option.isSome_none, if_neg Bool.false_ne_true]
    exact Causes.foldl (fun _ _ h => h.killCrew) _ (.foldl (fun _ _ h => h.dropBins) _
      (.foldl (fun _ _ h => h.cancelCmd) _ (Causes.refl (s.setLaunch lid { s.launch lid with killCause := some cause, spill := [] }))))
  rw [hset lid, State.launch_setLaunch]

end
end Sys2Proof.Machine


namespace Sys2Proof.Machine

section

/-! ### The eviction area of a crew (R226) -/

/-- A cell has its address's place in the 256 bytes that lie together (R115). -/
theorem cellOf_mod (pa : Nat) : cellOf pa false % 256 = pa % 256 := by
  unfold cellOf
  split
  · rfl
  · rw [cell_place]
    omega

/-- The slots of two registers in a crew's eviction area do not overlap. -/
theorem Crew.evictCell_disjoint (c : Crew) {r q : Nat} (hr : r < 64) (hq : q < 64) (hne : r ≠ q) :
    c.evictCell (256 * r) + 256 ≤ c.evictCell (256 * q) ∨ c.evictCell (256 * q) + 256 ≤ c.evictCell (256 * r) := by
  have hcell : c.evictCell (256 * r) ≠ c.evictCell (256 * q) := fun h => by
    unfold Crew.evictCell at h
    rw [Nat.add_assoc, Nat.add_assoc] at h
    have := cellOf_inj (by omega) (by omega) h
    omega
  have hmodr := cellOf_mod (c.area.getD 0 * 65536 + 16384 + 256 * r)
  have hmodq := cellOf_mod (c.area.getD 0 * 65536 + 16384 + 256 * q)
  unfold Crew.evictCell at hcell ⊢
  omega

/-- Bytes that memory holds one after the other. -/
theorem Memory.readN_eq {m : List Host.Cell} {a : Nat} {bs : List Byte} (h : ∀ i, i < bs.length → Memory.read m (a + i) = bs.getD i 0) :
    Memory.readN m a bs.length = bs := by
  induction bs generalizing a with
  | nil => rfl
  | cons b bs ih =>
    have hhead := h 0 (Nat.zero_lt_succ _)
    have htail := ih (a := a + 1) fun i hi => by
      rw [Nat.add_right_comm, Nat.add_assoc, h (i + 1) (Nat.succ_lt_succ hi), List.getD_cons_succ]
    rw [List.length_cons, Memory.readN, htail]
    exact congrArg (· :: bs) hhead

/-- Memory once the words of some lanes have been written to a cell. -/
def storeLanes (word : Nat → Word) (cell : Nat) (ls : List Nat) (m : List Host.Cell) : List Host.Cell :=
  ls.foldl (fun m l => Memory.writeN m (cell + 4 * l) (leBytes 4 (word l).toNat)) m

section
variable {word : Nat → Word} {cell : Nat} {m : List Host.Cell}

theorem wf_storeLanes (ls : List Nat) (hm : Memory.wf m = true) : Memory.wf (storeLanes word cell ls m) = true := by
  induction ls generalizing m with
  | nil => exact hm
  | cons l ls ih => exact ih (Memory.wf_writeN _ _ _ hm)

/-- A byte outside the words of the lanes stays. -/
theorem read_storeLanes_of_ne {ls : List Nat} {a : Nat} (h : ∀ l ∈ ls, ¬(cell + 4 * l ≤ a ∧ a < cell + 4 * l + 4)) (hm : Memory.wf m = true) :
    Memory.read (storeLanes word cell ls m) a = Memory.read m a := by
  induction ls generalizing m with
  | nil => rfl
  | cons l ls ih =>
    refine (ih (fun k hk => h k (List.mem_cons_of_mem l hk)) (Memory.wf_writeN _ _ _ hm)).trans ?_
    rw [Memory.read_writeN _ _ _ hm, length_leBytes, if_neg (h l List.mem_cons_self)]

/-- A lane's word is where it was written. -/
theorem read_storeLanes_of_mem {ls : List Nat} (hls : ls.Nodup) {l i : Nat} (hl : l ∈ ls) (hi : i < 4) (hm : Memory.wf m = true) :
    Memory.read (storeLanes word cell ls m) (cell + 4 * l + i) = (leBytes 4 (word l).toNat).getD i 0 := by
  induction ls generalizing m with
  | nil => exact absurd hl List.not_mem_nil
  | cons k ls ih =>
    obtain ⟨hk, hls⟩ := List.nodup_cons.1 hls
    rcases List.mem_cons.1 hl with rfl | hl
    · have hrest : ∀ j ∈ ls, ¬(cell + 4 * j ≤ cell + 4 * l + i ∧ cell + 4 * l + i < cell + 4 * j + 4) := fun j hj hin => by
        have hjl : j = l := by omega
        exact hk (hjl ▸ hj)
      refine (read_storeLanes_of_ne hrest (Memory.wf_writeN _ _ _ hm)).trans ?_
      rw [Memory.read_writeN _ _ _ hm, length_leBytes, if_pos (by omega), Nat.add_sub_cancel_left]
    · exact ih hls hl (Memory.wf_writeN _ _ _ hm)

theorem State.foldl_writeHome_lanes (word : Nat → Word) (cell : Nat) (ls : List Nat) (s : State) :
    ∃ bad, ls.foldl (fun s l => s.writeHome (cell + 4 * l) (leBytes 4 (word l).toNat)) s =
      { s with mem := storeLanes word cell ls s.mem, bad := bad } := by
  induction ls generalizing s with
  | nil => exact ⟨s.bad, rfl⟩
  | cons l ls ih => exact ih (s.writeHome (cell + 4 * l) (leBytes 4 (word l).toNat))

end

/-- Memory once a register's live lanes and its lane states have been written to its slot. -/
def PReg.stored (p : PReg) (cell : Nat) (m : List Host.Cell) : List Host.Cell :=
  Memory.writeN (storeLanes (fun l => (p.lane l).val) cell (laneList.filter fun l => (p.lane l).st == .live) m) (cell + 128)
    (laneList.map fun l => BitVec.ofNat 8 (p.lane l).st.code)

/-- A crew without an area saves nothing. -/
theorem State.saveReg_of_none {c : Crew} (h : c.area = none) (s : State) (r : Nat) (p : PReg) : s.saveReg c r p = s := by
  unfold State.saveReg
  rw [h]
  rfl

/-- The writes of a register's slot, before the poison of its halves is set. -/
def State.storeReg (s : State) (cell : Nat) (p : PReg) : State :=
  ((laneList.filter fun l => (p.lane l).st == .live).foldl (fun s l => s.writeHome (cell + 4 * l) (leBytes 4 (p.lane l).val.toNat)) s).writeHome
    (cell + 128) (laneList.map fun l => BitVec.ofNat 8 (p.lane l).st.code)

theorem State.storeReg_frame (s : State) (cell : Nat) (p : PReg) :
    ∃ bad, s.storeReg cell p = { s with mem := p.stored cell s.mem, bad := bad } := by
  obtain ⟨bad, hlanes⟩ := State.foldl_writeHome_lanes (fun l => (p.lane l).val) cell (laneList.filter fun l => (p.lane l).st == .live) s
  unfold State.storeReg PReg.stored
  rw [hlanes]
  exact ⟨_, rfl⟩

/-- A register is written to its slot of the crew's area. -/
theorem State.saveReg_of_area {c : Crew} (h : c.area.isSome = true) (s : State) (r : Nat) (p : PReg) :
    ∃ bad, s.saveReg c r p = { s with mem := p.stored (c.evictCell (256 * r)) s.mem, bad := bad } := by
  have harea : ¬ c.area.isNone = true := fun hnone => absurd (Option.isNone_iff_eq_none.1 hnone) (Option.isSome_iff_ne_none.1 h)
  obtain ⟨bad', heq⟩ : ∃ bad', s.saveReg c r p = { s.storeReg (c.evictCell (256 * r)) p with bad := bad' } := by
    unfold State.saveReg
    rw [if_neg harea]
    exact ⟨_, rfl⟩
  obtain ⟨bad, hstore⟩ := s.storeReg_frame (c.evictCell (256 * r)) p
  rw [heq, hstore]
  refine ⟨bad', ?_⟩
  dsimp only

/-- Wherever a crew's registers are saved to, memory and its poison alone change. -/
theorem State.saveReg_frame (s : State) (c : Crew) (r : Nat) (p : PReg) :
    s.saveReg c r p = { s with mem := (s.saveReg c r p).mem, bad := (s.saveReg c r p).bad } := by
  cases h : c.area with
  | none => rw [State.saveReg_of_none h]
  | some x =>
    obtain ⟨bad, heq⟩ := State.saveReg_of_area (c := c) (by rw [h]; rfl) s r p
    rw [heq]

section
variable {p : PReg} {cell : Nat} {m : List Host.Cell}

theorem length_codes (p : PReg) : (laneList.map fun l => BitVec.ofNat 8 (p.lane l).st.code).length = 32 := by
  rw [List.length_map]
  rfl

theorem PReg.wf_stored (hm : Memory.wf m = true) : Memory.wf (p.stored cell m) = true := Memory.wf_writeN _ _ _ (wf_storeLanes _ hm)

/-- The bytes around a register's slot stay. -/
theorem PReg.read_stored_of_ne {a : Nat} (h : ¬(cell ≤ a ∧ a < cell + 256)) (hm : Memory.wf m = true) :
    Memory.read (p.stored cell m) a = Memory.read m a := by
  unfold PReg.stored
  rw [Memory.read_writeN _ _ _ (wf_storeLanes _ hm), length_codes, if_neg (by omega)]
  refine read_storeLanes_of_ne (fun l hl => ?_) hm
  have := (mem_laneList l).1 (List.mem_filter.1 hl).1
  omega

/-- A live lane's word is in the register's slot. -/
theorem PReg.readN_stored {l : Nat} (hl : l < 32) (hlive : (p.lane l).st = .live) (hm : Memory.wf m = true) :
    Memory.readN (p.stored cell m) (cell + 4 * l) 4 = leBytes 4 (p.lane l).val.toNat := by
  have hmem : l ∈ laneList.filter fun l => (p.lane l).st == .live :=
    List.mem_filter.2 ⟨(mem_laneList l).2 hl, beq_iff_eq.2 hlive⟩
  have hread := Memory.readN_eq (m := p.stored cell m) (a := cell + 4 * l) (bs := leBytes 4 (p.lane l).val.toNat) fun i hi => by
    rw [length_leBytes] at hi
    unfold PReg.stored
    rw [Memory.read_writeN _ _ _ (wf_storeLanes _ hm), if_neg (by omega)]
    exact read_storeLanes_of_mem (List.nodup_range.filter _) hmem hi hm
  rwa [length_leBytes] at hread

end

end
end Sys2Proof.Machine


namespace Sys2Proof.Machine

section

/-! ### The stores of a delivery (R119, R234) -/

/-- A state with the same crews, but for what their threads hold beside their states, and the same causes of launches that have been killed. -/
def Delivers (s t : State) : Prop := outlines t.crews = outlines s.crews ∧ Causes s t

/-- The state that a function may give delivers from r. -/
def DeliversOpt (r : State) : Option State → Prop
  | none => True
  | some s => Delivers r s

/-- The state after a completed access delivers from r. -/
def DeliversDone (r : State) : Done → Prop
  | .ok s _ => Delivers r s
  | _ => True

section
variable {r s : State}

theorem Delivers.refl (s : State) : Delivers s s := ⟨rfl, Causes.refl s⟩

theorem DeliversDone.ite {c : Prop} {inst : Decidable c} {d e : Done} (hd : DeliversDone r d) (he : DeliversDone r e) :
    DeliversDone r (if c then d else e) := by
  split
  · exact hd
  · exact he

theorem Delivers.setCore (h : Delivers r s) {n : Nat} {c : Core} : Delivers r (s.setCore n c) := h
theorem Delivers.holdTlb (h : Delivers r s) {core : Nat} {e : TlbEntry} : Delivers r (s.holdTlb core e) := h
theorem Delivers.applyHome (h : Delivers r s) {cell : Nat} {data : List Byte} : Delivers r (s.applyHome cell data).1 := h
theorem Delivers.setVi (h : Delivers r s) {n : Nat} {v : Vi} : Delivers r (s.setVi n v) := h
theorem Delivers.takeZeroed (h : Delivers r s) {fs : List Nat} {f : Nat} {bl : Bool} : Delivers r ({ s with frames := fs }.zeroFrame f bl) := h
theorem Delivers.writePte (h : Delivers r s) {pa : Nat} {e : Dword} : Delivers r (s.writePte pa e) := h

theorem Delivers.raiseWct (h : Delivers r s) {lid ct : Nat} {tid : Word} : Delivers r (s.raiseWct lid tid ct) := by
  refine ⟨(Accesses.refl s).raiseWct.crews.trans h.1, fun n => Eq.trans ?_ (h.2 n)⟩
  refine tget_map_part Launch.killCause ?_ ?_ {} s.launches n
  · exact fun _ => rfl
  · intro e
    dsimp only
    split <;> rfl

theorem Delivers.storeVirt (h : Delivers r s) {core asid lid va : Nat} {tid : Word} {dbg drop : Bool} {data : List Byte} :
    DeliversDone r (s.storeVirt core asid lid tid dbg drop va data) := by
  unfold State.storeVirt
  split
  · trivial
  · exact .ite h (.ite (.ite trivial (.ite trivial h.holdTlb.setCore.applyHome.raiseWct)) h)

theorem Delivers.nextTable (h : Delivers r s) {pa : Nat} : Delivers r (s.nextTable pa).1 := by
  unfold State.nextTable
  dsimp only
  split
  · exact h
  · exact h.takeZeroed.writePte

theorem Delivers.mapPage (h : Delivers r s) {asid va : Nat} {e : Dword} : Delivers r (s.mapPage asid va e) := h.nextTable.nextTable.writePte

theorem Delivers.repair (h : Delivers r s) {asid va cluster : Nat} : DeliversOpt r (s.repair asid va cluster) := by
  unfold State.repair
  dsimp only
  split
  · trivial
  · split
    · trivial
    · split
      · trivial
      · exact h.takeZeroed.setVi.mapPage
  · split
    · trivial
    · exact h.takeZeroed.mapPage

theorem Delivers.storeFrame (h : Delivers r s) {core asid lid va : Nat} {tid : Word} {fs : List (List Byte)} :
    DeliversDone r (s.storeFrame core asid lid tid va fs) := by
  induction fs generalizing s va with
  | nil => exact h
  | cons f fs ih =>
    unfold State.storeFrame
    extract_lets +onlyGivenNames store d
    have hd : DeliversDone r d := by
      unfold d
      split
      · split
        · have hrepair := h.repair (asid := asid) (va := va) (cluster := clusterOf core)
          split
          next s' hs' =>
            rw [hs'] at hrepair
            exact Delivers.storeVirt hrepair
          · trivial
        · trivial
      · exact h.storeVirt
    clear_value d
    split
    · exact ih hd
    · exact hd

end

/-! ### Registers of the frame that are read back (R58, R226) -/

theorem State.launches_refill {s t : State} {k r : Nat} (h : s.refill k r = some t) : t.launches = s.launches := by
  unfold State.refill at h
  dsimp only at h
  split at h
  · cases h
  · split at h
    · rw [Option.some.injEq] at h
      rw [← h, State.notePool_spec]
      rfl
    · cases h

/-- Reading registers back changes no launch. -/
theorem State.launches_unspill {k : Nat} {rs : List Nat} {s t : State} (h : s.unspill k rs = some t) : t.launches = s.launches := by
  induction rs generalizing s with
  | nil => rw [← Option.some.inj h]
  | cons r rs ih =>
    unfold State.unspill at h
    dsimp only at h
    split at h
    · exact ih h
    · split at h
      · cases h
      next s' hs' =>
        refine (ih h).trans ?_
        split at hs'
        · exact State.launches_refill hs'
        · rw [Option.some.injEq] at hs'
          rw [← hs', State.saveReg_frame]
          rfl

/-! ### A register of one lane, and the frame's two -/

/-- A register that has just been drawn holds nothing. -/
theorem PReg.lane_default (l : Nat) : ({} : PReg).lane l = {} :=
  List.getD_eq_getElem?_getD.trans (List.getElem?_getD_replicate_default_eq _ 32 l)

section
variable {c : Crew} {r k bank cycle : Nat} {v : Word}

theorem Crew.reg_pokeLane_self (hr : r < 64) (h0 : r ≠ 0) :
    ((c.pokeLane r k v bank cycle).reg r).isSome = true := by
  rw [Crew.pokeLane, Crew.reg_onRegs _ _ hr, if_neg h0, if_pos rfl]
  rfl

theorem Crew.reg_pokeLane_of_ne {i : Nat} (hi : i < 64) (hne : i ≠ r) : (c.pokeLane r k v bank cycle).reg i = c.reg i := by
  rw [Crew.pokeLane, Crew.reg_onRegs _ _ hi, if_neg hne]
  split
  next h => rw [h, Crew.reg_zero]
  · rfl

/-- A lane is set, and every other stays as it is. -/
theorem Crew.lane_pokeLane {i l : Nat} (hi : i < 64) (hl : l < 32) (h0 : r ≠ 0) :
    (c.pokeLane r k v bank cycle).lane i l = if i = r ∧ l = k then live v else c.lane i l := by
  by_cases hir : i = r
  · subst hir
    have hreg : (c.pokeLane i k v bank cycle).reg i = _ := (Crew.reg_onRegs _ _ hi).trans ((if_neg h0).trans (if_pos rfl))
    rw [Crew.lane_eq, hreg]
    refine (PReg.lane_onLanes ((c.reg i).getD {}) (fun l x => if l = k then live v else x) hl).trans ?_
    simp only [true_and]
    refine if_congr Iff.rfl rfl ?_
    rw [Crew.lane_eq]
    cases c.reg i with
    | none => exact PReg.lane_default l
    | some p => rfl
  · rw [if_neg fun h => hir h.1, Crew.lane_eq, Crew.reg_pokeLane_of_ne hi hir, Crew.lane_eq]

end

theorem pairOf_parts (f : Dword) : pairOf (loWord f) (hiWord f) = f := by
  refine (BitVec.extractLsb'_append_extractLsb'_eq_extractLsb' rfl).trans ?_
  exact BitVec.extractLsb'_eq_self

end
end Sys2Proof.Machine


namespace Sys2Proof.Machine

section

/-! ### A thread that goes on at an address (R232) -/

section
variable (s : State) (k l : Nat) (pc : Dword)

theorem State.crew_resume : (s.resume k l pc).crew k = (s.crew k).setThr l { ((s.crew k).thr l).wake (s.cycleOf k) with pc := pc, trap := none } := by
  rw [State.resume, State.onThr, State.crew_setCrew]

theorem State.crew_resume_ne {n : Nat} (h : n ≠ k) : (s.resume k l pc).crew n = s.crew n := State.crew_setCrew_ne _ _ h

theorem State.map_resume : ((s.resume k l pc).crew k).map = (s.crew k).map := by
  rw [State.crew_resume]
  rfl

theorem State.thr_resume {j : Nat} (hj : j < 32) : ((s.resume k l pc).crew k).thr j =
    if j = l then { ((s.crew k).thr j).wake (s.cycleOf k) with pc := pc, trap := none } else (s.crew k).thr j := by
  rw [State.crew_resume, Crew.thr_setThr _ _ _ hj]
  split
  next h => rw [h]
  · rfl

end

/-! ### A delivery to the user trap entry (R234) -/

/-- The frame's address in the thread's local window (R234). -/
def State.frameAt (s : State) (r : TrapRec) : Dword := ((s.crew r.crew).rd2 60 r.lane &&& ~~~15) - 64

/-- The stores of the frame. -/
def State.frameStores (s : State) (r : TrapRec) : Done :=
  s.storeFrame (s.crew r.crew).lastCore (s.launch r.launch).asid r.launch r.tid
    (((s.crew r.crew).thr r.lane).lbase.toNat + (s.frameAt r).toNat) (chunks 16 4 (trapFrame (s.crew r.crew) r.lane r.info))

/-- The registers of the frame, which a delivery draws from a core's pool where it has to, point to the frame. -/
def State.pointed (s : State) (r : TrapRec) (core : Nat) (f : Dword) : State :=
  [(60, loWord f), (61, hiWord f)].foldl (fun t e =>
    t.setCrew r.crew ((t.crew r.crew).pokeLane e.1 r.lane e.2 (t.pickBank core) (s.cycleOf r.crew))) s

/-- The registers point to the frame, and the thread stands, READY, at the user trap entry. -/
def State.framed (s : State) (r : TrapRec) (core : Nat) (f entry : Dword) : State :=
  let s := ((s.pointed r core f).resume r.crew r.lane entry).onThr r.crew r.lane fun t =>
    { t with cause := r.info.cause, trapPc := r.info.pc, trapVa := r.info.va }
  s.setCrew r.crew { s.crew r.crew with visible := true }

section
variable {s : State} {r : TrapRec}

/-- A frame that passes the end of the local window kills the launch. -/
theorem State.deliverFrame_of_outside (h : (s.launch r.launch).localBytes < (s.frameAt r).toNat + 64) :
    s.deliverFrame r = some (s.killLaunch r.launch (causeCode r.info.cause)) := if_pos h

theorem State.deliverFrame_of_inside (h : (s.frameAt r).toNat + 64 ≤ (s.launch r.launch).localBytes) :
    s.deliverFrame r = match s.frameStores r with
      | .wait => none
      | .trap _ => some (s.killLaunch r.launch (causeCode r.info.cause))
      | .ok s' _ =>
        if (s.crew r.crew).core.isSome && !s.mayAllocate r.crew (s.crew r.crew).framesRegs.length then none
        else some (if (s.crew r.crew).core.isSome then
            (s'.framed r (s.crew r.crew).lastCore (s.frameAt r) (s.launch r.launch).trapEntry).notePool (s.crew r.crew).lastCore
          else (s'.framed r (s.crew r.crew).lastCore (s.frameAt r) (s.launch r.launch).trapEntry).saveAgain r.crew [60, 61]) :=
  if_neg (Nat.not_lt.2 h)

end

/-! #### The registers and the thread of a delivery -/

/-- Nothing but one crew differs. -/
structure OnlyCrew (k : Nat) (s t : State) : Prop where
  rest : t = { s with crews := t.crews }
  crews : ∀ n, n ≠ k → t.crew n = s.crew n

theorem OnlyCrew.refl (k : Nat) (s : State) : OnlyCrew k s s := ⟨rfl, fun _ _ => rfl⟩

theorem OnlyCrew.setCrew {k : Nat} {s t : State} (h : OnlyCrew k s t) (c : Crew) : OnlyCrew k s (t.setCrew k c) :=
  ⟨congrArg (State.setCrew · k c) h.rest, fun n hn => (State.crew_setCrew_ne t c hn).trans (h.crews n hn)⟩

theorem OnlyCrew.cycleOf {k : Nat} {s t : State} (h : OnlyCrew k s t) (hcore : (t.crew k).core = (s.crew k).core)
    (hlast : (t.crew k).lastCore = (s.crew k).lastCore) : t.cycleOf k = s.cycleOf k := by
  unfold State.cycleOf
  rw [hcore, hlast, h.rest]
  rfl

section
variable (s : State) (r : TrapRec) (core : Nat) (f entry : Dword)

theorem State.onlyCrew_pointed : OnlyCrew r.crew s (s.pointed r core f) := ((OnlyCrew.refl r.crew s).setCrew _).setCrew _

theorem State.crew_pointed : ∃ b₀ b₁, (s.pointed r core f).crew r.crew = ((s.crew r.crew).pokeLane 60 r.lane (loWord f) b₀ (s.cycleOf r.crew)).pokeLane
    61 r.lane (hiWord f) b₁ (s.cycleOf r.crew) := by
  unfold State.pointed
  rw [List.foldl_cons, List.foldl_cons, List.foldl_nil, State.crew_setCrew, State.crew_setCrew]
  exact ⟨_, _, rfl⟩

theorem State.onlyCrew_framed : OnlyCrew r.crew s (s.framed r core f entry) := (((s.onlyCrew_pointed r core f).setCrew _).setCrew _).setCrew _

/-- What the delivery makes of the crew. -/
theorem State.crew_framed : ∃ b₀ b₁, (s.framed r core f entry).crew r.crew =
    { ((((s.crew r.crew).pokeLane 60 r.lane (loWord f) b₀ (s.cycleOf r.crew)).pokeLane 61 r.lane (hiWord f) b₁ (s.cycleOf r.crew)).setThr r.lane
        { ((s.crew r.crew).thr r.lane).wake (s.cycleOf r.crew) with pc := entry, trap := none }).setThr r.lane
        { (((s.pointed r core f).resume r.crew r.lane entry).crew r.crew).thr r.lane with
          cause := r.info.cause, trapPc := r.info.pc, trapVa := r.info.va } with visible := true } := by
  obtain ⟨b₀, b₁, hcrew⟩ := s.crew_pointed r core f
  have hcycle : (s.pointed r core f).cycleOf r.crew = s.cycleOf r.crew :=
    (s.onlyCrew_pointed r core f).cycleOf (by rw [hcrew]; rfl) (by rw [hcrew]; rfl)
  refine ⟨b₀, b₁, ?_⟩
  unfold State.framed State.resume State.onThr
  dsimp only
  rw [State.crew_setCrew, State.crew_setCrew, State.crew_setCrew, hcycle, hcrew]
  rfl

theorem State.framed_visible : ((s.framed r core f entry).crew r.crew).visible = true := by
  obtain ⟨b₀, b₁, h⟩ := s.crew_framed r core f entry
  rw [h]

theorem State.framed_area : ((s.framed r core f entry).crew r.crew).area = (s.crew r.crew).area := by
  obtain ⟨b₀, b₁, h⟩ := s.crew_framed r core f entry
  rw [h]
  rfl

theorem State.thr_framed (hr : r.lane < 32) {l : Nat} (hl : l < 32) : ((s.framed r core f entry).crew r.crew).thr l =
    if l = r.lane then { ((s.crew r.crew).thr r.lane).wake (s.cycleOf r.crew) with
      pc := entry, trap := none, cause := r.info.cause, trapPc := r.info.pc, trapVa := r.info.va } else (s.crew r.crew).thr l := by
  obtain ⟨b₀, b₁, hpoked⟩ := s.crew_pointed r core f
  have hcycle : (s.pointed r core f).cycleOf r.crew = s.cycleOf r.crew :=
    (s.onlyCrew_pointed r core f).cycleOf (by rw [hpoked]; rfl) (by rw [hpoked]; rfl)
  have hthr : ∀ j, ((s.pointed r core f).crew r.crew).thr j = (s.crew r.crew).thr j := fun j => by rw [hpoked]; rfl
  have hresumed := State.thr_resume (s.pointed r core f) r.crew r.lane entry hr
  rw [if_pos rfl, hcycle, hthr] at hresumed
  obtain ⟨b₀, b₁, h⟩ := s.crew_framed r core f entry
  rw [h, hresumed]
  refine (Crew.thr_setThr _ _ _ hl).trans ?_
  rw [Crew.thr_setThr _ _ _ hl]
  split <;> rfl

/-- The crew's registers are those that point to the frame. -/
theorem State.reg_framed_eq (i : Nat) : ((s.framed r core f entry).crew r.crew).reg i = ((s.pointed r core f).crew r.crew).reg i := by
  unfold State.framed State.resume State.onThr
  dsimp only
  rw [State.crew_setCrew, State.crew_setCrew, State.crew_setCrew]
  rfl

/-- Each lane of every register is the frame's or what it was. -/
theorem State.lane_framed {i l : Nat} (hi : i < 64) (hl : l < 32) : ((s.framed r core f entry).crew r.crew).lane i l =
    if i = 61 ∧ l = r.lane then live (hiWord f) else if i = 60 ∧ l = r.lane then live (loWord f) else (s.crew r.crew).lane i l := by
  obtain ⟨b₀, b₁, h⟩ := s.crew_pointed r core f
  rw [Crew.lane_eq, State.reg_framed_eq, h, ← Crew.lane_eq, Crew.lane_pokeLane hi hl (by decide), Crew.lane_pokeLane hi hl (by decide)]

theorem State.rd2_framed (hr : r.lane < 32) : ((s.framed r core f entry).crew r.crew).rd2 60 r.lane = f := by
  have hlo : ((s.framed r core f entry).crew r.crew).rd 60 r.lane = loWord f := by
    rw [Crew.rd, State.lane_framed s r core f entry (by decide) hr, if_neg fun h => absurd h.1 (by decide), if_pos ⟨rfl, rfl⟩, live_value]
  have hhi : ((s.framed r core f entry).crew r.crew).rd 61 r.lane = hiWord f := by
    rw [Crew.rd, State.lane_framed s r core f entry (by decide) hr, if_pos ⟨rfl, rfl⟩, live_value]
  rw [Crew.rd2, hlo, hhi, pairOf_parts]

theorem State.rd_framed {i l : Nat} (hi : i < 64) (hl : l < 32) (hne : l = r.lane → i ≠ 60 ∧ i ≠ 61) :
    ((s.framed r core f entry).crew r.crew).rd i l = (s.crew r.crew).rd i l := by
  unfold Crew.rd
  rw [State.lane_framed s r core f entry hi hl, if_neg fun h => (hne h.2).2 h.1, if_neg fun h => (hne h.2).1 h.1]

/-- Both registers of the frame are there. -/
theorem State.reg_framed {i : Nat} (hi : i = 60 ∨ i = 61) : ∃ p, ((s.framed r core f entry).crew r.crew).reg i = some p := by
  obtain ⟨b₀, b₁, h⟩ := s.crew_pointed r core f
  refine Option.isSome_iff_exists.1 ?_
  rw [State.reg_framed_eq, h]
  rcases hi with rfl | rfl
  · rw [Crew.reg_pokeLane_of_ne (by decide) (by decide)]
    exact Crew.reg_pokeLane_self (by decide) (by decide)
  · exact Crew.reg_pokeLane_self (by decide) (by decide)

end

end
end Sys2Proof.Machine


namespace Sys2Proof.Machine

section

/-! ### The frame's registers in the eviction area (R226, R234) -/

section
variable {s : State} {k : Nat} {p q : PReg}

theorem State.saveAgain_two (hp : (s.crew k).reg 60 = some p) (hq : (s.crew k).reg 61 = some q) :
    s.saveAgain k [60, 61] = (s.saveReg (s.crew k) 60 p).saveReg (s.crew k) 61 q := by
  have hcrew : (s.saveReg (s.crew k) 60 p).crew k = s.crew k := by
    rw [State.saveReg_frame]
    rfl
  unfold State.saveAgain
  rw [List.foldl_cons, List.foldl_cons, List.foldl_nil, hp]
  dsimp only
  rw [hcrew, hq]

theorem State.saveAgain_frame (hp : (s.crew k).reg 60 = some p) (hq : (s.crew k).reg 61 = some q) :
    s.saveAgain k [60, 61] = { s with mem := (s.saveAgain k [60, 61]).mem, bad := (s.saveAgain k [60, 61]).bad } := by
  rw [State.saveAgain_two hp hq, State.saveReg_frame, State.saveReg_frame]

theorem State.mem_saveAgain (hp : (s.crew k).reg 60 = some p) (hq : (s.crew k).reg 61 = some q) (h : (s.crew k).area.isSome = true) :
    (s.saveAgain k [60, 61]).mem = q.stored ((s.crew k).evictCell (256 * 61)) (p.stored ((s.crew k).evictCell (256 * 60)) s.mem) := by
  obtain ⟨bad, hfirst⟩ := State.saveReg_of_area h s 60 p
  obtain ⟨bad', hsecond⟩ := State.saveReg_of_area h (s.saveReg (s.crew k) 60 p) 61 q
  rw [State.saveAgain_two hp hq, hsecond, hfirst]

/-- Memory around the two slots stays. -/
theorem State.read_saveAgain_of_ne (hp : (s.crew k).reg 60 = some p) (hq : (s.crew k).reg 61 = some q) (hm : Memory.wf s.mem = true) {a : Nat}
    (h60 : ¬((s.crew k).evictCell (256 * 60) ≤ a ∧ a < (s.crew k).evictCell (256 * 60) + 256))
    (h61 : ¬((s.crew k).evictCell (256 * 61) ≤ a ∧ a < (s.crew k).evictCell (256 * 61) + 256)) :
    Memory.read (s.saveAgain k [60, 61]).mem a = Memory.read s.mem a := by
  cases harea : (s.crew k).area with
  | none => rw [State.saveAgain_two hp hq, State.saveReg_of_none harea, State.saveReg_of_none harea]
  | some f =>
    rw [State.mem_saveAgain hp hq (by rw [harea]; rfl), PReg.read_stored_of_ne h61 (PReg.wf_stored hm), PReg.read_stored_of_ne h60 hm]

/-- Where a byte is read as before, so are several. -/
theorem Memory.readN_congr {m m' : List Host.Cell} {a n : Nat} (h : ∀ b, a ≤ b → b < a + n → Memory.read m b = Memory.read m' b) :
    Memory.readN m a n = Memory.readN m' a n := by
  induction n generalizing a with
  | zero => rfl
  | succ n ih => rw [Memory.readN, Memory.readN, h a (Nat.le_refl _) (by omega), ih fun b hb hlt => h b (by omega) (by omega)]

/-- A live lane of each of the two registers is in its slot. -/
theorem State.readN_saveAgain (hp : (s.crew k).reg 60 = some p) (hq : (s.crew k).reg 61 = some q) (hm : Memory.wf s.mem = true)
    (h : (s.crew k).area.isSome = true) {y l : Nat} (hy : y = 60 ∨ y = 61) (hl : l < 32) (hlive : ((s.crew k).lane y l).st = .live) :
    Memory.readN (s.saveAgain k [60, 61]).mem ((s.crew k).evictCell (256 * y) + 4 * l) 4 = leBytes 4 ((s.crew k).lane y l).val.toNat := by
  rw [State.mem_saveAgain hp hq h]
  rcases hy with rfl | rfl
  · have hlane : (s.crew k).lane 60 l = p.lane l := by
      rw [Crew.lane_eq, hp]
      rfl
    have hdisjoint := (s.crew k).evictCell_disjoint (r := 60) (q := 61) (by decide) (by decide) (by decide)
    rw [hlane] at hlive ⊢
    rw [← PReg.readN_stored (p := p) (cell := (s.crew k).evictCell (256 * 60)) hl hlive hm]
    refine Memory.readN_congr fun b hb hlt => PReg.read_stored_of_ne (fun hin => ?_) (PReg.wf_stored hm)
    generalize (s.crew k).evictCell (256 * 60) = x at *
    generalize (s.crew k).evictCell (256 * 61) = z at *
    omega
  · have hlane : (s.crew k).lane 61 l = q.lane l := by
      rw [Crew.lane_eq, hq]
      rfl
    rw [hlane] at hlive ⊢
    exact PReg.readN_stored hl hlive (PReg.wf_stored hm)

end

/-! ### Whether a delivery kills (R234) -/

theorem State.launch_unspill {k : Nat} {rs : List Nat} {s t : State} (h : s.unspill k rs = some t) (n : Nat) : t.launch n = s.launch n := by
  rw [State.launch, State.launches_unspill h]
  rfl

/-- A delivery's last step: the core's pool is looked at anew, or the crew's eviction area takes the registers of the frame. -/
def State.settleFrame (s : State) (k : Nat) (c : Crew) : State := if c.core.isSome then s.notePool c.lastCore else s.saveAgain k [60, 61]

theorem State.settleFrame_frame {s : State} {k : Nat} {p q : PReg} (hp : (s.crew k).reg 60 = some p) (hq : (s.crew k).reg 61 = some q) (c : Crew) :
    s.settleFrame k c = { s with cores := (s.settleFrame k c).cores, mem := (s.settleFrame k c).mem, bad := (s.settleFrame k c).bad } := by
  unfold State.settleFrame
  split
  · rw [State.notePool_spec]
  · rw [State.saveAgain_frame hp hq]

/-- A delivery that comes to its end. -/
theorem State.deliverFrame_of_ok {s s' : State} {r : TrapRec} {bs : List Byte} (h : (s.frameAt r).toNat + 64 ≤ (s.launch r.launch).localBytes)
    (hok : s.frameStores r = .ok s' bs) : s.deliverFrame r =
      if (s.crew r.crew).core.isSome && !s.mayAllocate r.crew (s.crew r.crew).framesRegs.length then none
      else some ((s'.framed r (s.crew r.crew).lastCore (s.frameAt r) (s.launch r.launch).trapEntry).settleFrame r.crew (s.crew r.crew)) := by
  rw [State.deliverFrame_of_inside h, hok]
  rfl

/-- A delivery leaves the launches as its stores do. -/
theorem State.launch_settleFrame_framed (s : State) (r : TrapRec) (core : Nat) (f entry : Dword) (c : Crew) (n : Nat) :
    ((s.framed r core f entry).settleFrame r.crew c).launch n = s.launch n := by
  obtain ⟨p, hp⟩ := s.reg_framed r core f entry (.inl rfl)
  obtain ⟨q, hq⟩ := s.reg_framed r core f entry (.inr rfl)
  rw [State.settleFrame_frame hp hq, (s.onlyCrew_framed r core f entry).rest]
  rfl

/-- With the frame's registers at hand, a delivery kills the launch exactly when the frame lies outside the local window, or its stores trap. -/
theorem State.deliverFrame_kills {s : State} {r : TrapRec} (hr : (s.launch r.launch).phase = .running) (hk : (s.launch r.launch).killCause = none) :
    ((s.deliverFrame r).any fun t => (t.launch r.launch).killCause.isSome) = true ↔
      (s.launch r.launch).localBytes < (s.frameAt r).toNat + 64 ∨ ∃ cause, s.frameStores r = .trap cause := by
  have hkill : ((some (s.killLaunch r.launch (causeCode r.info.cause))).any fun t => (t.launch r.launch).killCause.isSome) = true := by
    rw [Option.any_some, State.killCause_killLaunch hr hk]
    rfl
  by_cases hout : (s.launch r.launch).localBytes < (s.frameAt r).toNat + 64
  · rw [State.deliverFrame_of_outside hout]
    exact iff_of_true hkill (.inl hout)
  · have hdelivers : DeliversDone s (s.frameStores r) := (Delivers.refl s).storeFrame
    have hinside := State.deliverFrame_of_inside (Nat.not_lt.1 hout)
    cases hd : s.frameStores r with
    | wait =>
      rw [hinside, hd]
      exact iff_of_false Bool.false_ne_true fun h => h.elim hout fun ⟨_, h⟩ => nomatch h
    | trap cause =>
      rw [hinside, hd]
      exact iff_of_true hkill (.inr ⟨cause, rfl⟩)
    | ok s' bs =>
      rw [hd] at hdelivers
      have hcause : ∀ n, (s'.launch n).killCause = (s.launch n).killCause := hdelivers.2
      refine iff_of_false (fun hany => ?_) fun h => h.elim hout fun ⟨_, h⟩ => nomatch h
      rw [State.deliverFrame_of_ok (Nat.not_lt.1 hout) hd] at hany
      split at hany
      · exact Bool.false_ne_true hany
      · rw [Option.any_some, State.launch_settleFrame_framed, hcause, hk] at hany
        exact Bool.false_ne_true hany

end
end Sys2Proof.Machine


namespace Sys2Proof.Machine

section

/-! ### A trap at a fetch (R63, R77, R371) -/

/-- The lanes of an issue group whose fetch traps take the trap. -/
theorem takeTrap_takes {s : State} {cause : Word} {va : Dword} (hrun : s.curCrew.running = true) (hrob : s.curCrew.rob = []) (hmask : s.cur.mask ≠ 0)
    (hready : ∀ l, s.inGroup l = true → (s.thrAt l).eligible = true ∧ (s.thrAt l).pc = s.cur.pc)
    (hfetch : s.target s.curCore s.curLaunch.asid s.cur.pc = .error (cause, va)) :
    exec (.takeTrap cause va) s = .next (s.takeTraps s.cur.crew s.cur.pc s.cur.pc (fun _ => some (cause, va)) (lanesOf s.cur.mask)) := by
  have hall : ((lanesOf s.cur.mask).all fun l => ((s.crew s.cur.crew).thr l).eligible && ((s.crew s.cur.crew).thr l).pc == s.cur.pc) = true := by
    rw [List.all_eq_true]
    intro l hl
    obtain ⟨he, hpc⟩ := hready l ((mem_lanesOf _ _).1 hl)
    exact Bool.and_eq_true_iff.2 ⟨he, beq_iff_eq.2 hpc⟩
  have hguard : (!s.curCrew.running || !s.curCrew.rob.isEmpty || s.cur.mask == 0 ||
      !(lanesOf s.cur.mask).all fun l => ((s.crew s.cur.crew).thr l).eligible && ((s.crew s.cur.crew).thr l).pc == s.cur.pc) = false := by
    rw [hrun, hrob, hall, beq_eq_false_iff_ne.2 hmask]
    rfl
  have htake : s.fetchTrap cause va = some (s.takeTraps s.cur.crew s.cur.pc s.cur.pc (fun _ => some (cause, va)) (lanesOf s.cur.mask)) := by
    have hfetch' : s.target (s.crew s.cur.crew).lastCore (s.asidOf s.cur.crew) s.cur.pc = .error (cause, va) := hfetch
    unfold State.fetchTrap
    dsimp only
    rw [if_neg (Bool.not_eq_true _ ▸ hguard), hfetch']
    exact if_pos rfl
  exact congrArg (fun o => Host.Outcome.next (Option.getD o s)) htake

/-- R63, R230: what the traps of the group leave. -/
theorem takeTrap_leaves (s : State) (cause : Word) (va : Dword) :
    let t := s.takeTraps s.cur.crew s.cur.pc s.cur.pc (fun _ => some (cause, va)) (lanesOf s.cur.mask)
    t = { s with crews := t.crews, traps := t.traps } ∧
      (∀ k, k ≠ s.cur.crew → t.crew k = s.crew k) ∧ t.curCrew.map = s.curCrew.map ∧
      (∀ l, l < 32 → t.thrAt l = if s.inGroup l then
        { s.thrAt l with state := .trapped, trap := some ⟨cause, s.cur.pc, s.cur.pc, va⟩ } else s.thrAt l) ∧
      t.traps = s.traps ++ (lanesOf s.cur.mask).map fun l =>
        { name := s.nameOf s.curCrew.launch (s.thrAt l).tid, launch := s.curCrew.launch, tid := (s.thrAt l).tid, crew := s.cur.crew
          num := s.curCrew.num, core := s.curCore, lane := l
          info := ⟨cause, s.cur.pc, s.cur.pc, va⟩, dtime := s.dtime, vi := s.curLaunch.vi, asid := s.curLaunch.asid } := by
  intro t
  obtain ⟨hrest, hother, hself, hthr, htraps⟩ := State.takeTraps_spec s.cur.crew s.cur.pc s.cur.pc (fun _ => some (cause, va)) (lanesOf s.cur.mask)
    (List.nodup_range.filter _) (fun l hl => mask_lt ((mem_lanesOf _ _).1 hl)) s
  have hcur : t.cur = s.cur := by
    rw [show t = _ from hrest]
  refine ⟨hrest, hother, ?_, fun l hl => ?_, ?_⟩
  · unfold State.curCrew
    rw [hcur]
    have hmap : (t.crew s.cur.crew).map = (s.crew s.cur.crew).map := by rw [hself]
    exact hmap
  · have htl := hthr l hl
    unfold State.thrAt State.curCrew
    rw [hcur]
    refine htl.trans ?_
    unfold State.inGroup
    by_cases hin : s.cur.mask.getLsbD l = true
    · rw [if_pos ((mem_lanesOf _ _).2 hin), if_pos hin]
    · rw [if_neg fun h => hin ((mem_lanesOf _ _).1 h), if_neg hin]
  · refine htraps.trans ?_
    simp only [Option.map_some, List.filterMap_eq_map']
    rfl

/-! ### Page repair (R119, R232) -/

/-- A repaired thread replays its instruction. -/
theorem pageRepair_replays {s b : State} {k : Nat} {r : TrapRec} (hk : s.traps[k]? = some r) (hcause : causeCode r.info.cause = 2)
    (ht : (s.trapThread r).isSome = true) (hb : s.repairFor r = some b) :
    exec (.pageRepair k) s = .next ((b.dropTrap k).resume r.crew r.lane r.info.pc) := by
  have hguard : ¬(causeCode r.info.cause != 2 || (s.trapThread r).isNone) = true := by
    rw [hcause]
    exact fun h => absurd (Option.isNone_iff_eq_none.1 h) (Option.isSome_iff_ne_none.1 ht)
  have hrepair : s.pageRepair k = some ((b.dropTrap k).resume r.crew r.lane r.info.pc) := by
    unfold State.pageRepair
    rw [hk]
    dsimp only
    rw [if_neg hguard, hb]
    rfl
  exact congrArg (fun o => Host.Outcome.next (Option.getD o s)) hrepair

/-! ### A debugger's release (R231, R232) -/

section
variable {s : State} {lid n l : Nat} {tid : Word} {i : TrapInfo}

theorem debuggerRelease_of_held (hdbg : (s.launch lid).debugger = true) (hfind : s.findThread lid tid = some (n, l))
    (htrap : ((s.crew n).thr l).trap = some i) (hno : ∀ r ∈ s.traps, ¬(r.launch = lid ∧ r.tid = tid)) (kill : Bool) :
    s.debuggerRelease lid tid kill = some (if kill then s.killThread n l
      else s.resume n l (if causeCode i.cause = 0x0c ∨ causeCode i.cause = 0x0d then i.next else i.pc)) := by
  have hnone : ¬(s.traps.any fun r => r.launch == lid && r.tid == tid) = true := by
    rw [List.any_eq_true]
    rintro ⟨r, hr, heq⟩
    obtain ⟨hl, ht⟩ := Bool.and_eq_true_iff.1 heq
    exact hno r hr ⟨beq_iff_eq.1 hl, beq_iff_eq.1 ht⟩
  unfold State.debuggerRelease
  rw [hdbg, Bool.not_true, if_neg Bool.false_ne_true, hfind]
  dsimp only
  rw [htrap]
  dsimp only
  rw [if_neg hnone]
  cases kill with
  | true => rw [if_pos rfl, if_pos rfl]
  | false => rw [if_neg Bool.false_ne_true, if_neg Bool.false_ne_true]

theorem exec_debuggerRelease {t : State} {kill : Bool} (h : s.debuggerRelease lid tid kill = some t) :
    exec (.debuggerRelease lid tid kill) s = .next t := congrArg (fun o => Host.Outcome.next (Option.getD o s)) h

end

end
end Sys2Proof.Machine


namespace Sys2Proof.Machine

section

/-! ### What a trap record's policy comes to (R231, R233) -/

/-- A record may kill its launch: its cycle is over, and none that would kill it comes before. -/
def State.mayKill (s : State) (r : TrapRec) : Prop :=
  r.dtime < s.dtime ∧ ∀ q ∈ s.traps, q.launch = r.launch → q.comesBefore r = true → s.kills q = false

theorem State.mayKill_iff (s : State) (r : TrapRec) : s.mayKill r ↔
    ¬(s.dtime ≤ r.dtime ∨ (s.traps.any fun q => q.launch == r.launch && q.comesBefore r && s.kills q) = true) := by
  rw [not_or, Nat.not_le, List.any_eq_true]
  refine and_congr_right fun _ => ⟨fun h => ?_, fun h q hq hl hb => ?_⟩
  · rintro ⟨q, hq, hall⟩
    obtain ⟨hlb, hkills⟩ := Bool.and_eq_true_iff.1 hall
    obtain ⟨hl, hb⟩ := Bool.and_eq_true_iff.1 hlb
    exact Bool.false_ne_true ((h q hq (beq_iff_eq.1 hl) hb).symm.trans hkills)
  · by_contra hk
    exact h ⟨q, hq, Bool.and_eq_true_iff.2 ⟨Bool.and_eq_true_iff.2 ⟨beq_iff_eq.2 hl, hb⟩, Bool.of_not_eq_false hk⟩⟩

/-- The record's cause is a breakpoint under a debugger (R258). -/
def State.breaks (s : State) (r : TrapRec) : Prop := causeCode r.info.cause = 0x0d ∧ (s.launch r.launch).debugger = true

section
variable {s : State} {k : Nat} {r : TrapRec}

theorem State.not_repaired (ht : (s.trapThread r).isSome = true) (hrep : causeCode r.info.cause = 2 → s.repairFor r = none) :
    ¬(s.trapThread r).isNone = true ∧ ¬(causeCode r.info.cause == 2 && (s.repairFor r).isSome) = true := by
  refine ⟨fun h => Option.isSome_iff_ne_none.1 ht (Option.isNone_iff_eq_none.1 h), fun h => ?_⟩
  obtain ⟨hc, hs⟩ := Bool.and_eq_true_iff.1 h
  exact Option.isSome_iff_ne_none.1 hs (hrep (beq_iff_eq.1 hc))

theorem State.trapPolicy_of_breaks (hk : s.traps[k]? = some r) (ht : (s.trapThread r).isSome = true) (hb : s.breaks r) :
    s.trapPolicy k = s.applyPolicy k r := by
  obtain ⟨hnone, hrep⟩ := State.not_repaired ht fun h => absurd (h.symm.trans hb.1) (by decide)
  unfold State.trapPolicy
  rw [hk]
  dsimp only
  rw [if_neg hnone, if_neg hrep]
  exact if_pos hb

theorem State.trapPolicy_waits (hk : s.traps[k]? = some r) (ht : (s.trapThread r).isSome = true)
    (hrep : causeCode r.info.cause = 2 → s.repairFor r = none) (hb : ¬s.breaks r) (hkills : s.kills r = true) (hmay : ¬s.mayKill r) :
    s.trapPolicy k = none := by
  obtain ⟨hnone, hrep⟩ := State.not_repaired ht hrep
  unfold State.trapPolicy
  rw [hk]
  dsimp only
  rw [if_neg hnone, if_neg hrep]
  exact (if_neg hb).trans (if_pos ⟨hkills, not_not.1 (mt (s.mayKill_iff r).2 hmay)⟩)

theorem State.trapPolicy_applies (hk : s.traps[k]? = some r) (ht : (s.trapThread r).isSome = true)
    (hrep : causeCode r.info.cause = 2 → s.repairFor r = none) (hb : ¬s.breaks r) (hmay : s.kills r = true → s.mayKill r) :
    s.trapPolicy k = s.applyPolicy k r := by
  obtain ⟨hnone, hrep⟩ := State.not_repaired ht hrep
  unfold State.trapPolicy
  rw [hk]
  dsimp only
  rw [if_neg hnone, if_neg hrep]
  exact (if_neg hb).trans (if_neg fun h => (s.mayKill_iff r).1 (hmay h.1) h.2)

/-- Without a breakpoint the launch's policy says what becomes of the thread (R231). -/
theorem State.applyPolicy_eq (hb : ¬s.breaks r) : s.applyPolicy k r = match (s.launch r.launch).policy with
    | 0 => some ((s.dropTrap k).killLaunch r.launch (causeCode r.info.cause))
    | 1 => some ((s.dropTrap k).killThread r.crew r.lane)
    | 2 => (s.dropTrap k).deliverTrap r
    | _ => some (s.dropTrap k) := if_neg hb

theorem State.kills_of_killLaunch (h : (s.launch r.launch).policy = 0) : s.kills r = true := by
  rw [State.kills, h]
  rfl

theorem State.kills_of_other (h0 : (s.launch r.launch).policy ≠ 0) (h2 : (s.launch r.launch).policy ≠ 2) : s.kills r = false := by
  rw [State.kills, beq_eq_false_iff_ne.2 h0, beq_eq_false_iff_ne.2 h2]
  rfl

/-- R234: a delivery kills a running launch exactly when its frame lies outside the local window, or its stores trap. -/
theorem State.kills_of_user (h2 : (s.launch r.launch).policy = 2) (hr : (s.launch r.launch).phase = .running)
    (hk : (s.launch r.launch).killCause = none) {b : State} (hb : s.unspill r.crew [60, 61, 62, 63] = some b) :
    s.kills r = true ↔ (s.launch r.launch).localBytes < (b.frameAt r).toNat + 64 ∨ ∃ cause, b.frameStores r = .trap cause := by
  have hlaunch := State.launch_unspill hb r.launch
  have hkills : s.kills r = (b.deliverFrame r).any fun t => (t.launch r.launch).killCause.isSome := by
    rw [State.kills, h2, State.deliverTrap, hb]
    rfl
  rw [hkills, ← hlaunch]
  rw [← hlaunch] at hr hk
  exact State.deliverFrame_kills hr hk

end

/-! ### A breakpoint under a debugger (R258) -/

/-- Steps that begin change crews, and the steps that the threads in bins and in spill areas name; no launch, no bin and no register otherwise. -/
structure Begins (s t : State) : Prop where
  rest : t = { s with crews := t.crews, clusters := t.clusters, launches := t.launches }
  cluster : ∀ n, t.cluster n = { s.cluster n with bins := (t.cluster n).bins }
  launch : ∀ n, t.launch n = { s.launch n with spill := (t.launch n).spill }
  map : ∀ n, (t.crew n).map = (s.crew n).map

theorem Begins.refl (s : State) : Begins s s := ⟨rfl, fun _ => rfl, fun _ => rfl, fun _ => rfl⟩

/-- A cluster with the steps of the threads in its bins renamed. -/
def Cluster.renamed (f : Option Nat → Option Nat) (x : Cluster) : Cluster :=
  { x with bins := x.bins.map fun e => (e.1, { e.2 with threads := e.2.threads.map fun y => { y with stepping := f y.stepping } }) }

/-- A launch with the steps of its spilled threads renamed. -/
def Launch.renamed (f : Option Nat → Option Nat) (x : Launch) : Launch :=
  { x with spill := x.spill.map fun y => { y with thr := { y.thr with stepping := f y.thr.stepping } } }

theorem Begins.onBrooded (s : State) (f : Option Nat → Option Nat) : Begins s (s.onBrooded f) := by
  refine ⟨rfl, fun n => ?_, fun n => ?_, fun _ => rfl⟩
  · have h : (s.onBrooded f).cluster n = (s.cluster n).renamed f := tget_map_out (Cluster.renamed f) {} s.clusters n
    rw [h]
    rfl
  · have h : (s.onBrooded f).launch n = (s.launch n).renamed f := tget_map_out (Launch.renamed f) {} s.launches n
    rw [h]
    rfl

theorem Begins.setCrew {s t : State} (h : Begins s t) {k : Nat} {c : Crew} (hc : c.map = (t.crew k).map) : Begins s (t.setCrew k c) := by
  refine ⟨congrArg (State.setCrew · k c) h.rest, h.cluster, h.launch, fun n => ?_⟩
  rw [← h.map n]
  by_cases hn : n = k
  · rw [hn, State.crew_setCrew, hc]
  · rw [State.crew_setCrew_ne _ _ hn]

/-- A crew in a step that begins (R257). -/
def State.stepped (s : State) (id k : Nat) : Crew :=
  { (if (s.crew k).stepping.isSome then s.crew k
      else (s.crew k).onThreads fun l t => if t.isLive then { t with halted := false, passBar := s.beforeBar k l } else t) with
    halted := false, stepping := some id }

theorem State.map_stepped (s : State) (id k : Nat) : (s.stepped id k).map = (s.crew k).map := by
  unfold State.stepped
  dsimp only
  split <;> rfl

/-- Crews that begin a step run in it. -/
theorem begins_foldl (id : Nat) (ks : List Nat) {s t : State} (h : Begins s t) :
    Begins s (ks.foldl (fun t k => t.setCrew k (t.stepped id k)) t) := by
  induction ks generalizing t with
  | nil => exact h
  | cons k ks ih => exact ih (h.setCrew (t.map_stepped id k))

theorem stepping_foldl (i : Nat) (ks : List Nat) (t : State) {n : Nat}
    (hn : n ∈ ks ∨ ((t.crew n).stepping.isSome = true ∧ (t.crew n).halted = false)) :
    ((ks.foldl (fun t k => t.setCrew k (t.stepped i k)) t).crew n).stepping.isSome = true ∧
      ((ks.foldl (fun t k => t.setCrew k (t.stepped i k)) t).crew n).halted = false := by
  induction ks generalizing t with
  | nil => exact hn.elim (fun h => absurd h List.not_mem_nil) id
  | cons k ks ih =>
    refine ih _ ?_
    by_cases hnk : n = k
    · right
      rw [hnk, State.crew_setCrew]
      exact ⟨rfl, rfl⟩
    · rw [State.crew_setCrew_ne _ _ hnk]
      exact hn.imp (fun h => (List.mem_cons.1 h).resolve_left hnk) id

theorem State.begins_beginStep (s : State) (ks more : List Nat) : Begins s (s.beginStep ks more) ∧
    ∀ n ∈ ks, ((s.beginStep ks more).crew n).stepping.isSome = true ∧ ((s.beginStep ks more).crew n).halted = false := by
  refine ⟨begins_foldl _ _ (Begins.onBrooded s _), fun n hn => stepping_foldl _ _ _ (.inl ?_)⟩
  exact List.mem_dedup.2 (List.mem_append_left _ hn)

/-- The crews of the thread's halt set that no debugger has halted run on. -/
theorem State.begins_breakpoint (s : State) (crew l : Nat) : Begins s (s.breakpoint crew l) ∧
    ∀ n ∈ s.threadCrews crew l, (s.crew n).halted = false →
      ((s.breakpoint crew l).crew n).stepping.isSome = true ∧ ((s.breakpoint crew l).crew n).halted = false := by
  have hmem : ∀ n ∈ s.threadCrews crew l, (s.crew n).halted = false → n ∈ (s.threadCrews crew l).filter fun k => !(s.crew k).halted :=
    fun n hn hh => List.mem_filter.2 ⟨hn, by rw [hh]; rfl⟩
  unfold State.breakpoint
  dsimp only
  split
  next hempty =>
    refine ⟨Begins.refl s, fun n hn hh => ?_⟩
    rw [List.isEmpty_iff.1 hempty] at hmem
    exact absurd (hmem n hn hh) List.not_mem_nil
  · obtain ⟨hbegins, hsteps⟩ := s.begins_beginStep ((s.threadCrews crew l).filter fun k => !(s.crew k).halted)
      (s.crews.filterMap fun e => if e.2.launch = (s.crew crew).launch then e.2.stepping else none).dedup
    exact ⟨hbegins, fun n hn hh => hsteps n (hmem n hn hh)⟩

end
end Sys2Proof.Machine


namespace Sys2Proof.Machine

section

/-! ### What a delivery leaves (R234) -/

/-- The stores of a frame leave each crew's core and area. -/
theorem Delivers.core_area {s t : State} (h : Delivers s t) (k : Nat) : (t.crew k).core = (s.crew k).core ∧ (t.crew k).area = (s.crew k).area := by
  have hout := State.outline_crew_eq h.1 k
  have hcore : (t.crew k).outline.core = (s.crew k).outline.core := by rw [hout]
  have harea : (t.crew k).outline.area = (s.crew k).outline.area := by rw [hout]
  exact ⟨hcore, harea⟩

section
variable {s b b₁ b₂ : State} {r : TrapRec} {bs : List Byte}

/-- Memory stays canonical up to the frame (log 4). -/
theorem State.wf_frameStores (hb₁ : b.unspill r.crew [60, 61, 62, 63] = some b₁) (hok : b₁.frameStores r = .ok b₂ bs)
    (hm : Memory.wf b.mem = true) : Memory.wf b₂.mem = true := by
  have hunspilled : Follows b b₁ := (Follows.refl b).unspill.of_some hb₁
  have hstored : Follows b b₂ := FollowsDone.of_ok (hunspilled.storeFrame) hok
  exact hstored.1 hm

/-- What the delivery of a trap leaves of memory, the other crews, the registers and the threads. -/
theorem State.settleFrame_leaves (hr : r.lane < 32) (hok : b₁.frameStores r = .ok b₂ bs) (f entry : Dword) :
    let c := b₁.crew r.crew
    let cell := fun (y : Nat) => c.evictCell (256 * y)
    let t := (b₂.framed r c.lastCore f entry).settleFrame r.crew c
    (c.core.isSome = true → t.mem = b₂.mem) ∧
      (c.core = none → Memory.wf b₂.mem = true →
        (∀ a, ¬(cell 60 ≤ a ∧ a < cell 60 + 256) → ¬(cell 61 ≤ a ∧ a < cell 61 + 256) → Memory.read t.mem a = Memory.read b₂.mem a) ∧
        (c.area.isSome = true → ∀ y, y = 60 ∨ y = 61 → ∀ l, l < 32 → ((t.crew r.crew).lane y l).st = .live →
          Memory.readN t.mem (cell y + 4 * l) 4 = leBytes 4 ((t.crew r.crew).lane y l).val.toNat)) ∧
      t.traps = b₂.traps ∧ (∀ n, n ≠ r.crew → t.crew n = b₂.crew n) ∧
      (t.crew r.crew).visible = true ∧ (t.crew r.crew).rd2 60 r.lane = f ∧
      (∀ y l, y < 64 → l < 32 → (l = r.lane → y ≠ 60 ∧ y ≠ 61) → (t.crew r.crew).rd y l = (b₂.crew r.crew).rd y l) ∧
      (∀ l, l < 32 → l ≠ r.lane → (t.crew r.crew).thr l = (b₂.crew r.crew).thr l) ∧
      (t.crew r.crew).thr r.lane = { ((b₂.crew r.crew).thr r.lane).wake (b₂.cycleOf r.crew) with
        pc := entry, trap := none, cause := r.info.cause, trapPc := r.info.pc, trapVa := r.info.va } := by
  intro c cell t
  have hdelivers : Delivers b₁ b₂ := by
    have h : DeliversDone b₁ (b₁.frameStores r) := (Delivers.refl b₁).storeFrame
    rw [hok] at h
    exact h
  obtain ⟨p, hp⟩ := b₂.reg_framed r c.lastCore f entry (.inl rfl)
  obtain ⟨q, hq⟩ := b₂.reg_framed r c.lastCore f entry (.inr rfl)
  have hframe := State.settleFrame_frame hp hq c
  have honly := b₂.onlyCrew_framed r c.lastCore f entry
  have hcrew : ∀ n, t.crew n = (b₂.framed r c.lastCore f entry).crew n := fun n => by
    rw [show t = _ from hframe]
    rfl
  have hmem : (b₂.framed r c.lastCore f entry).mem = b₂.mem := by rw [honly.rest]
  have hcell : ∀ y, ((b₂.framed r c.lastCore f entry).crew r.crew).evictCell y = c.evictCell y := fun y => by
    unfold Crew.evictCell
    rw [State.framed_area, (hdelivers.core_area r.crew).2]
  refine ⟨fun hcore => ?_, fun hcore hwf => ?_, ?_, fun n hn => ?_, ?_, ?_, fun y l hy hl hne => ?_, fun l hl hne => ?_, ?_⟩
  · have hset : t = (b₂.framed r c.lastCore f entry).notePool c.lastCore := if_pos hcore
    rw [hset, State.notePool_spec]
    exact hmem
  · have hset : t = (b₂.framed r c.lastCore f entry).saveAgain r.crew [60, 61] := if_neg (by rw [hcore]; exact Bool.false_ne_true)
    rw [← hmem] at hwf
    refine ⟨fun a h60 h61 => ?_, fun harea y hy l hl hlive => ?_⟩
    · rw [hset, State.read_saveAgain_of_ne hp hq hwf (by rw [hcell]; exact h60) (by rw [hcell]; exact h61), hmem]
    · have harea' : ((b₂.framed r c.lastCore f entry).crew r.crew).area.isSome = true := by
        rw [State.framed_area, (hdelivers.core_area r.crew).2]
        exact harea
      rw [hcrew] at hlive ⊢
      rw [hset, show cell y = _ from (hcell (256 * y)).symm]
      exact State.readN_saveAgain hp hq hwf harea' hy hl hlive
  · rw [show t = _ from hframe, honly.rest]
  · rw [hcrew]
    exact honly.crews n hn
  · rw [hcrew]
    exact State.framed_visible ..
  · rw [hcrew]
    exact State.rd2_framed _ _ _ _ _ hr
  · rw [hcrew]
    exact State.rd_framed _ _ _ _ _ hy hl hne
  · rw [hcrew, State.thr_framed _ _ _ _ _ hr hl, if_neg hne]
  · rw [hcrew, State.thr_framed _ _ _ _ _ hr hr, if_pos rfl]

end

/-! ### The policies of a launch (R231, R233, R234) -/

theorem exec_trapPolicy {s t : State} {k : Nat} (h : s.trapPolicy k = some t) : exec (.trapPolicy k) s = .next t :=
  congrArg (fun o => Host.Outcome.next (Option.getD o s)) h

theorem exec_trapPolicy_waits {s : State} {k : Nat} (h : s.trapPolicy k = none) : exec (.trapPolicy k) s = .next s :=
  congrArg (fun o => Host.Outcome.next (Option.getD o s)) h

/-- A delivery whose frame's registers are at hand comes to its end, unless it kills. -/
theorem State.deliverTrap_eq {b b₁ : State} {r : TrapRec} (hb₁ : b.unspill r.crew [60, 61, 62, 63] = some b₁) : b.deliverTrap r = b₁.deliverFrame r := by
  rw [State.deliverTrap, hb₁]
  rfl

/-- A breakpoint under a debugger lets its halt set run on, and its record goes (R258). -/
theorem trapPolicy_breaks {s : State} {k : Nat} {r : TrapRec} (hk : s.traps[k]? = some r) (ht : (s.trapThread r).isSome = true) (hb : s.breaks r) :
    exec (.trapPolicy k) s = .next ((s.dropTrap k).breakpoint r.crew r.lane) :=
  exec_trapPolicy ((State.trapPolicy_of_breaks hk ht hb).trans (if_pos hb))

theorem State.breakpoint_rest (s : State) (k crew l : Nat) : (s.dropTrap k).breakpoint crew l =
    { s with crews := ((s.dropTrap k).breakpoint crew l).crews, clusters := ((s.dropTrap k).breakpoint crew l).clusters
             launches := ((s.dropTrap k).breakpoint crew l).launches, traps := dropAt s.traps k } :=
  ((s.dropTrap k).begins_breakpoint crew l).1.rest

/-- The stores of the frame, by the launch as it was before the registers were read back. -/
theorem State.frameStores_unspill {b b₁ : State} {r : TrapRec} {rs : List Nat} (hb₁ : b.unspill r.crew rs = some b₁) : b₁.frameStores r =
    b₁.storeFrame (b₁.crew r.crew).lastCore (b.launch r.launch).asid r.launch r.tid
      (((b₁.crew r.crew).thr r.lane).lbase.toNat + (b₁.frameAt r).toNat) (chunks 16 4 (trapFrame (b₁.crew r.crew) r.lane r.info)) := by
  rw [State.frameStores, State.launch_unspill hb₁]

section
variable {s : State} {k : Nat} {r : TrapRec}

/-- A record that does not kill its launch, or may, gets what the policy says. -/
theorem exec_trapPolicy_applies (hk : s.traps[k]? = some r) (ht : (s.trapThread r).isSome = true)
    (hrep : causeCode r.info.cause = 2 → s.repairFor r = none) (hb : ¬s.breaks r) (hmay : s.kills r = true → s.mayKill r) {t : State}
    (h : s.applyPolicy k r = some t) : exec (.trapPolicy k) s = .next t :=
  exec_trapPolicy ((State.trapPolicy_applies hk ht hrep hb hmay).trans h)

/-- A policy that neither kills the launch nor delivers the trap spares the launch. -/
theorem trapPolicy_spares (hk : s.traps[k]? = some r) (ht : (s.trapThread r).isSome = true)
    (hrep : causeCode r.info.cause = 2 → s.repairFor r = none) (hb : ¬s.breaks r)
    (h0 : (s.launch r.launch).policy ≠ 0) (h2 : (s.launch r.launch).policy ≠ 2) {t : State} (h : s.applyPolicy k r = some t) :
    s.kills r = false ∧ exec (.trapPolicy k) s = .next t := by
  have hkills := State.kills_of_other h0 h2
  exact ⟨hkills, exec_trapPolicy_applies hk ht hrep hb (fun hk' => absurd (hkills.symm.trans hk') Bool.false_ne_true) h⟩

/-- The policy USER delivers the trap. -/
theorem State.applyPolicy_user (hb : ¬s.breaks r) (h2 : (s.launch r.launch).policy = 2) {b₁ : State}
    (hb₁ : (s.dropTrap k).unspill r.crew [60, 61, 62, 63] = some b₁) : s.applyPolicy k r = b₁.deliverFrame r := by
  rw [State.applyPolicy_eq hb, h2]
  exact State.deliverTrap_eq hb₁

/-- R234: what the delivery of a trap does, once the frame's registers are at hand. -/
theorem trapPolicy_delivers (hk : s.traps[k]? = some r) (ht : (s.trapThread r).isSome = true)
    (hrep : causeCode r.info.cause = 2 → s.repairFor r = none) (hb : ¬s.breaks r)
    (h2 : (s.launch r.launch).policy = 2) (hmay : s.kills r = true → s.mayKill r) {b₁ : State}
    (hb₁ : (s.dropTrap k).unspill r.crew [60, 61, 62, 63] = some b₁) :
    let c := b₁.crew r.crew
    let x := s.launch r.launch
    let f := b₁.frameAt r
    (c.core.isSome = true → b₁.mayAllocate r.crew c.framesRegs.length = true) →
      (x.localBytes < f.toNat + 64 → exec (.trapPolicy k) s = .next (b₁.killLaunch r.launch (causeCode r.info.cause))) ∧
      (f.toNat + 64 ≤ x.localBytes →
        (∀ cause, b₁.frameStores r = .trap cause → exec (.trapPolicy k) s = .next (b₁.killLaunch r.launch (causeCode r.info.cause))) ∧
        ∀ b₂ bs, b₁.frameStores r = .ok b₂ bs →
          exec (.trapPolicy k) s = .next ((b₂.framed r c.lastCore f x.trapEntry).settleFrame r.crew c)) := by
  intro c x f hroom
  have hlaunch : b₁.launch r.launch = x := State.launch_unspill hb₁ r.launch
  have happly := State.applyPolicy_user hb h2 hb₁
  refine ⟨fun hout => exec_trapPolicy_applies hk ht hrep hb hmay (happly.trans (State.deliverFrame_of_outside (hlaunch ▸ hout))),
    fun hin => ⟨fun cause htrap => exec_trapPolicy_applies hk ht hrep hb hmay (happly.trans ?_),
      fun b₂ bs hok => exec_trapPolicy_applies hk ht hrep hb hmay (happly.trans ?_)⟩⟩
  · rw [State.deliverFrame_of_inside (hlaunch ▸ hin), htrap]
  · rw [State.deliverFrame_of_ok (hlaunch ▸ hin) hok, hlaunch]
    refine if_neg fun h => ?_
    obtain ⟨hcore, hno⟩ := Bool.and_eq_true_iff.1 h
    rw [hroom hcore] at hno
    exact Bool.false_ne_true hno

end

/-- Settles O49: each kind of event is taken up by what it does, the policies by what each of them comes to. -/
theorem trapEvents : Obligations.TrapEvents := by
  unfold Obligations.TrapEvents
  refine ⟨fun s cause va hrun hrob hmask hready hfetch => ?_, fun s b k r hk hcause ht hb hr => ?_, fun s k r hk ht hrep hr => ?_,
    fun s k r hk ht hcause hdbg => ?_, fun s lid tid n l i hdbg hfind htrap hno => ⟨?_, ?_⟩⟩
  · exact ⟨_, takeTrap_takes hrun hrob hmask hready hfetch, takeTrap_leaves s cause va⟩
  · exact ⟨_, pageRepair_replays hk hcause ht hb, rfl, fun n hn => State.crew_resume_ne _ _ _ _ hn, State.map_resume _ _ _ _,
      fun l hl => State.thr_resume _ _ _ _ hl⟩
  · intro x b mayKill hnobreak
    have hb : ¬s.breaks r := fun h => Bool.false_ne_true ((hnobreak h.1).symm.trans h.2)
    refine ⟨fun hkills hmay => exec_trapPolicy_waits (State.trapPolicy_waits hk ht hrep hb hkills hmay), fun h0 => ?_, fun h1 => ?_, fun h3 => ?_,
      fun h2 hphase hnone b₁ hb₁ => ?_, fun h2 hmay b₁ hb₁ => ?_⟩
    · exact ⟨State.kills_of_killLaunch h0, fun hmay =>
        exec_trapPolicy_applies hk ht hrep hb (fun _ => hmay) ((State.applyPolicy_eq hb).trans (by rw [h0]; rfl))⟩
    · exact trapPolicy_spares hk ht hrep hb (by rw [h1]; decide) (by rw [h1]; decide) ((State.applyPolicy_eq hb).trans (by rw [h1]; rfl))
    · exact trapPolicy_spares hk ht hrep hb (by rw [h3]; decide) (by rw [h3]; decide) ((State.applyPolicy_eq hb).trans (by rw [h3]; rfl))
    · intro c f
      have hkills := State.kills_of_user h2 hphase hnone hb₁
      rw [State.frameStores_unspill hb₁] at hkills
      exact hkills
    · intro c f frame hroom
      have hframe : b₁.frameStores r = frame := State.frameStores_unspill (b := b) hb₁
      obtain ⟨hout, hin⟩ := trapPolicy_delivers hk ht hrep hb h2 hmay hb₁ hroom
      refine ⟨hout, fun hle => ⟨fun cause htrap => (hin hle).1 cause (hframe.trans htrap), fun b₂ bs hok => ?_⟩⟩
      intro cell
      obtain ⟨hmem, harea, hrest⟩ := State.settleFrame_leaves hr (hframe.trans hok) f x.trapEntry
      exact ⟨_, (hin hle).2 b₂ bs (hframe.trans hok), hmem,
        fun hcore hwf => harea hcore (State.wf_frameStores hb₁ (hframe.trans hok) hwf), hrest⟩
  · obtain ⟨hbegins, hsteps⟩ := (s.dropTrap k).begins_breakpoint r.crew r.lane
    exact ⟨_, trapPolicy_breaks hk ht ⟨hcause, hdbg⟩, s.breakpoint_rest k r.crew r.lane, hbegins.cluster, hbegins.launch, hsteps, hbegins.map⟩
  · exact exec_debuggerRelease ((debuggerRelease_of_held hdbg hfind htrap hno true).trans (congrArg some (if_pos rfl)))
  · refine ⟨_, exec_debuggerRelease ((debuggerRelease_of_held hdbg hfind htrap hno false).trans (congrArg some (if_neg Bool.false_ne_true))), rfl,
      fun k hk => State.crew_resume_ne _ _ _ _ hk, ?_, fun j hj => ?_⟩
    · exact State.map_resume ..
    · exact State.thr_resume _ _ _ _ hj

end
end Sys2Proof.Machine

namespace Sys2Proof

section

/-! # Encoding and decoding -/

/-! ### Fields that are laid out side by side -/

/-- One bit of a word, as a field of width 1. -/
theorem bit_getLsbD {n : Nat} (x : BitVec n) (k : Nat) : bit (x.getLsbD k) = x.extractLsb' k 1 := by
  ext i hi
  obtain rfl : i = 0 := by omega
  simp [bit]

/-- Two fields that lie side by side are one. -/
theorem append_fields {n : Nat} (x : BitVec n) (m k l : Nat) : x.extractLsb' (k + l) m ++ x.extractLsb' k l = x.extractLsb' k (m + l) :=
  BitVec.extractLsb'_append_extractLsb'_eq_extractLsb' rfl

/-- A word of two fields. -/
theorem append_whole (m l : Nat) (x : BitVec (m + l)) : x.extractLsb' l m ++ x.extractLsb' 0 l = x :=
  (BitVec.extractLsb'_append_extractLsb'_eq_extractLsb' (Nat.zero_add l).symm).trans BitVec.extractLsb'_eq_self

/-! ### The fields of a word (R69) -/

section
variable (op : BitVec 8) (d a b fn : Reg)

theorem fieldsOf_rWord : fieldsOf (rWord op d a b fn) = ⟨op, d, a, b, fn⟩ := by
  unfold fieldsOf
  congr 1
  · exact rWord_opcode ..
  · exact (BitVec.extractLsb'_append_eq_of_le (by decide)).trans <| (BitVec.extractLsb'_append_eq_of_le (by decide)).trans <|
      (BitVec.extractLsb'_append_eq_of_le (by decide)).trans BitVec.extractLsb'_append_eq_right
  · exact (BitVec.extractLsb'_append_eq_of_le (by decide)).trans <| (BitVec.extractLsb'_append_eq_of_le (by decide)).trans
      BitVec.extractLsb'_append_eq_right
  · exact (BitVec.extractLsb'_append_eq_of_le (by decide)).trans BitVec.extractLsb'_append_eq_right
  · exact BitVec.extractLsb'_append_eq_right

theorem fieldsOf_iWord (x : BitVec 12) : fieldsOf (iWord op d a x) = ⟨op, d, a, x.extractLsb' 6 6, x.extractLsb' 0 6⟩ := by
  unfold fieldsOf
  congr 1
  · exact iWord_opcode ..
  · exact (BitVec.extractLsb'_append_eq_of_le (by decide)).trans <| (BitVec.extractLsb'_append_eq_of_le (by decide)).trans
      BitVec.extractLsb'_append_eq_right
  · exact (BitVec.extractLsb'_append_eq_of_le (by decide)).trans BitVec.extractLsb'_append_eq_right
  all_goals exact BitVec.extractLsb'_append_eq_of_add_le (by decide)

theorem fieldsOf_bWord (x : BitVec 24) :
    fieldsOf (bWord op x) = ⟨op, x.extractLsb' 18 6, x.extractLsb' 12 6, x.extractLsb' 6 6, x.extractLsb' 0 6⟩ := by
  unfold fieldsOf
  congr 1
  · exact bWord_opcode ..
  all_goals exact BitVec.extractLsb'_append_eq_of_add_le (by decide)

/-- A word is the R-form word of its fields. -/
theorem rWord_fieldsOf (w : Word) : rWord (fieldsOf w).op (fieldsOf w).d (fieldsOf w).a (fieldsOf w).b (fieldsOf w).fn = w := by
  unfold rWord fieldsOf
  dsimp only
  rw [append_fields w 8 18 6, append_fields w 14 12 6, append_fields w 20 6 6]
  exact append_whole 26 6 w

theorem iWord_fields : iWord op d a (b ++ fn) = rWord op d a b fn :=
  (BitVec.append_assoc (x₁ := op ++ d ++ a) (x₂ := b) (x₃ := fn)).symm

theorem bWord_fields : bWord op (d ++ a ++ b ++ fn) = rWord op d a b fn := by
  rw [← rWord_fieldsOf (bWord op (d ++ a ++ b ++ fn)), fieldsOf_bWord]
  congr 1
  · exact (BitVec.extractLsb'_append_eq_of_le (by decide)).trans <| (BitVec.extractLsb'_append_eq_of_le (by decide)).trans
      BitVec.extractLsb'_append_eq_left
  · exact (BitVec.extractLsb'_append_eq_of_le (by decide)).trans <| (BitVec.extractLsb'_append_eq_of_le (by decide)).trans
      BitVec.extractLsb'_append_eq_right
  · exact (BitVec.extractLsb'_append_eq_of_le (by decide)).trans BitVec.extractLsb'_append_eq_right
  · exact BitVec.extractLsb'_append_eq_right

theorem imm_fields (x : BitVec 12) : (⟨op, d, a, x.extractLsb' 6 6, x.extractLsb' 0 6⟩ : Fields).imm = x := append_whole 6 6 x

theorem off_fields (x : BitVec 24) :
    (⟨op, x.extractLsb' 18 6, x.extractLsb' 12 6, x.extractLsb' 6 6, x.extractLsb' 0 6⟩ : Fields).off = x := by
  unfold Fields.off
  dsimp only
  rw [append_fields x 6 12 6, append_fields x 12 6 6]
  exact append_whole 18 6 x

theorem decode_rWord (x : Word) : decode (rWord op d a b fn) x = decodeFields ⟨op, d, a, b, fn⟩ x :=
  congrArg (decodeFields · x) (fieldsOf_rWord op d a b fn)

theorem decode_iWord (i : BitVec 12) (x : Word) :
    decode (iWord op d a i) x = decodeFields ⟨op, d, a, i.extractLsb' 6 6, i.extractLsb' 0 6⟩ x :=
  congrArg (decodeFields · x) (fieldsOf_iWord op d a i)

theorem decode_bWord (o : BitVec 24) (x : Word) :
    decode (bWord op o) x = decodeFields ⟨op, o.extractLsb' 18 6, o.extractLsb' 12 6, o.extractLsb' 6 6, o.extractLsb' 0 6⟩ x :=
  congrArg (decodeFields · x) (fieldsOf_bWord op o)

end

/-! ### What the fn and dst fields hold (R72, R73, R316) -/

section
variable (f h s x : Bool) (n p : BitVec 2) (r z : BitVec 3) (k : BitVec 4)

theorem ccFn_parts : (ccFn f n).extractLsb' 3 3 = 0 ∧ (ccFn f n).getLsbD 2 = f ∧ (ccFn f n).extractLsb' 0 2 = n := by
  refine ⟨?_, ?_, ?_⟩ <;> revert f n <;> decide

theorem bitFn_parts : (bitFn f).extractLsb' 1 5 = 0 ∧ (bitFn f).getLsbD 0 = f := by
  refine ⟨?_, ?_⟩ <;> revert f <;> decide

theorem ccDst_parts : (ccDst n).extractLsb' 2 4 = 0 ∧ (ccDst n).extractLsb' 0 2 = n := by
  refine ⟨?_, ?_⟩ <;> revert n <;> decide

theorem rndFn_parts : (rndFn r).extractLsb' 3 3 = 0 ∧ (rndFn r).extractLsb' 0 3 = r := by
  refine ⟨?_, ?_⟩ <;> revert r <;> decide

theorem halfFn_parts : (halfFn h r).extractLsb' 4 2 = 0 ∧ (halfFn h r).getLsbD 3 = h ∧ (halfFn h r).extractLsb' 0 3 = r := by
  refine ⟨?_, ?_, ?_⟩ <;> revert h r <;> decide

theorem memFn_parts : (memFn z p x).extractLsb' 3 3 = z ∧ (memFn z p x).extractLsb' 1 2 = p ∧ (memFn z p x).getLsbD 0 = x := by
  refine ⟨?_, ?_, ?_⟩ <;> revert z p x <;> decide

theorem selFn_parts : (n ++ k : Reg).extractLsb' 4 2 = n ∧ (n ++ k : Reg).extractLsb' 0 4 = k := by
  refine ⟨?_, ?_⟩ <;> revert n k <;> decide

theorem octalFn_parts : (z ++ r : Reg).extractLsb' 3 3 = z ∧ (z ++ r : Reg).extractLsb' 0 3 = r := by
  refine ⟨?_, ?_⟩ <;> revert z r <;> decide

theorem cvtFn_parts : (n ++ bit f ++ r : Reg).extractLsb' 4 2 = n ∧ (n ++ bit f ++ r : Reg).getLsbD 3 = f ∧
    (n ++ bit f ++ r : Reg).extractLsb' 0 3 = r := by
  refine ⟨?_, ?_, ?_⟩ <;> revert n f r <;> decide

theorem scanFn_parts : (0#1 ++ bit s ++ bit x ++ r : Reg).getLsbD 5 = false ∧ (0#1 ++ bit s ++ bit x ++ r : Reg).getLsbD 4 = s ∧
    (0#1 ++ bit s ++ bit x ++ r : Reg).getLsbD 3 = x ∧ (0#1 ++ bit s ++ bit x ++ r : Reg).extractLsb' 0 3 = r := by
  refine ⟨?_, ?_, ?_, ?_⟩ <;> revert s x r <;> decide

theorem atomFn_parts : (k ++ bit s ++ bit x : Reg).extractLsb' 2 4 = k ∧ (k ++ bit s ++ bit x : Reg).getLsbD 1 = s ∧
    (k ++ bit s ++ bit x : Reg).getLsbD 0 = x := by
  refine ⟨?_, ?_, ?_⟩ <;> revert k s x <;> decide

theorem mmaFn_parts (na nb za q t : Bool) : let fn : Reg := 0#1 ++ bit t ++ bit q ++ bit za ++ bit nb ++ bit na
    fn.getLsbD 0 = na ∧ fn.getLsbD 1 = nb ∧ fn.getLsbD 2 = za ∧ fn.getLsbD 3 = q ∧ fn.getLsbD 4 = t ∧ fn.getLsbD 5 = false := by
  refine ⟨?_, ?_, ?_, ?_, ?_, ?_⟩ <;> revert na nb za q t <;> decide

theorem mdrainFn_parts (rs cs sat : Bool) : let fn : Reg := r ++ bit sat ++ bit cs ++ bit rs
    fn.getLsbD 0 = rs ∧ fn.getLsbD 1 = cs ∧ fn.getLsbD 2 = sat ∧ fn.extractLsb' 3 3 = r := by
  refine ⟨?_, ?_, ?_, ?_⟩ <;> revert r sat cs rs <;> decide

end

/-- The fn field of LEA is laid out as that of the packed halves (R326). -/
theorem leaFn_eq (x : Bool) (t : BitVec 3) : (0#2 ++ bit x ++ t : Reg) = halfFn x t := rfl

/-- The fn field of SHFL is laid out as that of an instruction that may write flags (R351). -/
theorem shflFn_eq (z : Bool) (m : BitVec 2) : (0#3 ++ bit z ++ m : Reg) = ccFn z m := rfl

/-- A two-bit code alone in its field. -/
theorem codeFn_eq (k : BitVec 2) : (0#4 ++ k : Reg) = ccDst k := rfl

/-! ### What the extension words hold (R72) -/

theorem entryExt_parts (e : BitVec 24) (t : BitVec 8) : (e ++ t : Word).extractLsb' 8 24 = e ∧ (e ++ t : Word).extractLsb' 0 8 = t :=
  ⟨BitVec.extractLsb'_append_eq_left, BitVec.extractLsb'_append_eq_right⟩

theorem copyExt_parts (t : Bool) (n : BitVec 4) (shape : BitVec 20) : let x : Word := 0#7 ++ bit t ++ n ++ shape
    x.extractLsb' 25 7 = 0 ∧ x.extractLsb' 0 20 = shape ∧ x.extractLsb' 20 4 = n ∧ x.getLsbD 24 = t := by
  refine ⟨?_, ?_, ?_, ?_⟩
  · exact (BitVec.extractLsb'_append_eq_of_le (by decide)).trans <| (BitVec.extractLsb'_append_eq_of_le (by decide)).trans
      BitVec.extractLsb'_append_eq_left
  · exact BitVec.extractLsb'_append_eq_right
  · exact (BitVec.extractLsb'_append_eq_of_le (by decide)).trans BitVec.extractLsb'_append_eq_right
  · simp only [BitVec.getLsbD_append]
    cases t <;> rfl

theorem mmaExt_parts (thr : BitVec 11) (n : BitVec 4) (acc : BitVec 17) : let x : Word := thr ++ n ++ acc
    x.extractLsb' 0 17 = acc ∧ x.extractLsb' 17 4 = n ∧ x.extractLsb' 21 11 = thr :=
  ⟨BitVec.extractLsb'_append_eq_right,
    (BitVec.extractLsb'_append_eq_of_le (by decide)).trans BitVec.extractLsb'_append_eq_right,
    (BitVec.extractLsb'_append_eq_of_le (by decide)).trans BitVec.extractLsb'_append_eq_left⟩

theorem mdrainExt_parts (acc : BitVec 17) : (0#15 ++ acc : Word).extractLsb' 17 15 = 0 ∧ (0#15 ++ acc : Word).extractLsb' 0 17 = acc :=
  ⟨BitVec.extractLsb'_append_eq_left, BitVec.extractLsb'_append_eq_right⟩

/-! ### An encoded instruction decodes to itself -/

/-- Every operand stands where the decoder looks for it, and every other bit is zero. -/
theorem decode_encode {i : Instr} (h : i.encodable = true) : decode (encodeWord i) (encodeExt i) = .ok i := by
  cases i <;> first
    | exact absurd h Bool.false_ne_true
    | (unfold encodeWord encodeExt; dsimp only)
  case nop => rfl
  all_goals simp only [decode_rWord, decode_iWord, decode_bWord, decodeFields, decode0, decode1, decode2, decode3, decode4, decode6, decode7,
    decode8, decodeA, decodeB, decodeC, decodeD, imm_fields, off_fields, Fields.hi3, Fields.lo3, Fields.bit, Fields.cc, Fields.dcc,
    Fields.space, zeroed, leaFn_eq, shflFn_eq, codeFn_eq, ccFn_parts, bitFn_parts, ccDst_parts, rndFn_parts, halfFn_parts, memFn_parts,
    selFn_parts, octalFn_parts, cvtFn_parts, scanFn_parts, atomFn_parts, mmaFn_parts, mdrainFn_parts, entryExt_parts,
    copyExt_parts, mmaExt_parts, mdrainExt_parts, BitVec.toNat_ofNat, BitVec.ofNat_eq_ofNat, Nat.reduceDiv, Nat.reduceMod, Nat.reducePow,
    BitVec.reduceBEq, Bool.and_self, Bool.not_false, if_true]

/-- The first word of an instruction names it wide exactly when it is (R68). -/
theorem wideOpcode_encodeWord (i : Instr) : wideOpcode (encodeWord i) = i.isWide := by
  cases i
  all_goals
    unfold encodeWord wideOpcode
    simp only [rWord_opcode, iWord_opcode, bWord_opcode]
    rfl

theorem encode_getD_zero (i : Instr) : (encode i).getD 0 0 = encodeWord i := by
  unfold encode
  split <;> rfl

theorem length_encode (i : Instr) : (encode i).length = if i.isWide then 2 else 1 := by
  unfold encode
  split <;> rfl

/-- The decoder reads the extension word of a wide instruction alone (R68). -/
theorem decode_encode_getD {i : Instr} (h : i.encodable = true) : decode ((encode i).getD 0 0) ((encode i).getD 1 0) = .ok i := by
  rw [encode_getD_zero, ← decode_encode h]
  unfold encode
  by_cases hw : i.isWide = true
  · rw [if_pos hw]
    rfl
  · rw [if_neg hw]
    exact decode_ext ((wideOpcode_encodeWord i).trans (Bool.eq_false_iff.2 hw)) _ _

/-! ### A decoded word is the encoding of what it decodes to -/

section
variable (fn : Reg)

theorem ccFn_eq (h : fn.extractLsb' 3 3 = 0#3) : ccFn (fn.getLsbD 2) (fn.extractLsb' 0 2) = fn := by revert fn; decide
theorem bitFn_eq (h : fn.extractLsb' 1 5 = 0#5) : bitFn (fn.getLsbD 0) = fn := by revert fn; decide
theorem ccDst_eq (h : fn.extractLsb' 2 4 = 0#4) : ccDst (fn.extractLsb' 0 2) = fn := by revert fn; decide
theorem rndFn_eq (h : fn.extractLsb' 3 3 = 0#3) : rndFn (fn.extractLsb' 0 3) = fn := by revert fn; decide
theorem halfFn_eq (h : fn.extractLsb' 4 2 = 0#2) : halfFn (fn.getLsbD 3) (fn.extractLsb' 0 3) = fn := by revert fn; decide
theorem halfFn_zero_eq (h : fn.extractLsb' 4 2 = 0#2 ∧ fn.extractLsb' 0 3 = 0#3) : halfFn (fn.getLsbD 3) 0#3 = fn := by
  rw [← h.2]; exact halfFn_eq fn h.1
theorem memFn_eq : memFn (fn.extractLsb' 3 3) (fn.extractLsb' 1 2) (fn.getLsbD 0) = fn := by revert fn; decide
theorem memFn_false_eq (h : fn.getLsbD 0 = false) : memFn (fn.extractLsb' 3 3) (fn.extractLsb' 1 2) false = fn := by
  rw [← h]; exact memFn_eq fn
theorem selFn_eq : (fn.extractLsb' 4 2 ++ fn.extractLsb' 0 4 : Reg) = fn := append_whole 2 4 fn
theorem octalFn_eq : (fn.extractLsb' 3 3 ++ fn.extractLsb' 0 3 : Reg) = fn := append_whole 3 3 fn
theorem cvtFn_eq : (fn.extractLsb' 4 2 ++ bit (fn.getLsbD 3) ++ fn.extractLsb' 0 3 : Reg) = fn := by revert fn; decide
theorem scanFn_eq (h : fn.getLsbD 5 = false) :
    (0#1 ++ bit (fn.getLsbD 4) ++ bit (fn.getLsbD 3) ++ fn.extractLsb' 0 3 : Reg) = fn := by revert fn; decide
theorem atomFn_eq : (fn.extractLsb' 2 4 ++ bit (fn.getLsbD 1) ++ bit (fn.getLsbD 0) : Reg) = fn := by revert fn; decide
theorem nibble_eq (h : fn.extractLsb' 4 2 = 0#2) : (0#2 ++ fn.extractLsb' 0 4 : Reg) = fn := by revert fn; decide
theorem mmaFn_eq (h : fn.getLsbD 5 = false) :
    (0#1 ++ bit (fn.getLsbD 4) ++ bit (fn.getLsbD 3) ++ bit (fn.getLsbD 2) ++ bit (fn.getLsbD 1) ++ bit (fn.getLsbD 0) : Reg) = fn := by
  revert fn; decide
theorem mdrainFn_eq : (fn.extractLsb' 3 3 ++ bit (fn.getLsbD 2) ++ bit (fn.getLsbD 1) ++ bit (fn.getLsbD 0) : Reg) = fn := by
  revert fn; decide

end

theorem entryExt_eq (x : Word) : x.extractLsb' 8 24 ++ x.extractLsb' 0 8 = x := append_whole 24 8 x

theorem mmaExt_eq (x : Word) : x.extractLsb' 21 11 ++ x.extractLsb' 17 4 ++ x.extractLsb' 0 17 = x := by
  rw [append_fields x 11 17 4]
  exact append_whole 15 17 x

theorem mdrainExt_eq (x : Word) (h : x.extractLsb' 17 15 = 0#15) : 0#15 ++ x.extractLsb' 0 17 = x := by
  rw [← h]
  exact append_whole 15 17 x

theorem copyExt_eq (x : Word) (h : x.extractLsb' 25 7 = 0#7) :
    0#7 ++ bit (x.getLsbD 24) ++ x.extractLsb' 20 4 ++ x.extractLsb' 0 20 = x := by
  rw [← h, bit_getLsbD, append_fields x 7 24 1, append_fields x 8 20 4]
  exact append_whole 12 20 x

/-- An answer of the decoder drops no bit of the opcode, the fields and the extension word that it was read from. -/
def Faithful (op : BitVec 8) (f : Fields) (x : Word) : Except Reason Instr → Prop
  | .error _ => True
  | .ok i => encodeWord i = rWord op f.d f.a f.b f.fn ∧ (i.isWide = true → encodeExt i = x)

section
variable {op : BitVec 8} {f : Fields} {x : Word} {i : Instr}

theorem faithful_error {r : Reason} : Faithful op f x (.error r) := trivial

theorem faithful_zeroed {ok : Bool} : Faithful op f x (zeroed ok i) ↔ (ok = true → Faithful op f x (.ok i)) := by
  unfold zeroed
  cases ok <;> simp [Faithful]

theorem faithful_plain (h : i.isWide = false) : Faithful op f x (.ok i) ↔ encodeWord i = rWord op f.d f.a f.b f.fn := by
  simp [Faithful, h]

theorem faithful_wide (h : i.isWide = true) :
    Faithful op f x (.ok i) ↔ encodeWord i = rWord op f.d f.a f.b f.fn ∧ encodeExt i = x := by
  simp [Faithful, h]

end

/-- An opcode is given by its two hexadecimal digits. -/
theorem opcode_of_digits {op : BitVec 8} {k l : Nat} (h : op.toNat / 16 = k) (h' : op.toNat % 16 = l) :
    op = BitVec.ofNat 8 (16 * k + l) := by
  rw [← h, ← h', Nat.div_add_mod, BitVec.ofNat_toNat, BitVec.setWidth_eq]

theorem eq_ofNat_of_toNat {n k : Nat} {x : BitVec n} (h : x.toNat = k) : x = BitVec.ofNat n k := by
  rw [← h, BitVec.ofNat_toNat, BitVec.setWidth_eq]

/-- Opcode by opcode: the operands that the decoder reads and the fields that it requires to be zero make up the word. -/
theorem faithful_decodeFields (f : Fields) (x : Word) : Faithful f.op f x (decodeFields f x) := by
  obtain ⟨op, d, a, b, fn⟩ := f
  unfold decodeFields
  dsimp only
  unfold decode0 decode1 decode2 decode3 decode4 decode6 decode7 decode8 decodeA decodeB decodeC decodeD
  repeat' split
  all_goals first
    | exact faithful_error
    | rw [faithful_zeroed]
    | skip
  all_goals first
    | (rw [faithful_plain rfl]; unfold encodeWord)
    | (rw [faithful_wide rfl]; unfold encodeWord encodeExt)
  all_goals
    rw [opcode_of_digits ‹op.toNat / 16 = _› ‹op.toNat % 16 = _›]
    dsimp only [Fields.hi3, Fields.bit, Fields.cc, Fields.dcc, Fields.lo3, Fields.space, Fields.imm, Fields.off]
    simp_all +contextual only [Bool.and_eq_true, Bool.not_eq_true', beq_iff_eq, leaFn_eq, shflFn_eq, codeFn_eq, ccFn_eq, bitFn_eq, ccDst_eq,
      rndFn_eq, halfFn_eq, halfFn_zero_eq, memFn_eq, memFn_false_eq, selFn_eq, octalFn_eq, cvtFn_eq, scanFn_eq, atomFn_eq, nibble_eq,
      mmaFn_eq, mdrainFn_eq, iWord_fields, bWord_fields, entryExt_eq, mmaExt_eq, mdrainExt_eq, copyExt_eq, BitVec.ofNat_eq_ofNat,
      implies_true, and_self]
  · exact fun _ => rfl
  all_goals rw [eq_ofNat_of_toNat (x := fn) ‹_›]

theorem encode_of_decode {w x : Word} {i : Instr} (h : decode w x = .ok i) : encodeWord i = w ∧ (i.isWide = true → encodeExt i = x) := by
  have hf := faithful_decodeFields (fieldsOf w) x
  rw [show decodeFields (fieldsOf w) x = .ok i from h] at hf
  exact ⟨hf.1.trans (rWord_fieldsOf w), hf.2⟩

/-! ### Microprogram words (R200, R205) -/

theorem microWord_parts (op : BitVec 4) (s : BitVec 2) (d : Bool) (n : BitVec 16) (target : BitVec 6) :
    let w := microWord op s d n target
    w.extractLsb' 60 4 = op ∧ w.extractLsb' 58 2 = s ∧ w.getLsbD 57 = d ∧ w.extractLsb' 48 9 = 0 ∧ w.extractLsb' 32 16 = n ∧
    w.extractLsb' 6 26 = 0 ∧ w.extractLsb' 0 6 = target := by
  unfold microWord
  refine ⟨?_, ?_, ?_, ?_, ?_, ?_, ?_⟩
  · exact (BitVec.extractLsb'_append_eq_of_le (by decide)).trans <| (BitVec.extractLsb'_append_eq_of_le (by decide)).trans <|
      (BitVec.extractLsb'_append_eq_of_le (by decide)).trans <| (BitVec.extractLsb'_append_eq_of_le (by decide)).trans <|
      (BitVec.extractLsb'_append_eq_of_le (by decide)).trans BitVec.extractLsb'_append_eq_left
  · exact (BitVec.extractLsb'_append_eq_of_le (by decide)).trans <| (BitVec.extractLsb'_append_eq_of_le (by decide)).trans <|
      (BitVec.extractLsb'_append_eq_of_le (by decide)).trans <| (BitVec.extractLsb'_append_eq_of_le (by decide)).trans <|
      (BitVec.extractLsb'_append_eq_of_le (by decide)).trans BitVec.extractLsb'_append_eq_right
  · simp only [BitVec.getLsbD_append]
    cases d <;> rfl
  · exact (BitVec.extractLsb'_append_eq_of_le (by decide)).trans <| (BitVec.extractLsb'_append_eq_of_le (by decide)).trans <|
      (BitVec.extractLsb'_append_eq_of_le (by decide)).trans BitVec.extractLsb'_append_eq_right
  · exact (BitVec.extractLsb'_append_eq_of_le (by decide)).trans <| (BitVec.extractLsb'_append_eq_of_le (by decide)).trans
      BitVec.extractLsb'_append_eq_right
  · exact (BitVec.extractLsb'_append_eq_of_le (by decide)).trans BitVec.extractLsb'_append_eq_right
  · exact BitVec.extractLsb'_append_eq_right

theorem microWord_eq (w : Dword) (h : w.extractLsb' 48 9 = 0#9) (h' : w.extractLsb' 6 26 = 0#26) :
    microWord (w.extractLsb' 60 4) (w.extractLsb' 58 2) (w.getLsbD 57) (w.extractLsb' 32 16) (w.extractLsb' 0 6) = w := by
  unfold microWord
  rw [bit_getLsbD, ← h, ← h', append_fields w 4 58 2, append_fields w 6 57 1, append_fields w 7 48 9, append_fields w 16 32 16,
    append_fields w 32 6 26]
  exact append_whole 58 6 w

theorem wf_mLoop (n : BitVec 16) (target : BitVec 6) : (Instr.mLoop n target).wf = true ↔ n ≠ 0 :=
  beq_iff_eq.trans <| (need_eq_nil (n != 0) .operand).trans bne_iff_ne

theorem decodeMicro_encodeMicro {i : Instr} (hi : i.isMicro = true) (hw : i.wf = true) : decodeMicro (encodeMicro i) = some i := by
  cases i <;> first
    | exact absurd hi Bool.false_ne_true
    | (unfold encodeMicro decodeMicro; dsimp only)
  case mEnd => rfl
  case mLoop n target =>
    simp only [microWord_parts]
    simpa using (wf_mLoop n target).1 hw
  all_goals
    simp only [microWord_parts]
    rfl

theorem encodeMicro_of_decodeMicro {w : Dword} {i : Instr} (h : decodeMicro w = some i) :
    encodeMicro i = w ∧ i.isMicro = true ∧ i.wf = true := by
  unfold decodeMicro at h
  dsimp only at h
  split at h
  · cases h
  · rename_i hrest
    simp only [Bool.not_eq_true', Bool.not_eq_false, Bool.and_eq_true, beq_iff_eq] at hrest
    have hw := microWord_eq w hrest.1 hrest.2
    split at h
    case h_12 => cases h
    all_goals
      rename_i hop
      rw [eq_ofNat_of_toNat hop] at hw
      split at h
      case isFalse => cases h
      rename_i hz
      simp only [Bool.not_eq_true', Bool.and_eq_true, beq_iff_eq, bne_iff_ne] at hz
      cases h
      unfold encodeMicro
      dsimp only
      simp only [hz] at hw
    case h_11 => exact ⟨hw, rfl, (wf_mLoop _ _).2 hz.2⟩
    all_goals exact ⟨hw, rfl, rfl⟩

/-- Settles O36: the instructions opcode by opcode, the microprogram words operation by operation. -/
theorem encodeDecode : Obligations.EncodeDecode := by
  unfold Obligations.EncodeDecode
  refine ⟨⟨fun i h _ => ?_, fun w x i => encode_of_decode⟩, fun i => decodeMicro_encodeMicro, fun w i => encodeMicro_of_decodeMicro,
    fun w h i hi hw he => ?_⟩
  · exact ⟨decode_encode_getD h, (congrArg wideOpcode (encode_getD_zero i)).trans (wideOpcode_encodeWord i), length_encode i⟩
  · have hsome := decodeMicro_encodeMicro hi hw
    rw [he, h] at hsome
    cases hsome

end
end Sys2Proof

namespace Sys2Proof

/-- Settles O37, word by word. -/
theorem decodeWords : Obligations.DecodeWords :=
  ⟨decode_encode (i := .add 4 5 6 true 2) rfl, decode_encode (i := .addI 7 7 0xfff) rfl, decode_encode (i := .popc 25 24) rfl,
    decode_encode (i := .movi 4 3 0x40000000) rfl, decode_encode (i := .fadd 5 6 7 3) rfl, decode_encode (i := .shfl 5 6 7 false 2) rfl,
    decode_encode (i := .lda 13 8 0 2 0 false) rfl, decode_encode (i := .strel 12 8 0 2 0) rfl, decode_encode (i := .ret 62) rfl,
    decode_encode (i := .bar 2) rfl, decode_encode (i := .mzero 25 12 13) rfl, decode_encode (i := .nmload 20 8 10 15) rfl,
    decode_encode (i := .scall 20 8 0x10) rfl, decode_encode (i := .sread 1 0) rfl, decode_encode (i := .swrite 5 0x15) rfl,
    decode_encode (i := .nop) rfl⟩

end Sys2Proof

namespace Sys2Proof.Machine

section

/-! ### How a step ends (R74, R77, R251) -/

/-- Every instruction, operation and event goes on: one that has no effect leaves the state as it is. -/
theorem exec_next (i : Instr) (s : State) : ∃ t, exec i s = .next t := by
  cases i
  case mLoop n target =>
    change ∃ t, execMLoop n target s = .next t
    unfold execMLoop
    dsimp only
    split <;> exact ⟨_, rfl⟩
  all_goals exact ⟨_, rfl⟩

/-- A group issues, or meets a packet that the scanner refuses. -/
theorem stepIssue_ends (s : State) (n : Nat) (g : Group) : (∃ t, stepIssue s n g = .next t) ∨
    ∃ p k, s.target n (s.asidOf g.crew) g.pc = .ok p ∧ p.fetch (slotIdx g.pc) = .error k ∧ stepIssue s n g = .refused (.illegalEncoding k) := by
  unfold stepIssue
  cases s.target n (s.asidOf g.crew) g.pc with
  | error c => exact .inl (exec_next _ _)
  | ok p =>
    dsimp only
    cases hf : p.fetch (slotIdx g.pc) with
    | error k => exact .inr ⟨p, k, rfl, hf, rfl⟩
    | ok i => exact .inl (exec_next _ _)

theorem stepHead_next (s : State) (n k : Nat) : ∃ t, stepHead s n k = .next t := by
  unfold stepHead
  dsimp only
  split
  · exact ⟨_, rfl⟩
  · exact exec_next _ _

theorem stepEarly_next (s : State) (n : Nat) (e : Nat × Nat) : ∃ t, stepEarly s n e = .next t := by
  unfold stepEarly
  split
  · exact ⟨_, rfl⟩
  · exact exec_next _ _

/-- The three ways in which a step can end. -/
theorem step_ends (s : State) : (∃ t, step s = .next t) ∨ (s.tripped = true ∧ step s = .fault .thermalTrip) ∨
    ∃ n g p k, s.nextCore = some n ∧ s.nextHead n = none ∧ s.nextEarly n = none ∧ s.best n = some g ∧
      (s.charge n g).target n ((s.charge n g).asidOf g.crew) g.pc = .ok p ∧ p.fetch (slotIdx g.pc) = .error k ∧
      step s = .refused (.illegalEncoding k) := by
  cases hi : s.inbox with
  | cons e rest =>
    unfold step
    rw [hi]
    dsimp only
    split
    · exact .inl (exec_next _ _)
    · split
      next ht => exact .inr (.inl ⟨ht, rfl⟩)
      next => exact .inl ⟨_, rfl⟩
  | nil =>
    cases ht : s.tripped with
    | true =>
      refine .inr (.inl ⟨rfl, ?_⟩)
      unfold step
      rw [hi]
      exact if_pos ht
    | false =>
      cases ha : s.agenda with
      | some x => exact .inl ((step_agenda hi ht ha).symm ▸ exec_next _ _)
      | none =>
        cases hn : s.nextCore with
        | none => exact .inl ⟨_, step_round hi ht ha hn⟩
        | some n =>
          rw [step_turn hi ht ha hn]
          cases hh : s.nextHead n with
          | some k => exact .inl (stepHead_next s n k)
          | none =>
            cases hy : s.nextEarly n with
            | some e => exact .inl (stepEarly_next s n e)
            | none =>
              cases hb : s.best n with
              | none => exact .inl ⟨_, rfl⟩
              | some g =>
                refine (stepIssue_ends (s.charge n g) n g).imp id fun h => .inr ?_
                obtain ⟨p, k, hp, hk, hs⟩ := h
                exact ⟨n, g, p, k, rfl, hh, hy, hb, hp, hk, hs⟩

/-- Settles O35: every execution goes on, so that only a tripped module and a refused packet end a step. -/
theorem stepOutcomes : Obligations.StepOutcomes := by
  refine ⟨exec_next, fun s => ?_⟩
  obtain ⟨t, h⟩ | ⟨ht, h⟩ | ⟨n, g, p, k, hn, hh, hy, hb, hp, hk, h⟩ := step_ends s
  · rw [h]
    trivial
  · rw [h]
    exact ⟨rfl, ht⟩
  · rw [h]
    exact ⟨n, g, p, k, hn, hh, hy, hb, hp, hk, rfl⟩

end
end Sys2Proof.Machine

namespace Sys2Proof.Machine

section

/-! ### Branches (R67, R77, R283, R287, R318, R348) -/

/-- An instruction whose body leaves the state as it is, with effects that keep the lanes' threads, write plain values and are in G what the
statement says, computes them. -/
theorem computes_of_issue {i : Instr} {o : Operands} {body : State → State → Mask → Body} {f eff : State → Nat → Eff}
    (hx : ∀ s, exec i s = .next (s.issue o (body s))) (hbody : ∀ s, body s s s.active = .done s (perLane (f s))) (hlanes : o.lanes = [])
    (hthr : ∀ s l, (f s l).thr = none) (hw : ∀ s l, ∀ x ∈ (f s l).w, ∃ v, x = live v) (he : ∀ s : State, ∀ l, s.inG l = true → f s l = eff s l) :
    Computes i o eff := by
  intro s hp
  have hes : ∀ l, s.inG l = true → (perLane (f s)).getD l {} = eff s l := fun l hl => by
    rw [getD_perLane _ (mask_lt (m := s.active) hl), he s l hl]
  refine ⟨fun hr => ⟨_, hx s, ?_⟩, fun hr hwr => ⟨_, hx s, ?_⟩⟩
  · refine State.issue_pure s o (body s) (perLane (f s)) (eff s) hp hr (fun _ => hbody s) hes (fun l hl => .inl ?_) (fun l hl x hmem => ?_) hlanes
    · rw [← he s l hl]
      exact hthr s l
    · rw [← he s l hl] at hmem
      obtain ⟨v, rfl⟩ := hw s l x hmem
      exact .inl rfl
  · exact State.issue_waits s s o (body s) (perLane (f s)) (eff s) hp (fun _ => hbody s) hes (State.mayAllocate_of_room hr) hwr

/-- What a lane that writes no register writes. -/
theorem mem_no_writes {e : Eff} (he : e.w = []) {x : Lane} (hx : x ∈ e.w) : ∃ v, x = live v := by
  rw [he] at hx
  cases hx

theorem br_computes (o : BitVec 24) : Computes (.br o) {} fun s _ => { pc := .to (s.packetsOn o) } :=
  computes_of_issue (f := fun s _ => { pc := .to (offTarget s.cur.pc o) }) (fun _ => rfl) (fun _ => rfl) rfl (fun _ _ => rfl)
    (fun _ _ _ => mem_no_writes rfl) fun s _ _ => by rw [offTarget_eq]

theorem call_computes (o : BitVec 24) :
    Computes (.call o) { dst := [62, 63] } fun s _ => { gives2 s.nextPc with pc := .to (s.packetsOn o) } :=
  computes_of_issue (f := fun s _ => { w := live2 (seqPc s.cur.pc s.cur.wide), pc := .to (offTarget s.cur.pc o) }) (fun _ => rfl)
    (fun _ => rfl) rfl (fun _ _ => rfl)
    (fun _ _ x hx => by
      obtain rfl | hx := List.mem_cons.1 hx
      · exact ⟨_, rfl⟩
      · exact ⟨_, List.mem_singleton.1 hx⟩)
    fun s _ _ => by rw [offTarget_eq]; rfl

theorem State.jumpTo_plain (s : State) (a : Reg) (l : Nat) : (s.jumpTo a l).thr = none ∧ (s.jumpTo a l).w = [] := by
  unfold State.jumpTo
  dsimp only
  split <;> exact ⟨rfl, rfl⟩

/-- JMP and RET alike go to the address of the pair, or trap. -/
theorem jump_computes {i : Instr} (a : Reg) (hx : ∀ s, exec i s = .next (s.issue { a := pairRegs a } fun s _ => .done s (perLane (s.jumpTo a)))) :
    Computes i { a := pairRegs a } fun s l =>
      match s.target s.curCore s.curLaunch.asid (s.val2 a l) with
      | .error (cause, va) => trapped cause va
      | .ok _ => { pc := .to (s.val2 a l) } :=
  computes_of_issue (f := fun s => s.jumpTo a) hx (fun _ => rfl) rfl (fun s l => (s.jumpTo_plain a l).1)
    (fun s l _ => mem_no_writes (s.jumpTo_plain a l).2) fun _ _ _ => rfl

/-! ### Where an address leads (R77, R318) -/

theorem namesSlot_iff (t : Dword) : namesSlot t = true ↔ t.toNat % 16 = 4 ∨ t.toNat % 16 = 8 ∨ t.toNat % 16 = 12 := by
  simp only [namesSlot, Bool.or_eq_true, beq_iff_eq, or_assoc]

/-- The packet of an address begins at the multiple of 16 below it (R65). -/
theorem packetAddr_eq (t : Dword) : packetAddr t = BitVec.ofNat 64 (t.toNat / 16 * 16) := by
  have hmask : ∀ i : Fin 64, (~~~15 : Dword).getLsbD i = decide (4 ≤ i.val) := by decide
  apply BitVec.eq_of_getLsbD_eq
  intro i hi
  have hlow : (t.toNat / 16 * 16).testBit i = (decide (4 ≤ i) && t.toNat.testBit i) := by
    rw [show t.toNat / 16 * 16 = t.toNat / 2 ^ 4 * 2 ^ 4 from rfl, Nat.testBit_mul_two_pow, Nat.testBit_div_two_pow]
    by_cases h : 4 ≤ i
    · rw [Nat.sub_add_cancel h]
    · rw [decide_eq_false h, Bool.false_and, Bool.false_and]
  rw [packetAddr, BitVec.getLsbD_and, hmask ⟨i, hi⟩, BitVec.getLsbD_ofNat, decide_eq_true hi, Bool.true_and, hlow, Bool.and_comm]
  rfl

theorem ext_packetOf (bs : List Byte) (k : Nat) (hk : k < 4) : ((packetOf bs).ext = BitVec.ofNat 2 k) ↔ leNat (bs.take 4) / 2 % 4 = k := by
  rw [← BitVec.toNat_inj]
  simp only [Packet.ext, packetOf, wordOf, BitVec.extractLsb'_toNat, BitVec.toNat_ofNat, Nat.shiftRight_eq_div_pow]
  omega

theorem isExtension_packetOf (bs : List Byte) {t : Dword} (ht : namesSlot t = true) : (packetOf bs).isExtension (slotIdx t) = true ↔
    (leNat (bs.take 4) / 2 % 4 = 1 ∧ t.toNat % 16 = 8) ∨ (leNat (bs.take 4) / 2 % 4 = 2 ∧ t.toNat % 16 = 12) := by
  rw [namesSlot_iff] at ht
  have h1 := ext_packetOf bs 1 (by decide)
  have h2 := ext_packetOf bs 2 (by decide)
  simp only [Packet.isExtension, Bool.or_eq_true, Bool.and_eq_true, beq_iff_eq, slotIdx]
  rw [show (packetOf bs).ext = 1 ↔ _ from h1, show (packetOf bs).ext = 2 ↔ _ from h2]
  omega

/-- Settles O8: the branches compute their targets, and the checks of a target stand in the rule's order. -/
theorem branches : Obligations.Branches := by
  refine ⟨br_computes, call_computes, fun a => jump_computes a fun _ => rfl, fun a => jump_computes a fun _ => rfl, fun s core asid t => ?_⟩
  intro low va
  unfold Decides Decides Decides
  have hslot : namesSlot t = false ↔ low ≠ 4 ∧ low ≠ 8 ∧ low ≠ 12 := by
    rw [← Bool.not_eq_true, namesSlot_iff, not_or, not_or]
  unfold State.target
  refine ⟨fun h => by rw [hslot.2 h]; rfl, fun h => ⟨fun hle => ?_, fun hle => ?_⟩⟩
  · rw [Bool.of_not_eq_false (mt hslot.1 h)]
    exact if_pos hle
  · have ht := Bool.of_not_eq_false (mt hslot.1 h)
    rw [ht, packetAddr_eq]
    dsimp only
    rw [Bool.not_true, if_neg Bool.false_ne_true, if_neg hle]
    cases s.translate core asid .fetch va.toNat with
    | error c => rfl
    | ok e => exact if_congr (isExtension_packetOf _ ht) rfl rfl

end
end Sys2Proof.Machine

namespace Sys2Proof.Machine

section

/-! ### Stores, lane by lane (R130, R141, R145, R358 to R360) -/

/-! #### The bytes of the data operand -/

theorem getD_leBytes (n x i : Nat) (h : i < n) : (leBytes n x).getD i 0 = BitVec.ofNat 8 (x / 256 ^ i) := by
  induction n generalizing x i with
  | zero => omega
  | succ n ih =>
    cases i with
    | zero => rw [leBytes, List.getD_cons_zero, Nat.pow_zero, Nat.div_one]
    | succ i => rw [leBytes, List.getD_cons_succ, ih _ _ (by omega), Nat.div_div_eq_div_mul, Nat.pow_succ']

/-- A byte of a word, counted from the lowest. -/
theorem getD_leBytes_word (x : Word) {i : Nat} (h : i < 4) : (leBytes 4 x.toNat).getD i 0 = x.extractLsb' (8 * i) 8 := by
  rw [getD_leBytes _ _ _ h]
  apply BitVec.eq_of_toNat_eq
  rw [BitVec.toNat_ofNat, BitVec.extractLsb'_toNat, Nat.shiftRight_eq_div_pow, Nat.pow_mul]

/-- The registers of a data operand follow one another, and hold the bytes of its size. -/
theorem sizeRegs_eq {z : BitVec 3} (h : z.toNat ≤ 4) (d : Reg) :
    ∃ n, sizeRegs z d = (List.range n).map (d.toNat + ·) ∧ 2 ^ z.toNat ≤ n * 4 := by
  have hz : z = 0 ∨ z = 1 ∨ z = 2 ∨ z = 3 ∨ z = 4 := by
    revert z
    decide
  obtain rfl | rfl | rfl | rfl | rfl := hz
  · exact ⟨1, rfl, by decide⟩
  · exact ⟨1, rfl, by decide⟩
  · exact ⟨1, rfl, by decide⟩
  · exact ⟨2, rfl, by decide⟩
  · exact ⟨4, rfl, by decide⟩

/-- A byte of several words that follow one another, each lowest byte first. -/
theorem getD_flatMap_leBytes (word : Nat → Word) (rs : List Nat) {i : Nat} (h : i < rs.length * 4) :
    (rs.flatMap fun r => leBytes 4 (word r).toNat).getD i 0 = (word (rs.getD (i / 4) 0)).extractLsb' (8 * (i % 4)) 8 := by
  induction rs generalizing i with
  | nil => rw [List.length_nil, Nat.zero_mul] at h; omega
  | cons r rs ih =>
    rw [List.length_cons] at h
    rw [List.flatMap_cons]
    by_cases hi : i < 4
    · rw [List.getD_append _ _ _ _ (by rwa [length_leBytes]), getD_leBytes_word _ hi, Nat.div_eq_of_lt hi, Nat.mod_eq_of_lt hi,
        List.getD_cons_zero]
    · rw [List.getD_append_right _ _ _ _ (by rw [length_leBytes]; omega), length_leBytes, ih (by omega),
        show i / 4 = (i - 4) / 4 + 1 by omega, List.getD_cons_succ, show (i - 4) % 4 = i % 4 by omega]

theorem storeBytes_eq (c : Crew) (l : Nat) {z : BitVec 3} (h : z.toNat ≤ 4) (d : Reg) : (storeBytes c l z d).length = 2 ^ z.toNat ∧
    ∀ i, i < 2 ^ z.toNat → (storeBytes c l z d).getD i 0 = (c.rd (d.toNat + i / 4) l).extractLsb' (8 * (i % 4)) 8 := by
  obtain ⟨n, hregs, hn⟩ := sizeRegs_eq h d
  have hlen : ((sizeRegs z d).flatMap fun r => leBytes 4 (c.rd r l).toNat).length = n * 4 := by
    rw [hregs, List.flatMap_map]
    exact length_flatMap_leBytes 4 n _
  unfold storeBytes sizeBytes
  refine ⟨by rw [List.length_take, hlen, Nat.min_eq_left hn], fun i hi => ?_⟩
  rw [List.getD_eq_getElem?_getD, List.getElem?_take_of_lt hi, ← List.getD_eq_getElem?_getD,
    getD_flatMap_leBytes (fun r => c.rd r l) _ (by rw [hregs, List.length_map, List.length_range]; omega), hregs, getD_map_range,
    if_pos (by omega)]

/-! #### What becomes of the store -/

/-- A store of scratch traps outside the grant, and changes those bytes of the window otherwise (R108, R359). -/
theorem State.storeLane_scratch {s t : State} {d a b : Reg} {z : BitVec 3} {p : BitVec 2} {drop : Bool} {off : Word} {l o : Nat} {e : Eff}
    (hw : s.accessAt l a b z p off = .scratch o) (h : s.storeLane d a b z p drop off l = some (t, e)) :
    let bs := storeBytes s.curCrew l z d
    let w := (s.core s.curCore).window s.curCrew.launch
    if w.bytes < o + bs.length then t = s ∧ e = trapped causeScratch (BitVec.ofNat 64 o)
    else e = {} ∧ t = s.setCore s.curCore ((s.core s.curCore).setWindow { w with scratch := Memory.writeN w.scratch o bs }) := by
  intro bs w
  unfold State.storeLane State.storeScratch at h
  rw [hw] at h
  dsimp only at h
  split
  · next hlt =>
    rw [if_pos hlt] at h
    cases h
    exact ⟨rfl, rfl⟩
  · next hlt =>
    rw [if_neg hlt] at h
    cases h
    exact ⟨rfl, rfl⟩

/-- What a store of a virtual address does once it is translated: to host memory it is written and waits for the host; under DBGMX it is applied,
or traps on a mixed size; otherwise it is on its way home (R130, R141, R145). -/
def State.storeAt (s : State) (core launch : Nat) (tid : Word) (dbg drop : Bool) (m : TlbEntry) (va : Nat) (data : List Byte) : Done :=
  let cell := m.cell va
  let u := s.holdTlb core m
  let kept := u.setCore core (if drop then (u.core core).setSector cell none else if m.uc then u.core core else (u.core core).storeL1 cell data)
  if isHost cell then .ok { u.writeHome cell data with hostPending := s.hostPending ++ [⟨launch, tid, false⟩] } []
  else if dbg then
    if u.inFlight core cell || u.ownedBy cell data.length || !u.serves cell then .wait
    else if s.mixed cell data.length then .trap causeMixed
    else .ok ((kept.applyHome cell data).1.raiseWct launch tid (kept.applyHome cell data).2) []
  else .ok { kept with flights := s.flights ++ [{ launch := launch, tid := tid, core := core, addr := cell, data := data }] } []

theorem State.storeVirt_eq (s : State) (core asid launch : Nat) (tid : Word) (dbg drop : Bool) (va : Nat) (data : List Byte) :
    s.storeVirt core asid launch tid dbg drop va data = match s.translate core asid .write va with
      | .error c => .trap c
      | .ok m => s.storeAt core launch tid dbg drop m va data := by
  unfold State.storeVirt
  cases s.translate core asid .write va <;> rfl

/-- A store that is applied at its home writes its bytes, and no other byte (R130). -/
theorem State.mem_applyHome (s : State) (cell : Nat) (data : List Byte) : (s.applyHome cell data).1.mem = Memory.writeN s.mem cell data := rfl

/-- A store of a virtual address, by what becomes of it at home (R130, R141, R145). -/
theorem State.storeAt_spec {s t : State} {core launch va : Nat} {tid : Word} {dbg drop : Bool} {m : TlbEntry} {bs rs : List Byte}
    (h : s.storeAt core launch tid dbg drop m va bs = .ok t rs) :
    let cell := m.cell va
    if isHost cell then t.mem = Memory.writeN s.mem cell bs ∧ t.hostPending = s.hostPending ++ [⟨launch, tid, false⟩] ∧ t.crews = s.crews
    else if dbg = false then t.mem = s.mem ∧ t.crews = s.crews ∧
      t.flights = s.flights ++ [{ launch := launch, tid := tid, core := core, addr := cell, data := bs }]
    else s.mixed cell bs.length = false ∧ t.mem = Memory.writeN s.mem cell bs := by
  intro cell
  unfold State.storeAt at h
  dsimp only at h
  split
  · next hhost =>
    rw [if_pos hhost] at h
    cases h
    exact ⟨rfl, rfl, rfl⟩
  next hhost =>
  rw [if_neg hhost] at h
  cases dbg with
  | false =>
    cases h
    exact ⟨rfl, rfl, rfl⟩
  | true =>
    rw [if_pos rfl] at h
    split at h
    · cases h
    split at h
    · cases h
    next hmixed =>
    cases h
    exact ⟨Bool.eq_false_iff.2 hmixed, rfl⟩

/-- The one trap behind translation is that of DBGMX's mixed size (R141). -/
theorem State.storeAt_trap {s : State} {core launch va : Nat} {tid : Word} {dbg drop : Bool} {m : TlbEntry} {bs : List Byte} {cause : Word}
    (h : s.storeAt core launch tid dbg drop m va bs = .trap cause) :
    isHost (m.cell va) = false ∧ dbg = true ∧ s.mixed (m.cell va) bs.length = true ∧ cause = causeMixed := by
  unfold State.storeAt at h
  dsimp only at h
  split at h
  · cases h
  next hhost =>
  split at h
  · next hdbg =>
    split at h
    · cases h
    split at h
    · next hmixed =>
      cases h
      exact ⟨Bool.eq_false_iff.2 hhost, hdbg, hmixed, rfl⟩
    · cases h
  · cases h

/-- The bytes of a written range read as they were written. -/
theorem Memory.read_writeN_in {m : List Host.Cell} (hm : Memory.wf m = true) (bs : List Byte) (a : Nat) {i : Nat} (h : i < bs.length) :
    Memory.read (Memory.writeN m a bs) (a + i) = bs.getD i 0 := by
  rw [Memory.read_writeN bs m a hm, if_pos (by omega), Nat.add_sub_cancel_left]

/-- Every byte outside a written range reads as before. -/
theorem Memory.read_writeN_out {m : List Host.Cell} (hm : Memory.wf m = true) (bs : List Byte) (a : Nat) {x : Nat}
    (h : ¬(a ≤ x ∧ x < a + bs.length)) : Memory.read (Memory.writeN m a bs) x = Memory.read m x := by
  rw [Memory.read_writeN bs m a hm, if_neg h]

/-- Settles O17, by where the access goes and by what becomes of it there. -/
theorem storeLane : Obligations.StoreLane := by
  refine ⟨fun c l z d h => storeBytes_eq c l h d, fun s d a b z p drop off l t e h hm => ?_⟩
  intro bs
  cases hw : s.accessAt l a b z p off with
  | trap cause va =>
    unfold State.storeLane at h
    rw [hw] at h
    cases h
    exact ⟨rfl, rfl⟩
  | scratch o => exact State.storeLane_scratch hw h
  | virt va =>
    unfold State.storeLane at h
    rw [hw] at h
    dsimp only at h
    rw [State.storeVirt_eq] at h
    dsimp only
    cases htr : s.translate s.curCore s.curLaunch.asid .write va with
    | error cause =>
      rw [htr] at h
      cases h
      exact ⟨rfl, rfl⟩
    | ok m =>
      rw [htr] at h
      dsimp only at h ⊢
      cases hat : s.storeAt s.curCore s.curCrew.launch (s.curCrew.thr l).tid s.curLaunch.dbgmx drop m va bs with
      | wait =>
        rw [hat] at h
        cases h
      | trap cause =>
        rw [hat] at h
        cases h
        obtain ⟨hhost, hdbg, hmixed, rfl⟩ := State.storeAt_trap hat
        rw [hhost, hdbg, hmixed]
        exact ⟨fun _ _ => rfl, rfl, rfl⟩
      | ok u rs =>
        rw [hat] at h
        cases h
        have hspec := State.storeAt_spec hat
        dsimp only at hspec
        have hin := fun i hi => Memory.read_writeN_in hm bs (m.cell va) (i := i) hi
        have hout := fun x hx => Memory.read_writeN_out hm bs (m.cell va) (x := x) hx
        split at hspec
        · next hhost =>
          obtain ⟨hmem, hpending, hcrews⟩ := hspec
          rw [if_pos hhost, hmem]
          exact ⟨hout, rfl, hin, hpending, hcrews⟩
        next hhost =>
        rw [if_neg hhost]
        split at hspec
        · next hdbg =>
          obtain ⟨hmem, hcrews, hflights⟩ := hspec
          rw [if_pos hdbg, hmem]
          exact ⟨fun _ _ => rfl, rfl, rfl, hcrews, hflights⟩
        · next hdbg =>
          obtain ⟨hmixed, hmem⟩ := hspec
          rw [if_neg hdbg, hmixed, hmem]
          exact ⟨hout, rfl, hin⟩

end
end Sys2Proof.Machine

namespace Sys2Proof.Machine

section

/-! ### A checkpoint of a crew whose area is no frame of the device (R226, R254)

A checkpoint evicts every crew, and the statement has memory outside the crews' areas unchanged. The crew of `farArea`, whose area is the first
frame number behind the device's, is evicted into cells that are in no frame of that number (`not_inFrame_farCrew`). -/

/-- Writes that do not reach a cell leave it as it was. -/
theorem State.read_foldl_writeHome_of_ne (cell : Nat → Nat) (ws : List (List Byte × Nat)) (s : State) {a : Nat} (hm : Memory.wf s.mem = true)
    (hout : ∀ w ∈ ws, ¬(cell w.2 ≤ a ∧ a < cell w.2 + w.1.length)) :
    Memory.read (ws.foldl (fun s w => s.writeHome (cell w.2) w.1) s).mem a = Memory.read s.mem a := by
  induction ws generalizing s with
  | nil => rfl
  | cons w ws ih =>
    have hrest := ih (s.writeHome (cell w.2) w.1) (Memory.wf_writeN _ _ _ hm) fun v hv => hout v (List.mem_cons_of_mem _ hv)
    exact hrest.trans ((Memory.read_writeN _ _ _ hm a).trans (if_neg (hout w List.mem_cons_self)))

/-- The register that the crew of `farArea` holds. -/
def farReg : PReg := { bank := some 0, lanes := [live 1] }

/-- What is saved of `farCrew` behind its registers, 256 bytes at a time (R226). -/
def farChunks : List (List Byte × Nat) := (chunks 256 ((farCrew.saved.length + 255) / 256) farCrew.saved).zipIdx

theorem save_farArea : farArea.save farCrew =
    farChunks.foldl (fun s w => s.writeHome (farCrew.evictCell (16384 + 256 * w.2)) w.1) (farArea.saveReg farCrew 1 farReg) := rfl

/-- None of those writes reaches the register's word. -/
theorem farChunks_elsewhere : ∀ w ∈ farChunks, ¬(farCrew.evictCell (16384 + 256 * w.2) ≤ farCrew.evictCell (256 * 1) + 4 * 0 ∧
    farCrew.evictCell (256 * 1) + 4 * 0 < farCrew.evictCell (16384 + 256 * w.2) + w.1.length) := by decide +kernel

/-- The word of w1 is read from its slot once the crew has been saved. -/
theorem read_save_farArea : Memory.read (farArea.save farCrew).mem (farCrew.evictCell (256 * 1) + 4 * 0) = 1 := by
  obtain ⟨bad, hreg⟩ := State.saveReg_of_area (c := farCrew) rfl farArea 1 farReg
  have hmem : (farArea.saveReg farCrew 1 farReg).mem = farReg.stored (farCrew.evictCell (256 * 1)) farArea.mem := by rw [hreg]
  have hword := PReg.readN_stored (p := farReg) (cell := farCrew.evictCell (256 * 1)) (l := 0) (m := farArea.mem) (by decide) rfl rfl
  rw [save_farArea, State.read_foldl_writeHome_of_ne (fun i => farCrew.evictCell (16384 + 256 * i)) _ _
    (by rw [hmem]; exact PReg.wf_stored rfl) farChunks_elsewhere, hmem]
  exact (List.cons.inj hword).1

/-- An eviction writes memory by its saving alone. -/
theorem State.mem_evict (s : State) (k : Nat) : (s.evict k).mem = (s.save (s.crew k)).mem := by
  unfold State.evict
  dsimp only
  rw [State.settleCore_spec]
  rfl

/-- A crew that has no unretired entry is evicted at once, unless it is flushed (R226, R227). -/
theorem State.takeVictim_of_idle {s : State} {k : Nat} (hidem : (s.launch (s.crew k).launch).control.getLsbD 6 = false)
    (hrob : (s.crew k).rob = []) : s.takeVictim k = s.evict k := by
  unfold State.takeVictim
  dsimp only
  rw [hidem, hrob]
  rfl

/-- The checkpoint evicts the only crew there is. -/
theorem evictAll_farArea : farArea.evictAll = farArea.takeVictim 0 := by
  have hcrews : (farArea.crews.filter fun e => e.2.core.isSome).map (·.1) = [0] := rfl
  unfold State.evictAll
  rw [hcrews, List.foldl_cons, List.foldl_nil]

theorem State.mem_checkpoint_of_idle {s : State} (h : s.ckpt = .idle) : s.checkpoint.mem = s.evictAll.mem := by
  unfold State.checkpoint
  rw [h]

theorem mem_checkpoint_farArea : farArea.checkpoint.mem = (farArea.save farCrew).mem := by
  calc farArea.checkpoint.mem = farArea.evictAll.mem := State.mem_checkpoint_of_idle rfl
    _ = (farArea.evict 0).mem := by rw [evictAll_farArea, State.takeVictim_of_idle rfl rfl]
    _ = (farArea.save farCrew).mem := farArea.mem_evict 0

/-- Only crew 0 of `farArea` is not as a crew is before its admission. -/
theorem crew_farArea (k : Nat) : farArea.crew k = if k = 0 then farCrew else {} := by
  unfold State.crew farArea tget tget
  simp only [eq_comm]

theorem length_saved_reset : ({} : Crew).saved.length ≤ 32768 := by decide +kernel

/-- Refutes O59: a checkpoint of `farArea` writes the word 1 of a register to a cell that the statement says has kept its 0, for the number of the
crew's area is that of no frame of the device. -/
theorem not_hostAndFabric : ¬ Obligations.HostAndFabric := by
  intro h
  obtain ⟨-, -, -, -, -, -, -, -, -, hcheckpoint, -⟩ := h
  obtain ⟨t, ht, -, houtside, -⟩ := (hcheckpoint farArea).1 rfl
  obtain rfl := Host.Outcome.next.inj (ht : Host.Outcome.next farArea.checkpoint = .next t)
  have hlength : ∀ k, (farArea.crew k).saved.length ≤ 32768 := fun k => by
    rw [crew_farArea]
    split
    · exact length_saved_farCrew
    · exact length_saved_reset
  have hframe : ∀ k f, (farArea.crew k).area = some f → inFrame f false (farCrew.evictCell (256 * 1) + 4 * 0) = false := fun k f hf => by
    rw [crew_farArea] at hf
    split at hf
    · cases hf
      exact not_inFrame_farCrew
    · cases hf
  have hzero : Memory.read farArea.checkpoint.mem (farCrew.evictCell (256 * 1) + 4 * 0) = 0 := houtside rfl hlength _ hframe
  rw [mem_checkpoint_farArea, read_save_farArea] at hzero
  exact absurd hzero (by decide)

end
end Sys2Proof.Machine

namespace Sys2Proof.Machine

section

/-! ### Instructions that compute one value in every lane -/

/-- An instruction that runs through alu, with effects that write values alone, computes them. -/
theorem computes_of_alu {i : Instr} {o : Operands} {f : Crew → Nat → Eff} {eff : State → Nat → Eff} (hx : ∀ s, exec i s = .next (s.alu o f))
    (hlanes : o.lanes = []) (hthr : ∀ c l, (f c l).thr = none) (hw : ∀ c l, ∀ x ∈ (f c l).w, ∃ v, x = live v)
    (he : ∀ (s : State) l, f s.curCrew l = eff s l) : Computes i o eff :=
  computes_of_issue (f := fun s => f s.curCrew) hx (fun _ => rfl) hlanes (fun _ _ => hthr _ _) (fun _ _ => hw _ _) fun s l _ => he s l

theorem computes_of_ri {i : Instr} {d a : Reg} {f : Word → Word} (g : Word → Word) (hx : ∀ s, exec i s = .next (s.ri d a f)) (h : ∀ x, f x = g x) :
    Computes i (opsR d a) fun s l => gives (g (s.val a l)) :=
  computes_of_alu hx rfl (fun _ _ => rfl) (fun _ _ _ => mem_gives) fun _ _ => congrArg gives (h _)

theorem computes_of_rr {i : Instr} {d a b : Reg} {f : Word → Word → Word} (g : Word → Word → Word)
    (hx : ∀ s, exec i s = .next (s.rr d a b f)) (h : ∀ x y, f x y = g x y) : Computes i (opsRR d a b) fun s l => gives (g (s.val a l) (s.val b l)) :=
  computes_of_alu hx rfl (fun _ _ => rfl) (fun _ _ _ => mem_gives) fun _ _ => congrArg gives (h _ _)

theorem computes_of_rrr {i : Instr} {d a b c : Reg} {f : Word → Word → Word → Word} (g : Word → Word → Word → Word)
    (hx : ∀ s, exec i s = .next (s.rrr d a b c f)) (h : ∀ x y z, f x y z = g x y z) : Computes i (opsRRR d a b c) fun s l => gives (g (s.val a l) (s.val b l) (s.val c l)) :=
  computes_of_alu hx rfl (fun _ _ => rfl) (fun _ _ _ => mem_gives) fun _ _ => congrArg gives (h _ _ _)

/-- What a lane that writes a pair writes. -/
theorem mem_gives2 {v : Dword} {x : Lane} (h : x ∈ (gives2 v).w) : ∃ u, x = live u := by
  obtain rfl | hx := List.mem_cons.1 h
  · exact ⟨_, rfl⟩
  · exact ⟨_, List.mem_singleton.1 hx⟩

/-- An instruction whose effect is the same everywhere. -/
theorem computes_const {i : Instr} {o : Operands} {e : Eff} (hx : ∀ s, exec i s = .next (s.alu o fun _ _ => e)) (hlanes : o.lanes = [])
    (hthr : e.thr = none) (hw : ∀ x ∈ e.w, ∃ v, x = live v) : Computes i o fun _ _ => e :=
  computes_of_alu (f := fun _ _ => e) hx hlanes (fun _ _ => hthr) (fun _ _ => hw) fun _ _ => rfl

/-! ### Shifts and rotations by any amount (R349) -/

theorem shlWord_eq (x : Word) (y : Nat) : shlWord x y = BitVec.ofNat 32 (x.toNat * 2 ^ y) := by
  have hshift : x <<< y = BitVec.ofNat 32 (x.toNat * 2 ^ y) := BitVec.eq_of_toNat_eq (by simp [Nat.shiftLeft_eq])
  unfold shlWord
  split
  · rw [← hshift, BitVec.shiftLeft_eq_zero ‹32 ≤ y›]
    rfl
  · exact hshift

theorem shrWord_eq (x : Word) (y : Nat) : shrWord x y = BitVec.ofNat 32 (x.toNat / 2 ^ y) := by
  have hshift : x >>> y = BitVec.ofNat 32 (x.toNat / 2 ^ y) := by
    rw [← Nat.shiftRight_eq_div_pow, ← BitVec.toNat_ushiftRight, BitVec.ofNat_toNat, BitVec.setWidth_eq]
  unfold shrWord
  split
  · rw [← hshift, BitVec.ushiftRight_eq_zero ‹32 ≤ y›]
    rfl
  · exact hshift

/-- A shift by 31 leaves the sign bit alone, as any longer one does. -/
theorem sarWord_eq (x : Word) (y : Nat) : sarWord x y = BitVec.ofInt 32 (x.toInt / 2 ^ y) := by
  have hmin : x.toInt / 2 ^ min y 31 = x.toInt / 2 ^ y := by
    have hlo := BitVec.le_toInt x
    have hhi := BitVec.toInt_lt (x := x)
    by_cases hy : y ≤ 31
    · rw [Nat.min_eq_left hy]
    · have hpow : (2 : Int) ^ 31 ≤ 2 ^ y := pow_le_pow_right₀ (by decide) (by omega)
      rw [Nat.min_eq_right (by omega)]
      by_cases hx : 0 ≤ x.toInt
      · rw [Int.ediv_eq_zero_of_lt hx hhi, Int.ediv_eq_zero_of_lt hx (by omega)]
      · rw [Int.ediv_eq_neg_one_of_neg_of_le (by omega) (by omega), Int.ediv_eq_neg_one_of_neg_of_le (by omega) (by omega)]
  unfold sarWord
  rw [← hmin, BitVec.sshiftRight, Int.shiftRight_eq_div_pow]
  rfl

theorem rotWord_eq (x : Word) (y : Nat) : rotWord x y = wordOfBits fun i => x.getLsbD ((i + 32 - y % 32) % 32) := by
  apply BitVec.eq_of_getLsbD_eq
  intro i hi
  have hy := Nat.mod_lt y (show 0 < 32 by decide)
  rw [rotWord, wordOfBits, getLsbD_maskOf, decide_eq_true hi, Bool.true_and, BitVec.getLsbD_rotateLeft, Nat.mod_mod]
  by_cases hlt : i < y % 32
  · rw [decide_eq_true hlt, cond_true]
    congr 1
    omega
  · rw [decide_eq_false hlt, cond_false, decide_eq_true hi, Bool.true_and]
    congr 1
    omega

/-- Settles O4, instruction by instruction: each runs through alu, with the shifts and the rotation by any amount as the rules give them. -/
theorem logicAndShifts : Obligations.LogicAndShifts :=
  ⟨fun _ _ _ => computes_of_rr (fun x y => x &&& y) (fun _ => rfl) fun _ _ => rfl,
    fun _ _ i => computes_of_ri (fun x => x &&& i.signExtend 32) (fun _ => rfl) fun _ => rfl,
    fun _ _ _ => computes_of_rr (fun x y => x ||| y) (fun _ => rfl) fun _ _ => rfl,
    fun _ _ i => computes_of_ri (fun x => x ||| i.signExtend 32) (fun _ => rfl) fun _ => rfl,
    fun _ _ _ => computes_of_rr (fun x y => x ^^^ y) (fun _ => rfl) fun _ _ => rfl,
    fun _ _ i => computes_of_ri (fun x => x ^^^ i.signExtend 32) (fun _ => rfl) fun _ => rfl,
    fun _ _ _ => computes_of_rr (fun x y => x &&& ~~~y) (fun _ => rfl) fun _ _ => rfl,
    fun _ _ => computes_of_ri (fun x => x) (fun _ => rfl) fun _ => rfl,
    fun _ _ => computes_const (fun _ => rfl) rfl rfl fun _ => mem_gives, fun _ _ => computes_const (fun _ => rfl) rfl rfl fun _ => mem_gives,
    fun _ _ => computes_const (fun _ => rfl) rfl rfl fun _ => mem_gives2,
    fun _ i => BitVec.ofNat_toNat 64 i ▸ computes_const (fun _ => rfl) rfl rfl fun _ => mem_gives2,
    computes_const (fun _ => rfl) rfl rfl fun _ => mem_no_writes rfl,
    fun _ _ _ => computes_of_rr (fun x y => BitVec.ofNat 32 (x.toNat * 2 ^ y.toNat)) (fun _ => rfl) fun _ _ => shlWord_eq _ _,
    fun _ _ i => computes_of_ri (fun x => BitVec.ofNat 32 (x.toNat * 2 ^ i.toNat)) (fun _ => rfl) fun _ => shlWord_eq _ _,
    fun _ _ _ => computes_of_rr (fun x y => BitVec.ofNat 32 (x.toNat / 2 ^ y.toNat)) (fun _ => rfl) fun _ _ => shrWord_eq _ _,
    fun _ _ i => computes_of_ri (fun x => BitVec.ofNat 32 (x.toNat / 2 ^ i.toNat)) (fun _ => rfl) fun _ => shrWord_eq _ _,
    fun _ _ _ => computes_of_rr (fun x y => BitVec.ofInt 32 (x.toInt / 2 ^ y.toNat)) (fun _ => rfl) fun _ _ => sarWord_eq _ _,
    fun _ _ i => computes_of_ri (fun x => BitVec.ofInt 32 (x.toInt / 2 ^ i.toNat)) (fun _ => rfl) fun _ => sarWord_eq _ _,
    fun _ _ _ => computes_of_rr (fun x y => wordOfBits fun i => x.getLsbD ((i + 32 - y.toNat % 32) % 32)) (fun _ => rfl) fun _ _ => rotWord_eq _ _,
    fun _ _ i => computes_of_ri (fun x => wordOfBits fun k => x.getLsbD ((k + 32 - i.toNat % 32) % 32)) (fun _ => rfl) fun _ => rotWord_eq _ _⟩

/-! ### Products and quotients (R101) -/

theorem mul_eq_ofNat (x y : Word) : x * y = BitVec.ofNat 32 (x.toNat * y.toNat) := BitVec.eq_of_toNat_eq (by simp)

theorem mad_eq_ofNat (x y z : Word) : x * y + z = BitVec.ofNat 32 (x.toNat * y.toNat + z.toNat) := BitVec.eq_of_toNat_eq (by simp)

theorem highHalf_eq (sg : Bool) (x y : Word) :
    (if sg then BitVec.ofInt 32 (x.toInt * y.toInt / 2 ^ 32) else BitVec.ofNat 32 (x.toNat * y.toNat / 2 ^ 32)) =
    if sg then BitVec.ofInt 32 ((x.toInt * y.toInt) >>> 32) else BitVec.ofNat 32 ((x.toNat * y.toNat) >>> 32) := by
  have hint : (x.toInt * y.toInt) >>> 32 = x.toInt * y.toInt / 2 ^ 32 :=
    (Int.shiftRight_natCast_right _ 32).trans (Int.shiftRight_eq_div_pow _ 32)
  rw [hint, Nat.shiftRight_eq_div_pow]

/-- The quotient of -2^31 by -1 is 2^31, whose word is that of -2^31. -/
theorem divWord_eq (sg : Bool) (x y : Word) : divWord sg x y =
    if y = 0 then 0xffffffff
    else if sg = false then BitVec.ofNat 32 (x.toNat / y.toNat)
    else if x = 0x80000000 ∧ y = 0xffffffff then 0x80000000
    else BitVec.ofInt 32 (x.toInt.tdiv y.toInt) := by
  unfold divWord
  refine if_congr Iff.rfl rfl ?_
  cases sg
  · rfl
  · rw [if_pos rfl, if_neg Bool.noConfusion]
    split
    · obtain ⟨rfl, rfl⟩ := ‹x = _ ∧ y = _›
      decide
    · rfl

theorem remWord_eq (sg : Bool) (x y : Word) : remWord sg x y =
    if y = 0 then x
    else if sg = false then BitVec.ofNat 32 (x.toNat % y.toNat)
    else if x = 0x80000000 ∧ y = 0xffffffff then 0
    else BitVec.ofInt 32 (x.toInt - y.toInt * x.toInt.tdiv y.toInt) := by
  unfold remWord
  refine if_congr Iff.rfl rfl ?_
  cases sg
  · rfl
  · rw [if_pos rfl, if_neg Bool.noConfusion, Int.tmod_def]
    split
    · obtain ⟨rfl, rfl⟩ := ‹x = _ ∧ y = _›
      decide
    · rfl

/-- A bit of the carry-less product: the parity of the pairs of bits whose places add up to its own (R288). -/
def clmulBit (a b : Word) (n : Nat) : Bool :=
  (List.range 32).foldl (fun x i => xor x (b.getLsbD i && i ≤ n && a.getLsbD (n - i))) false

theorem getLsbD_clmulProduct (a b : Word) {n : Nat} (hn : n < 64) : (clmulProduct a b).getLsbD n = clmulBit a b n := by
  have hfold : ∀ (is : List Nat) (p : Dword), (is.foldl (fun p i => if b.getLsbD i then p ^^^ (a.setWidth 64 <<< i) else p) p).getLsbD n =
      is.foldl (fun x i => xor x (b.getLsbD i && i ≤ n && a.getLsbD (n - i))) (p.getLsbD n) := by
    intro is
    induction is with
    | nil => exact fun _ => rfl
    | cons i is ih =>
      intro p
      rw [List.foldl_cons, List.foldl_cons, ih]
      congr 1
      cases b.getLsbD i
      · simp
      · by_cases hi : i ≤ n
        · simp [hn, hi]
        · simp [hn, hi, Nat.lt_of_not_le hi]
  exact (hfold (List.range 32) 0#64).trans (by rw [BitVec.getLsbD_zero, clmulBit])

/-- The half of the carry-less product that CLMUL delivers. -/
theorem clmulHalf_eq (h : Bool) (a b : Word) : (if h then hiWord (clmulProduct a b) else loWord (clmulProduct a b)) =
    wordOfBits fun i => clmulBit a b (if h then 32 + i else i) := by
  apply BitVec.eq_of_getLsbD_eq
  intro i hi
  rw [wordOfBits, getLsbD_maskOf, decide_eq_true hi, Bool.true_and]
  cases h
  · rw [if_neg Bool.false_ne_true, if_neg Bool.false_ne_true, loWord, BitVec.getLsbD_extractLsb', decide_eq_true hi, Bool.true_and,
      Nat.zero_add, getLsbD_clmulProduct a b (by omega)]
  · rw [if_pos rfl, if_pos rfl, hiWord, BitVec.getLsbD_extractLsb', decide_eq_true hi, Bool.true_and, getLsbD_clmulProduct a b (by omega)]

/-- Settles O2, instruction by instruction: each runs through alu, and the value that it writes is that of the rules. -/
theorem multiplyAndDivide : Obligations.MultiplyAndDivide :=
  ⟨fun _ _ _ => computes_of_rr _ (fun _ => rfl) mul_eq_ofNat, fun _ _ i => computes_of_ri _ (fun _ => rfl) fun x => mul_eq_ofNat x (simm i),
    fun _ _ _ sg => computes_of_rr _ (fun _ => rfl) (highHalf_eq sg), fun _ _ _ _ => computes_of_rrr _ (fun _ => rfl) mad_eq_ofNat,
    fun _ _ _ h => computes_of_rr (fun a b => wordOfBits fun i => clmulBit a b (if h then 32 + i else i)) (fun _ => rfl) (clmulHalf_eq h),
    fun _ _ _ sg => computes_of_rr _ (fun _ => rfl) (divWord_eq sg),
    fun _ _ _ sg => computes_of_rr _ (fun _ => rfl) (remWord_eq sg)⟩

end
end Sys2Proof.Machine

namespace Sys2Proof.Machine

section

/-! ### The fields of an FP32 word (R84, R100) -/

section
variable (v : Word)

theorem toNat_exponent : (v.extractLsb' 23 8).toNat = v.toNat / 2 ^ 23 % 256 := by
  rw [BitVec.extractLsb'_toNat, Nat.shiftRight_eq_div_pow]

theorem toNat_fraction : (v.extractLsb' 0 23).toNat = v.toNat % 2 ^ 23 := by
  rw [BitVec.extractLsb'_toNat, Nat.shiftRight_zero]

theorem exponent_eq_iff {k : Nat} (hk : k < 256) : v.extractLsb' 23 8 = BitVec.ofNat 8 k ↔ v.toNat / 2 ^ 23 % 256 = k := by
  rw [← BitVec.toNat_inj, toNat_exponent, BitVec.toNat_ofNat, Nat.mod_eq_of_lt hk]

theorem fraction_eq_zero_iff : v.extractLsb' 0 23 = 0 ↔ v.toNat % 2 ^ 23 = 0 := by
  rw [← BitVec.toNat_inj, toNat_fraction]
  rfl

theorem getLsbD_eq_beq (k : Nat) : v.getLsbD k = (v.toNat / 2 ^ k % 2 == 1) := by
  rw [← BitVec.testBit_toNat, Nat.testBit_eq_decide_div_mod_eq]
  rfl

/-- The quiet bit is the fraction's most significant one. -/
theorem quiet_eq : v.getLsbD 22 = decide (2 ^ 22 ≤ v.toNat % 2 ^ 23) := by
  rw [getLsbD_eq_beq, Bool.eq_iff_iff, beq_iff_eq, decide_eq_true_iff]
  omega

/-- What an FP32 word says (R84). -/
theorem value_word : fp32.value v.toNat =
    if v.extractLsb' 23 8 = 0xff then
      if v.extractLsb' 0 23 = 0 then .inf (v.getLsbD 31)
      else .nan (v.getLsbD 31) (v.getLsbD 22) (v.extractLsb' 0 23).toNat 23
    else if v.extractLsb' 23 8 = 0 then .fin (v.getLsbD 31) (v.extractLsb' 0 23).toNat (-149)
    else .fin (v.getLsbD 31) (2 ^ 23 + (v.extractLsb' 0 23).toNat) ((v.extractLsb' 23 8).toNat - 150) := by
  have hv := v.isLt
  have hfrac : v.toNat % 2 ^ 31 % 2 ^ 23 = v.toNat % 2 ^ 23 := by omega
  have hexp : v.toNat % 2 ^ 31 / 2 ^ 23 = v.toNat / 2 ^ 23 % 256 := by omega
  have hbig : v.toNat % 2 ^ 31 > 0x7f7fffff ↔ v.toNat / 2 ^ 23 % 256 = 255 := by omega
  rw [quiet_eq, getLsbD_eq_beq v 31, toNat_exponent, toNat_fraction]
  simp only [show (0xff : BitVec 8) = BitVec.ofNat 8 255 from rfl, show (0 : BitVec 8) = BitVec.ofNat 8 0 from rfl,
    exponent_eq_iff v (show 255 < 256 by decide), exponent_eq_iff v (show 0 < 256 by decide), fraction_eq_zero_iff]
  simp only [Fmt.value, Fmt.magBits, Fmt.emin, fp32, Nat.reduceAdd, Nat.reduceSub, hfrac, hexp, hbig, Bool.true_and, Bool.not_true, Bool.false_or,
    beq_iff_eq, ge_iff_le]
  by_cases h255 : v.toNat / 2 ^ 23 % 256 = 255
  · rw [if_pos h255, if_pos h255]
  · rw [if_neg h255, if_neg h255]
    split
    · rfl
    · congr 1
      omega

theorem subnormal_iff (f : Fmt) (x : Nat) : f.subnormal x = true ↔ x % 2 ^ f.magBits ≠ 0 ∧ x % 2 ^ f.magBits < 2 ^ f.mb := by
  simp [Fmt.subnormal]

theorem subnormal_word : fp32.subnormal v.toNat = (v.extractLsb' 23 8 == 0 && v.extractLsb' 0 23 != 0) := by
  have hv := v.isLt
  rw [Bool.eq_iff_iff, Bool.and_eq_true, beq_iff_eq, bne_iff_ne, Ne, fraction_eq_zero_iff, show (0 : BitVec 8) = BitVec.ofNat 8 0 from rfl,
    exponent_eq_iff v (show 0 < 256 by decide)]
  rw [subnormal_iff]
  show v.toNat % 2 ^ 31 ≠ 0 ∧ v.toNat % 2 ^ 31 < 2 ^ 23 ↔ _
  omega

/-- The class of a word, by its exponent and its fraction (R100). -/
theorem ofNat_fClass : BitVec.ofNat 32 (fClass v.toNat) =
    if v.extractLsb' 23 8 = 0xff ∧ v.extractLsb' 0 23 ≠ 0 then (if v.getLsbD 22 then 0x200 else 0x100)
    else if v.extractLsb' 23 8 = 0xff then (if v.getLsbD 31 then 0x1 else 0x80)
    else if v.extractLsb' 23 8 ≠ 0 then (if v.getLsbD 31 then 0x2 else 0x40)
    else if v.extractLsb' 0 23 ≠ 0 then (if v.getLsbD 31 then 0x4 else 0x20)
    else if v.getLsbD 31 then 0x8 else 0x10 := by
  unfold fClass
  rw [value_word, subnormal_word]
  by_cases hff : v.extractLsb' 23 8 = 0xff
  · by_cases hf : v.extractLsb' 0 23 = 0
    · simp only [hff, hf, if_true, ne_eq, not_true_eq_false, and_false, if_false]
      cases v.getLsbD 31 <;> rfl
    · simp only [hff, hf, if_true, if_false, ne_eq, not_false_eq_true, and_self]
      cases v.getLsbD 22 <;> rfl
  · by_cases he : v.extractLsb' 23 8 = 0
    · rw [he, if_neg (by decide), if_pos rfl, if_neg fun h => absurd h.1 (by decide), if_neg (by decide), if_neg fun h => h rfl]
      by_cases hf : v.extractLsb' 0 23 = 0
      · rw [hf, if_neg fun h => h rfl]
        cases v.getLsbD 31 <;> rfl
      · have hm : (v.extractLsb' 0 23).toNat ≠ 0 := fun h => hf (BitVec.eq_of_toNat_eq h)
        simp only [beq_iff_eq, hm, if_false, bne_iff_ne, ne_eq, hf, not_false_eq_true, if_true, BEq.rfl, Bool.true_and]
        cases v.getLsbD 31 <;> rfl
    · have hm : 2 ^ 23 + (v.extractLsb' 0 23).toNat ≠ 0 := by omega
      simp only [hff, he, if_false, false_and, ne_eq, not_false_eq_true, if_true, beq_iff_eq, hm, Bool.and_eq_true]
      cases v.getLsbD 31 <;> rfl

end

/-- Settles O44: FCLASS decodes from its word, and the class is that of the exponent and the fraction. -/
theorem floatClass : Obligations.FloatClass :=
  ⟨fun d a x => (decode_rWord 0x47 d a 0 0 x).trans (by simp [decodeFields, decode4, zeroed]),
    decode_encode (i := .fclass 5 6) rfl, fun _ _ => computes_of_ri _ (fun _ => rfl) ofNat_fClass⟩

end
end Sys2Proof.Machine

namespace Sys2Proof.Machine

section

/-! ### The finite numbers of a format (R84)

A finite encoding is a sign and a magnitude k; the magnitudes 0, 1, 2, ... stand for ever greater numbers, also beyond the greatest finite one,
as if exponents had no bound (R90). -/

/-- The factor of a sign. -/
def sgn (neg : Bool) : Rat := if neg then -1 else 1

theorem ratOf_eq (neg : Bool) (m : Nat) (e : Int) : ratOf neg m e = sgn neg * (m * (2 : Rat) ^ e) := mul_assoc _ _ _

theorem sgn_not (neg : Bool) : sgn (!neg) = -sgn neg := by cases neg <;> simp [sgn]

theorem sgn_xor (n k : Bool) : sgn (xor n k) = sgn n * sgn k := by cases n <;> cases k <;> simp [sgn]

theorem abs_sgn_mul (neg : Bool) (x : Rat) : |sgn neg * x| = |x| := by cases neg <;> simp [sgn]

theorem sgn_mul_neg_iff (neg : Bool) {x : Rat} (hx : 0 < x) : sgn neg * x < 0 ↔ neg = true := by
  cases neg
  · simp [sgn, hx.le]
  · simp [sgn, hx]

theorem sgn_mul_pos_iff (neg : Bool) {x : Rat} (hx : 0 < x) : 0 < sgn neg * x ↔ neg = false := by
  cases neg
  · simp [sgn, hx]
  · simp [sgn, hx.le]

theorem sgn_mul_inj (neg : Bool) {x y : Rat} : sgn neg * x = sgn neg * y ↔ x = y := by cases neg <;> simp [sgn]

theorem two_zpow_pos (e : Int) : (0 : Rat) < 2 ^ e := zpow_pos two_pos e

theorem two_zpow_natCast (n : Nat) : (2 : Rat) ^ (n : Int) = ((2 ^ n : Nat) : Rat) := by rw [zpow_natCast]; push_cast; rfl

/-- A magnitude in units of the least subnormal number. -/
def Fmt.units (f : Fmt) (k : Nat) : Nat :=
  if k < 2 ^ f.mb then k else (2 ^ f.mb + k % 2 ^ f.mb) * 2 ^ (k / 2 ^ f.mb - 1)

/-- The least subnormal number. -/
def Fmt.unit (f : Fmt) : Rat := 2 ^ (f.emin - f.mb)

/-- The number of a magnitude. -/
def Fmt.mag (f : Fmt) (k : Nat) : Rat := f.units k * f.unit

/-- The number halfway between a magnitude and the next. -/
def Fmt.mid (f : Fmt) (k : Nat) : Rat := (f.mag k + f.mag (k + 1)) / 2

section
variable (f : Fmt)

theorem Fmt.unit_pos : 0 < f.unit := two_zpow_pos _

/-- n steps of 2^t units are a magnitude, where n is a significand, or is one digit too long. -/
theorem Fmt.units_scaled {t n : Nat} (hn : n ≤ 2 ^ (f.mb + 1)) (ht : t = 0 ∨ 2 ^ f.mb ≤ n) : f.units (t * 2 ^ f.mb + n) = n * 2 ^ t := by
  have hpos : 0 < 2 ^ f.mb := Nat.two_pow_pos _
  have hdouble : 2 ^ (f.mb + 1) = 2 * 2 ^ f.mb := pow_succ' ..
  unfold Fmt.units
  by_cases hlt : n < 2 ^ f.mb
  · obtain rfl : t = 0 := by omega
    rw [Nat.zero_mul, Nat.zero_add, if_pos hlt, pow_zero, Nat.mul_one]
  · rw [if_neg (by have := Nat.zero_le (t * 2 ^ f.mb); omega)]
    by_cases htop : n = 2 ^ (f.mb + 1)
    · have hsum : t * 2 ^ f.mb + n = 2 ^ f.mb * (t + 2) := by rw [htop, hdouble]; ring
      rw [hsum, Nat.mul_mod_right, Nat.mul_div_cancel_left _ hpos, htop, hdouble, show t + 2 - 1 = t + 1 from rfl, pow_succ]
      ring
    · obtain ⟨r, rfl⟩ := Nat.exists_eq_add_of_le (Nat.le_of_not_lt hlt)
      have hsum : t * 2 ^ f.mb + (2 ^ f.mb + r) = r + 2 ^ f.mb * (t + 1) := by ring
      have hr : r < 2 ^ f.mb := by omega
      rw [hsum, Nat.add_mul_mod_self_left, Nat.add_mul_div_left _ _ hpos, Nat.mod_eq_of_lt hr, Nat.div_eq_of_lt hr, Nat.zero_add,
        Nat.add_sub_cancel]

/-- A magnitude is a significand and the place of its last digit. -/
theorem Fmt.exists_scaled (k : Nat) : ∃ t n, n < 2 ^ (f.mb + 1) ∧ (t = 0 ∨ 2 ^ f.mb ≤ n) ∧ k = t * 2 ^ f.mb + n := by
  have hpos : 0 < 2 ^ f.mb := Nat.two_pow_pos _
  have hdouble : 2 ^ (f.mb + 1) = 2 * 2 ^ f.mb := pow_succ' ..
  have hmod := Nat.mod_lt k hpos
  have hdiv := Nat.div_add_mod' k (2 ^ f.mb)
  by_cases h : k < 2 ^ f.mb
  · exact ⟨0, k, by omega, .inl rfl, by omega⟩
  · obtain ⟨t, ht⟩ := Nat.exists_eq_add_of_le (Nat.div_pos (Nat.le_of_not_lt h) hpos)
    refine ⟨t, 2 ^ f.mb + k % 2 ^ f.mb, by omega, .inr (Nat.le_add_right _ _), ?_⟩
    rw [ht, Nat.add_mul] at hdiv
    omega

theorem Fmt.mag_scaled {t n : Nat} (hn : n ≤ 2 ^ (f.mb + 1)) (ht : t = 0 ∨ 2 ^ f.mb ≤ n) :
    f.mag (t * 2 ^ f.mb + n) = n * (2 ^ t * f.unit) := by
  unfold Fmt.mag
  rw [f.units_scaled hn ht]
  push_cast
  ring

theorem Fmt.mag_succ_scaled {t n : Nat} (hn : n < 2 ^ (f.mb + 1)) (ht : t = 0 ∨ 2 ^ f.mb ≤ n) :
    f.mag (t * 2 ^ f.mb + n + 1) = (n + 1) * (2 ^ t * f.unit) := by
  rw [Nat.add_assoc, f.mag_scaled hn (ht.imp_right Nat.le_succ_of_le)]
  push_cast
  rfl

theorem Fmt.mag_lt_succ (k : Nat) : f.mag k < f.mag (k + 1) := by
  obtain ⟨t, n, hn, ht, rfl⟩ := f.exists_scaled k
  rw [f.mag_scaled hn.le ht, f.mag_succ_scaled hn ht]
  have := mul_pos (pow_pos (two_pos (α := Rat)) t) f.unit_pos
  linarith

theorem Fmt.mag_strictMono : StrictMono f.mag := strictMono_nat_of_lt_succ f.mag_lt_succ

theorem Fmt.mag_zero : f.mag 0 = 0 := by simp [Fmt.mag, Fmt.units]

theorem Fmt.mag_nonneg (k : Nat) : 0 ≤ f.mag k := f.mag_zero ▸ f.mag_strictMono.monotone (Nat.zero_le k)

theorem Fmt.mag_pos {k : Nat} (hk : k ≠ 0) : 0 < f.mag k := f.mag_zero ▸ f.mag_strictMono (Nat.pos_of_ne_zero hk)

theorem Fmt.mag_lt_mid (k : Nat) : f.mag k < f.mid k := by
  have := f.mag_lt_succ k
  unfold Fmt.mid
  linarith

theorem Fmt.mid_lt_mag (k : Nat) : f.mid k < f.mag (k + 1) := by
  have := f.mag_lt_succ k
  unfold Fmt.mid
  linarith

theorem Fmt.mid_strictMono : StrictMono f.mid := strictMono_nat_of_lt_succ fun k => (f.mid_lt_mag k).trans (f.mag_lt_mid _)

/-- The least normal number is the magnitude 2^mb. -/
theorem Fmt.mag_normal : f.mag (2 ^ f.mb) = 2 ^ f.emin := by
  have h := f.mag_scaled (t := 0) (n := 2 ^ f.mb) (Nat.pow_le_pow_right two_pos (Nat.le_succ _)) (.inl rfl)
  rw [Nat.zero_mul, Nat.zero_add] at h
  rw [h, ← two_zpow_natCast, pow_zero, one_mul, Fmt.unit, ← zpow_add₀ two_ne_zero]
  congr 1
  omega

/-- An encoding is a finite number when its magnitude is at most the largest, and then it is that magnitude's number with its sign. -/
theorem Fmt.value_rat_iff (y : Nat) (u : Rat) : (f.value y).rat = some u ↔
    y % 2 ^ f.magBits ≤ f.largest ∧ sgn (y / 2 ^ f.magBits % 2 == 1) * f.mag (y % 2 ^ f.magBits) = u := by
  unfold Fmt.value
  dsimp only
  generalize y % 2 ^ f.magBits = k
  have hpos : 0 < 2 ^ f.mb := Nat.two_pow_pos _
  by_cases hk : k > f.largest
  · rw [if_pos hk]
    split <;> simp [FVal.rat, Nat.not_le_of_lt hk]
  · rw [if_neg hk]
    have hle : (k ≤ f.largest) = True := eq_true (Nat.le_of_not_lt hk)
    rw [hle, true_and]
    by_cases hex : k / 2 ^ f.mb = 0
    · have hlt : k < 2 ^ f.mb := (Nat.div_eq_zero_iff_lt hpos).1 hex
      simp only [hex, BEq.rfl, if_true, FVal.rat, Option.some.injEq, ratOf_eq, Nat.mod_eq_of_lt hlt, Fmt.mag, Fmt.units, if_pos hlt, Fmt.unit]
    · have hlt : ¬ k < 2 ^ f.mb := fun h => hex (Nat.div_eq_of_lt h)
      have hscale : (2 : Rat) ^ (f.emin - f.mb + ((k / 2 ^ f.mb : Nat) - 1 : Int)) = 2 ^ (k / 2 ^ f.mb - 1) * 2 ^ (f.emin - f.mb) := by
        rw [zpow_add₀ two_ne_zero, mul_comm, ← Nat.cast_pred (Nat.pos_of_ne_zero hex), zpow_natCast]
      simp only [beq_iff_eq, hex, if_false, FVal.rat, Option.some.injEq, ratOf_eq, Fmt.mag, Fmt.units, if_neg hlt, Fmt.unit, hscale]
      push_cast
      simp only [mul_assoc]

end

end
end Sys2Proof.Machine

namespace Sys2Proof.Machine

section

/-! ### Cutting off digits -/

/-- The digits of m × 2^e at and above the place q. -/
def kept (m : Nat) (e q : Int) : Nat := if e ≥ q then m * 2 ^ (e - q).toNat else m / 2 ^ (q - e).toNat

/-- The digits below the place q, in units of the last of them. -/
def lost (m : Nat) (e q : Int) : Nat := if e ≥ q then 0 else m % 2 ^ (q - e).toNat

theorem lost_lt (m : Nat) (e q : Int) : lost m e q < 2 ^ (q - e).toNat := by
  unfold lost
  split
  · exact Nat.two_pow_pos _
  · exact Nat.mod_lt _ (Nat.two_pow_pos _)

/-- A number is its digits at and above a place and those below it. -/
theorem kept_add_lost (m : Nat) (e q : Int) :
    (m : Rat) * 2 ^ e = (kept m e q + (lost m e q : Rat) / 2 ^ (q - e).toNat) * 2 ^ q := by
  unfold kept lost
  by_cases h : e ≥ q
  · rw [if_pos h, if_pos h, Nat.cast_zero, zero_div, add_zero, Nat.cast_mul, Nat.cast_pow, Nat.cast_ofNat, mul_assoc, ← zpow_natCast,
      ← zpow_add₀ two_ne_zero, Int.toNat_of_nonneg (by omega), sub_add_cancel]
  · have hq : (2 : Rat) ^ q = 2 ^ (q - e).toNat * 2 ^ e := by
      rw [← zpow_natCast, ← zpow_add₀ two_ne_zero, Int.toNat_of_nonneg (by omega), sub_add_cancel]
    have hm : (m : Rat) = (m / 2 ^ (q - e).toNat : Nat) * 2 ^ (q - e).toNat + (m % 2 ^ (q - e).toNat : Nat) := by
      exact_mod_cast (Nat.div_add_mod' m (2 ^ (q - e).toNat)).symm
    rw [if_neg h, if_neg h, hq, ← mul_assoc, add_mul, div_mul_cancel₀ _ (by positivity), ← hm]

/-- A rounding in a mode moves a magnitude away from zero, where it is not to the nearest (R90). -/
def away (mode : Nat) (neg : Bool) : Bool :=
  match mode with
  | 0 | 1 => false
  | 2 => !neg
  | _ => neg

theorem roundsUp_iff (mode : Nat) (neg : Bool) (n rem sh : Nat) : roundsUp mode neg n rem sh = true ↔
    if mode = 0 then 2 ^ sh < 2 * rem ∨ (2 * rem = 2 ^ sh ∧ n % 2 = 1) else away mode neg = true ∧ rem ≠ 0 := by
  match mode with
  | 0 => simp [roundsUp]
  | 1 => simp [roundsUp, away]
  | 2 => simp [roundsUp, away, and_comm]
  | n + 3 => simp [roundsUp, away, and_comm]

/-! ### Rounding to a magnitude (R90) -/

/-- A positive number rounds to a magnitude: to the nearest one, a tie to the even one; or to the next one away from zero; or to the next one
toward zero. -/
def Fmt.picks (f : Fmt) (mode : Nat) (neg : Bool) (x : Rat) (k : Nat) : Prop :=
  if mode = 0 then (∀ j, k = j + 1 → f.mid j ≤ x ∧ (x ≤ f.mid j → k % 2 = 0)) ∧ x ≤ f.mid k ∧ (f.mid k ≤ x → k % 2 = 0)
  else if away mode neg then (∀ j, k = j + 1 → ¬ x ≤ f.mag j) ∧ x ≤ f.mag k
  else f.mag k ≤ x ∧ ¬ f.mag (k + 1) ≤ x

section
variable {f : Fmt} {mode : Nat} {neg : Bool} {x : Rat} {k : Nat}

/-- The magnitude below a number, or the next, is the one that it rounds to. -/
theorem Fmt.picks_of_floor (up : Bool) (hlo : f.mag k ≤ x) (hhi : x < f.mag (k + 1))
    (hup : up = true ↔ if mode = 0 then f.mid k < x ∨ (x = f.mid k ∧ k % 2 = 1) else away mode neg = true ∧ f.mag k < x) :
    f.picks mode neg x (if up then k + 1 else k) := by
  unfold Fmt.picks
  by_cases hmode : mode = 0
  · rw [if_pos hmode] at hup ⊢
    cases up
    · have hnot := mt hup.2 Bool.false_ne_true
      rw [if_neg Bool.false_ne_true]
      refine ⟨fun j hj => ?_, ?_, fun h => ?_⟩
      · have := f.mid_lt_mag j
        rw [← hj] at this
        exact ⟨(this.trans_le hlo).le, fun h => absurd (h.trans_lt this) (not_lt.2 hlo)⟩
      · exact not_lt.1 fun h => hnot (.inl h)
      · rcases h.lt_or_eq with h | h
        · exact absurd (.inl h) hnot
        · have : k % 2 ≠ 1 := fun hk => hnot (.inr ⟨h.symm, hk⟩)
          omega
    · have hyes := hup.1 rfl
      rw [if_pos rfl]
      refine ⟨fun j hj => ?_, ?_, fun h => ?_⟩
      · obtain rfl : k = j := by omega
        refine ⟨hyes.elim le_of_lt fun h => h.1.ge, fun h => ?_⟩
        have := (hyes.resolve_left (not_lt.2 h)).2
        omega
      · exact (hhi.trans (f.mag_lt_mid _)).le
      · exact absurd (h.trans_lt hhi) (f.mag_lt_mid _).not_gt
  · rw [if_neg hmode] at hup ⊢
    cases up
    · have hnot := mt hup.2 Bool.false_ne_true
      rw [if_neg Bool.false_ne_true]
      split
      · have hle : x ≤ f.mag k := not_lt.1 fun h => hnot ⟨‹_›, h⟩
        refine ⟨fun j hj h => ?_, hle⟩
        have := f.mag_lt_succ j
        rw [← hj] at this
        exact absurd (hlo.trans h) (not_le.2 this)
      · exact ⟨hlo, not_le.2 hhi⟩
    · obtain ⟨haway, hlt⟩ := hup.1 rfl
      rw [if_pos rfl, if_pos haway]
      refine ⟨fun j hj => ?_, hhi.le⟩
      obtain rfl : k = j := by omega
      exact not_le.2 hlt

/-- A number rounds to no magnitude that is less than a magnitude at most it. -/
theorem Fmt.picks_ge (h : f.picks mode neg x k) {j : Nat} (hj : f.mag j ≤ x) : j ≤ k := by
  by_contra hlt
  have hmono : f.mag (k + 1) ≤ x := (f.mag_strictMono.monotone (by omega)).trans hj
  unfold Fmt.picks at h
  split at h
  · exact absurd (hmono.trans h.2.1) (not_le.2 (f.mid_lt_mag k))
  · split at h
    · exact absurd (hmono.trans h.2) (not_le.2 (f.mag_lt_succ k))
    · exact h.2 hmono

/-- A number rounds to no magnitude that is greater than a magnitude at least it. -/
theorem Fmt.picks_le (h : f.picks mode neg x k) {j : Nat} (hj : x ≤ f.mag j) : k ≤ j := by
  by_contra hlt
  obtain ⟨i, rfl⟩ : ∃ i, k = i + 1 := ⟨k - 1, by omega⟩
  have hmono : x ≤ f.mag i := hj.trans (f.mag_strictMono.monotone (by omega))
  unfold Fmt.picks at h
  split at h
  · exact absurd ((h.1 i rfl).1.trans hmono) (not_le.2 (f.mag_lt_mid i))
  · split at h
    · exact h.1 i rfl hmono
    · exact absurd (h.1.trans hmono) (not_le.2 (f.mag_lt_succ i))

/-- A number rounds to one magnitude. -/
theorem Fmt.picks_unique {l : Nat} (hk : f.picks mode neg x k) (hl : f.picks mode neg x l) : k = l := by
  by_contra hne
  wlog hlt : k < l generalizing k l
  · exact this hl hk (Ne.symm hne) (by omega)
  obtain ⟨i, rfl⟩ : ∃ i, l = i + 1 := ⟨l - 1, by omega⟩
  have hmono : f.mag k ≤ f.mag i := f.mag_strictMono.monotone (by omega)
  unfold Fmt.picks at hk hl
  by_cases hmode : mode = 0
  · rw [if_pos hmode] at hk hl
    obtain ⟨-, hle, htie⟩ := hk
    obtain ⟨hge, htie'⟩ := hl.1 i rfl
    have hik : i = k := by
      have := f.mid_strictMono.le_iff_le.1 (hge.trans hle)
      omega
    subst hik
    have h1 := htie hge
    have h2 := htie' hle
    omega
  · rw [if_neg hmode] at hk hl
    by_cases haway : away mode neg = true
    · rw [if_pos haway] at hk hl
      exact hl.1 i rfl (hk.2.trans hmono)
    · rw [if_neg haway] at hk hl
      exact hk.2 ((f.mag_strictMono.monotone (by omega)).trans hl.1)

end

/-! ### Numbers that round alike -/

/-- The numbers that rounding compares with: the magnitudes and the numbers halfway between them. -/
def Fmt.mark (f : Fmt) (y : Rat) : Prop := ∃ k, y = f.mag k ∨ y = f.mid k

/-- Two numbers lie alike among the marks. -/
def Fmt.alike (f : Fmt) (x s : Rat) : Prop := ∀ y, f.mark y → (y ≤ x ↔ y ≤ s) ∧ (x ≤ y ↔ s ≤ y)

section
variable {f : Fmt} {x s : Rat}

theorem Fmt.mark_mag (f : Fmt) (k : Nat) : f.mark (f.mag k) := ⟨k, .inl rfl⟩
theorem Fmt.mark_mid (f : Fmt) (k : Nat) : f.mark (f.mid k) := ⟨k, .inr rfl⟩

theorem Fmt.picks_alike (h : f.alike x s) (mode : Nat) (neg : Bool) (k : Nat) : f.picks mode neg x k ↔ f.picks mode neg s k := by
  unfold Fmt.picks
  simp only [(h _ (f.mark_mag _)).1, (h _ (f.mark_mag _)).2, (h _ (f.mark_mid _)).1, (h _ (f.mark_mid _)).2]

theorem Fmt.mag_eq_alike (h : f.alike x s) (k : Nat) : f.mag k = x ↔ f.mag k = s := by
  rw [le_antisymm_iff, le_antisymm_iff, (h _ (f.mark_mag k)).1, (h _ (f.mark_mag k)).2]

theorem Fmt.lt_emin_alike (h : f.alike x s) : x < 2 ^ f.emin ↔ s < 2 ^ f.emin := by
  rw [← f.mag_normal, ← not_le, ← not_le, (h _ (f.mark_mag _)).1]

/-- A mark is a number of mb + 2 binary digits. -/
theorem Fmt.exists_mark_eq {y : Rat} (h : f.mark y) : ∃ (n : Nat) (t : Int), n < 2 ^ (f.mb + 2) ∧ y = n * 2 ^ t := by
  obtain ⟨k, h⟩ := h
  obtain ⟨t, n, hn, ht, rfl⟩ := f.exists_scaled k
  have hdouble : 2 ^ (f.mb + 2) = 2 * 2 ^ (f.mb + 1) := pow_succ' ..
  have hunit : (2 : Rat) ^ t * f.unit = 2 * 2 ^ ((t : Int) + (f.emin - f.mb) - 1) := by
    rw [Fmt.unit, ← zpow_natCast, ← zpow_add₀ two_ne_zero, ← zpow_one_add₀ two_ne_zero]
    congr 1
    omega
  rcases h with rfl | rfl
  · refine ⟨2 * n, t + (f.emin - f.mb) - 1, by omega, ?_⟩
    rw [f.mag_scaled hn.le ht, hunit]
    push_cast
    ring
  · refine ⟨2 * n + 1, t + (f.emin - f.mb) - 1, by omega, ?_⟩
    rw [Fmt.mid, f.mag_scaled hn.le ht, f.mag_succ_scaled hn ht, hunit]
    push_cast
    ring

/-- No mark lies between two numbers that differ in a digit beyond its own. -/
theorem Fmt.mark_outside {y : Rat} (h : f.mark y) {j : Nat} (hj : 2 ^ (f.mb + 2) ≤ j) (e : Int) :
    y ≤ j * 2 ^ e ∨ (j + 1) * (2 : Rat) ^ e ≤ y := by
  obtain ⟨n, t, hn, rfl⟩ := f.exists_mark_eq h
  by_cases hte : e ≤ t
  · obtain ⟨d, rfl⟩ := Int.le.dest hte
    have hpos := two_zpow_pos e
    have hy : (n : Rat) * 2 ^ (e + d) = (n * 2 ^ d : Nat) * 2 ^ e := by
      rw [zpow_add₀ two_ne_zero, zpow_natCast]
      push_cast
      ring
    rw [hy]
    rcases Nat.lt_or_ge j (n * 2 ^ d) with hlt | hge
    · right
      exact mul_le_mul_of_nonneg_right (by exact_mod_cast hlt) hpos.le
    · left
      exact mul_le_mul_of_nonneg_right (by exact_mod_cast hge) hpos.le
  · left
    refine mul_le_mul ?_ (zpow_le_zpow_right₀ one_le_two (by omega)) (two_zpow_pos _).le (Nat.cast_nonneg _)
    exact_mod_cast (hn.le.trans hj)

/-- Two numbers between the same two of many digits round alike. -/
theorem Fmt.alike_of_between {j : Nat} (hj : 2 ^ (f.mb + 2) ≤ j) {e : Int} (hx : j * 2 ^ e < x ∧ x < (j + 1) * 2 ^ e)
    (hs : j * 2 ^ e < s ∧ s < (j + 1) * 2 ^ e) : f.alike x s := by
  intro y hy
  rcases f.mark_outside hy hj e with h | h
  · exact ⟨iff_of_true (h.trans hx.1.le) (h.trans hs.1.le), iff_of_false (not_le.2 (h.trans_lt hx.1)) (not_le.2 (h.trans_lt hs.1))⟩
  · exact ⟨iff_of_false (not_le.2 (hx.2.trans_le h)) (not_le.2 (hs.2.trans_le h)), iff_of_true (hx.2.le.trans h) (hs.2.le.trans h)⟩

end

end
end Sys2Proof.Machine

namespace Sys2Proof.Machine

section

/-! ### What a rounding gives (R90, R92, R93) -/

/-- The result and the flags of a number x, with its sign, that rounds to the magnitude k. -/
def Fmt.finish (f : Fmt) (c : FCtx) (neg : Bool) (x : Rat) (k : Nat) : Nat × Nat :=
  if f.largest < k then (f.signBit neg + (if c.sat then f.largest else f.overflow c.mode neg), fOF + fNX)
  else if f.wide && c.ftz && k != 0 && k < 2 ^ f.mb then (f.signBit neg, fUF + fNX)
  else (f.signBit neg + k, if f.mag k = x then 0 else fNX + if x < 2 ^ f.emin then fUF else 0)

/-- The place of a number's leading digit. -/
theorem le_mul_zpow_log2 {m : Nat} (hm : m ≠ 0) (e : Int) :
    (2 : Rat) ^ ((m.log2 : Int) + e) ≤ m * 2 ^ e ∧ (m : Rat) * 2 ^ e < 2 ^ ((m.log2 : Int) + e + 1) := by
  have hlo : ((2 ^ m.log2 : Nat) : Rat) ≤ m := Nat.cast_le.2 (Nat.log2_self_le hm)
  have hhi : (m : Rat) < ((2 ^ (m.log2 + 1) : Nat) : Rat) := Nat.cast_lt.2 Nat.lt_log2_self
  rw [← two_zpow_natCast] at hlo hhi
  constructor
  · rw [zpow_add₀ two_ne_zero]
    exact mul_le_mul_of_nonneg_right hlo (two_zpow_pos e).le
  · rw [add_right_comm, zpow_add₀ two_ne_zero]
    exact mul_lt_mul_of_pos_right (by exact_mod_cast hhi) (two_zpow_pos e)

theorem lt_emin_iff {m : Nat} (hm : m ≠ 0) (e a : Int) : (m.log2 : Int) + e < a ↔ (m : Rat) * 2 ^ e < 2 ^ a := by
  obtain ⟨hlo, hhi⟩ := le_mul_zpow_log2 hm e
  constructor
  · exact fun h => hhi.trans_le (zpow_le_zpow_right₀ one_le_two (by omega))
  · exact fun h => (zpow_lt_zpow_iff_right₀ one_lt_two).1 (hlo.trans_lt h)

/-- The place at which a format cuts off a number's digits. -/
def Fmt.place (f : Fmt) (m : Nat) (e : Int) : Int := (if (m.log2 : Int) + e < f.emin then f.emin else m.log2 + e) - f.mb

/-- The steps of the exponent above the least one at that place. -/
def Fmt.steps (f : Fmt) (m : Nat) (e : Int) : Nat := (f.place m e - (f.emin - f.mb)).toNat

section
variable (f : Fmt) {m : Nat} (hm : m ≠ 0) (e : Int)

theorem Fmt.two_zpow_place : (2 : Rat) ^ f.place m e = 2 ^ f.steps m e * f.unit := by
  have hge : f.emin - f.mb ≤ f.place m e := by
    unfold Fmt.place
    split <;> omega
  rw [Fmt.unit, ← zpow_natCast, ← zpow_add₀ two_ne_zero, Fmt.steps, Int.toNat_of_nonneg (by omega), sub_add_cancel]

include hm

/-- The kept digits are a significand. -/
theorem Fmt.kept_lt : kept m e (f.place m e) < 2 ^ (f.mb + 1) ∧ (f.steps m e = 0 ∨ 2 ^ f.mb ≤ kept m e (f.place m e)) := by
  obtain ⟨hlo, hhi⟩ := le_mul_zpow_log2 hm e
  have hcut := kept_add_lost m e (f.place m e)
  have hpow : (0 : Rat) < 2 ^ (f.place m e - e).toNat := pow_pos two_pos _
  have hlost : (lost m e (f.place m e) : Rat) < 2 ^ (f.place m e - e).toNat := by exact_mod_cast lost_lt m e (f.place m e)
  have hfrac := (div_lt_one hpow).2 hlost
  have hfrac0 : 0 ≤ (lost m e (f.place m e) : Rat) / 2 ^ (f.place m e - e).toNat := by positivity
  have hpos := two_zpow_pos (f.place m e)
  constructor
  · have hle : (kept m e (f.place m e) : Rat) * 2 ^ f.place m e < 2 ^ (f.mb + 1) * 2 ^ f.place m e := by
      rw [← zpow_natCast, ← zpow_add₀ two_ne_zero]
      calc _ ≤ (m : Rat) * 2 ^ e := by rw [hcut]; exact mul_le_mul_of_nonneg_right (le_add_of_nonneg_right hfrac0) hpos.le
        _ < 2 ^ ((m.log2 : Int) + e + 1) := hhi
        _ ≤ _ := zpow_le_zpow_right₀ one_le_two (by unfold Fmt.place; split <;> push_cast <;> omega)
    exact_mod_cast lt_of_mul_lt_mul_right hle hpos.le
  · by_cases htiny : (m.log2 : Int) + e < f.emin
    · left
      unfold Fmt.steps Fmt.place
      rw [if_pos htiny]
      omega
    · right
      have hplace : (m.log2 : Int) + e = f.mb + f.place m e := by
        unfold Fmt.place
        rw [if_neg htiny]
        omega
      rw [hplace, zpow_add₀ two_ne_zero, hcut, zpow_natCast] at hlo
      have hlt : (2 : Rat) ^ f.mb < kept m e (f.place m e) + 1 := (le_of_mul_le_mul_right hlo hpos).trans_lt (by linarith)
      exact Nat.lt_succ_iff.1 (by exact_mod_cast hlt)

omit hm in
/-- Rounding, in terms of the digits that are kept and lost. -/
theorem Fmt.round_eq (c : FCtx) (neg : Bool) :
    let rem := lost m e (f.place m e)
    let n := if roundsUp c.mode neg (kept m e (f.place m e)) rem (f.place m e - e).toNat then kept m e (f.place m e) + 1 else kept m e (f.place m e)
    let k := f.steps m e * 2 ^ f.mb + n
    f.round c neg m e =
      if f.largest < k then (f.signBit neg + (if c.sat then f.largest else f.overflow c.mode neg), fOF + fNX)
      else if f.wide && c.ftz && k != 0 && k < 2 ^ f.mb then (f.signBit neg, fUF + fNX)
      else (f.signBit neg + k, if rem == 0 then 0 else fNX + if (m.log2 : Int) + e < f.emin then fUF else 0) := rfl

/-- A rounding cuts off digits, and its result is that of the magnitude to which the number rounds. -/
theorem Fmt.round_eq_finish (hmb : 1 ≤ f.mb) (c : FCtx) (neg : Bool) :
    ∃ k, f.picks c.mode neg (m * 2 ^ e) k ∧ f.round c neg m e = f.finish c neg (m * 2 ^ e) k := by
  obtain ⟨hlt, hge⟩ := f.kept_lt hm e
  have hcut := kept_add_lost m e (f.place m e)
  have hlost := lost_lt m e (f.place m e)
  have hpos := two_zpow_pos (f.place m e)
  have hmag := f.mag_scaled hlt.le hge
  have hsucc := f.mag_succ_scaled hlt hge
  have hround := f.round_eq (m := m) e c neg
  have htiny := lt_emin_iff hm e f.emin
  have hparity : (f.steps m e * 2 ^ f.mb + kept m e (f.place m e)) % 2 = kept m e (f.place m e) % 2 := by
    obtain ⟨i, hi⟩ := Nat.exists_eq_add_of_le' hmb
    rw [hi, pow_succ, ← mul_assoc]
    omega
  rw [← two_zpow_place] at hmag hsucc
  generalize kept m e (f.place m e) = n, lost m e (f.place m e) = rem, (f.place m e - e).toNat = sh, (2 : Rat) ^ f.place m e = p at *
  have hpow : (0 : Rat) < 2 ^ sh := pow_pos two_pos _
  have hrem : (rem : Rat) < 2 ^ sh := by exact_mod_cast hlost
  have hmid : f.mid (f.steps m e * 2 ^ f.mb + n) = (n + 1 / 2) * p := by
    rw [Fmt.mid, hmag, hsucc]
    ring
  have hexact : f.mag (f.steps m e * 2 ^ f.mb + n) < m * 2 ^ e ↔ rem ≠ 0 := by
    rw [hmag, hcut, mul_lt_mul_iff_left₀ hpos, lt_add_iff_pos_right, div_pos_iff_of_pos_right hpow, Nat.cast_pos, Nat.pos_iff_ne_zero]
  have hlo : f.mag (f.steps m e * 2 ^ f.mb + n) ≤ m * 2 ^ e := by
    rw [hmag, hcut]
    exact mul_le_mul_of_nonneg_right (le_add_of_nonneg_right (by positivity)) hpos.le
  have hhi : (m : Rat) * 2 ^ e < f.mag (f.steps m e * 2 ^ f.mb + n + 1) := by
    rw [hsucc, hcut]
    exact mul_lt_mul_of_pos_right (by linarith [(div_lt_one hpow).2 hrem]) hpos
  have hbelow : f.mid (f.steps m e * 2 ^ f.mb + n) < m * 2 ^ e ↔ 2 ^ sh < 2 * rem := by
    rw [hmid, hcut, mul_lt_mul_iff_left₀ hpos, add_lt_add_iff_left, div_lt_div_iff₀ two_pos hpow, one_mul, mul_comm]
    exact_mod_cast Iff.rfl
  have htie : (m : Rat) * 2 ^ e = f.mid (f.steps m e * 2 ^ f.mb + n) ↔ 2 * rem = 2 ^ sh := by
    rw [hmid, hcut, mul_left_inj' hpos.ne', add_right_inj, div_eq_div_iff hpow.ne' two_ne_zero, one_mul, mul_comm]
    exact_mod_cast Iff.rfl
  have hup := roundsUp_iff c.mode neg n rem sh
  have hpicks := f.picks_of_floor (mode := c.mode) (neg := neg) (roundsUp c.mode neg n rem sh) hlo hhi
    (by rw [hup, hbelow, htie, hexact, hparity])
  refine ⟨_, hpicks, hround.trans ?_⟩
  cases hr : roundsUp c.mode neg n rem sh
  · have hmagx : f.mag (f.steps m e * 2 ^ f.mb + n) = m * 2 ^ e ↔ rem = 0 := by
      rw [← not_iff_not, ← Ne.eq_def rem, ← hexact]
      exact ⟨hlo.lt_of_ne, ne_of_lt⟩
    simp only [Fmt.finish, hmagx, htiny, Bool.false_eq_true, if_false, beq_iff_eq]
  · have hne : rem ≠ 0 := by
      rintro rfl
      have := hup.1 hr
      split at this
      · omega
      · exact this.2 rfl
    simp only [Fmt.finish, htiny, if_true, beq_iff_eq, hne, ← Nat.add_assoc, hhi.ne', if_false]

end

end
end Sys2Proof.Machine

namespace Sys2Proof.Machine

section

/-! ### The five formats -/

/-- What the formats of R84 have in common: a fraction, normal numbers, and room for an encoding beyond the largest. -/
structure Fmt.Regular (f : Fmt) : Prop where
  mb_pos : 1 ≤ f.mb
  normal : 2 ^ f.mb ≤ f.largest
  room : f.largest + 1 < 2 ^ f.magBits

theorem Fmt.regular_of_mem {f : Fmt} (h : f ∈ floatFormats) : f.Regular := by
  simp only [floatFormats, List.mem_cons, List.not_mem_nil, or_false] at h
  rcases h with rfl | rfl | rfl | rfl | rfl <;> constructor <;> decide

theorem regular_fp32 : fp32.Regular := Fmt.regular_of_mem (by decide)

theorem regular_fmtOf (g : Nat) : (fmtOf g).Regular := by
  apply Fmt.regular_of_mem
  unfold fmtOf
  split <;> decide

/-! ### One rounding of one value -/

section
variable {f : Fmt} (c : FCtx)

/-- A rounding depends on the value alone, however it is written. -/
theorem Fmt.round_congr (hmb : 1 ≤ f.mb) {neg neg' : Bool} {m m' : Nat} {e e' : Int} (hm : m ≠ 0) (hm' : m' ≠ 0)
    (h : ratOf neg m e = ratOf neg' m' e') : f.round c neg m e = f.round c neg' m' e' := by
  have hpos : ∀ {m : Nat} {e : Int}, m ≠ 0 → (0 : Rat) < m * 2 ^ e := fun hm => mul_pos (by exact_mod_cast Nat.pos_of_ne_zero hm) (two_zpow_pos _)
  rw [ratOf_eq, ratOf_eq] at h
  obtain rfl : neg = neg' := by
    rw [Bool.eq_iff_iff, ← sgn_mul_neg_iff neg (hpos (e := e) hm), ← sgn_mul_neg_iff neg' (hpos (e := e') hm'), h]
  obtain ⟨k, hk, hround⟩ := f.round_eq_finish hm e hmb c neg
  obtain ⟨k', hk', hround'⟩ := f.round_eq_finish hm' e' hmb c neg
  rw [← (sgn_mul_inj neg).1 h] at hk' hround'
  rw [hround, hround', Fmt.picks_unique hk hk']

/-- A result is a value rounded once when it is one of its representations rounded. -/
theorem Fmt.once_of_round (hmb : 1 ≤ f.mb) {v : Rat} {r : Nat × Nat} {neg : Bool} {m : Nat} {e : Int} (hm : m ≠ 0) (hv : ratOf neg m e = v)
    (hr : r = f.round c neg m e) : f.once c v r := by
  intro neg' m' e' hm' hv'
  rw [hr]
  exact f.round_congr c hmb hm hm' (hv.trans hv'.symm)

end

/-! ### Overflow, flushing and the nearest number (R90, R92) -/

section
variable {f : Fmt} (hf : f.Regular) {neg : Bool} {x : Rat} {k : Nat}

include hf

theorem Fmt.Regular.value_signBit (hk : k ≤ f.largest) : (f.value (f.signBit neg + k)).rat = some (sgn neg * f.mag k) := by
  have hlt : k < 2 ^ f.magBits := by have := hf.room; omega
  have hpos := Nat.two_pow_pos f.magBits
  rw [f.value_rat_iff]
  cases neg
  · simp [Fmt.signBit, Nat.mod_eq_of_lt hlt, Nat.div_eq_of_lt hlt, hk]
  · simp [Fmt.signBit, Nat.mod_eq_of_lt hlt, Nat.add_div_left _ hpos, Nat.div_eq_of_lt hlt, hk]

theorem Fmt.Regular.greatest_eq : f.greatest = f.mag f.largest := by
  have h := hf.value_signBit (neg := false) le_rfl
  rw [show f.signBit false = 0 from rfl, Nat.zero_add] at h
  rw [Fmt.greatest, h]
  simp [sgn]

theorem Fmt.Regular.spacing_eq : f.greatest + f.spacing = f.mag (f.largest + 1) := by
  have hpos : 0 < 2 ^ f.mb := Nat.two_pow_pos _
  obtain ⟨t, n, hn, ht, hk⟩ := f.exists_scaled f.largest
  have hnormal := hf.normal
  have hdouble : 2 ^ (f.mb + 1) = 2 * 2 ^ f.mb := pow_succ' ..
  have hge : 2 ^ f.mb ≤ n := ht.elim (fun h => by subst h; omega) id
  obtain ⟨r, rfl⟩ := Nat.exists_eq_add_of_le hge
  have hdiv : f.largest / 2 ^ f.mb = t + 1 := by
    rw [hk, show t * 2 ^ f.mb + (2 ^ f.mb + r) = r + 2 ^ f.mb * (t + 1) by ring, Nat.add_mul_div_left _ _ hpos,
      Nat.div_eq_of_lt (by omega), Nat.zero_add]
  have hspacing : f.spacing = 2 ^ t * f.unit := by
    rw [Fmt.spacing, hdiv, Fmt.unit, Fmt.emin, ← zpow_natCast, ← zpow_add₀ two_ne_zero]
    congr 1
    push_cast
    ring
  rw [hf.greatest_eq, hspacing]
  rw [hk, f.mag_scaled hn.le ht, f.mag_succ_scaled hn ht]
  ring

omit hf in
theorem away_iff {mode : Nat} (hmode : mode ≤ 3) (hx : 0 < x) :
    (mode = 2 ∧ 0 < sgn neg * x ∨ mode = 3 ∧ sgn neg * x < 0) ↔ away mode neg = true := by
  rw [sgn_mul_pos_iff neg hx, sgn_mul_neg_iff neg hx]
  have : mode = 0 ∨ mode = 1 ∨ mode = 2 ∨ mode = 3 := by omega
  rcases this with rfl | rfl | rfl | rfl <;> simp [away]

/-- A number overflows exactly when it rounds to a magnitude beyond the largest. -/
theorem Fmt.Regular.overflows_iff {mode : Nat} (hmode : mode ≤ 3) (hx : 0 < x) (hk : f.picks mode neg x k) :
    f.overflows mode (sgn neg * x) ↔ f.largest < k := by
  have hhalf : f.greatest + f.spacing / 2 = f.mid f.largest := by
    have := hf.spacing_eq
    rw [hf.greatest_eq] at this ⊢
    unfold Fmt.mid
    linarith
  unfold Fmt.overflows
  rw [abs_sgn_mul, abs_of_pos hx, hhalf, hf.spacing_eq, hf.greatest_eq]
  simp only [away_iff hmode hx]
  by_cases h0 : mode = 0
  · rw [if_pos h0]
    rw [Fmt.picks, if_pos h0] at hk
    obtain ⟨hlow, hhigh, htie⟩ := hk
    constructor
    · intro h
      by_contra hle
      have hmid : f.mid k ≤ f.mid f.largest := f.mid_strictMono.monotone (by omega)
      rcases h with h | ⟨h, hodd⟩
      · exact absurd (hhigh.trans hmid) (not_le.2 h)
      · have hkl : k = f.largest := by
          have := f.mid_strictMono.le_iff_le.1 (h.ge.trans hhigh)
          omega
        have := htie (hmid.trans h.ge)
        omega
    · intro h
      obtain ⟨j, rfl⟩ : ∃ j, k = j + 1 := ⟨k - 1, by omega⟩
      obtain ⟨hge, heven⟩ := hlow j rfl
      have hmid : f.mid f.largest ≤ f.mid j := f.mid_strictMono.monotone (by omega)
      rcases (hmid.trans hge).lt_or_eq with hlt | heq
      · exact .inl hlt
      · have hjl : j = f.largest := by
          have := f.mid_strictMono.le_iff_le.1 (hge.trans heq.ge)
          omega
        have := heven (heq.ge.trans hmid)
        exact .inr ⟨heq.symm, by omega⟩
  · rw [if_neg h0]
    split
    · rw [Fmt.picks, if_neg h0, if_pos ‹_›] at hk
      obtain ⟨hlow, hhigh⟩ := hk
      constructor
      · exact fun h => f.mag_strictMono.lt_iff_lt.1 (h.trans_le hhigh)
      · intro h
        obtain ⟨j, rfl⟩ : ∃ j, k = j + 1 := ⟨k - 1, by omega⟩
        exact (f.mag_strictMono.monotone (by omega)).trans_lt (not_le.1 (hlow j rfl))
    · constructor
      · exact fun h => Fmt.picks_ge hk h
      · rw [Fmt.picks, if_neg h0, if_neg ‹_›] at hk
        exact fun h => (f.mag_strictMono.monotone h).trans hk.1

omit hf in
/-- The nearest magnitude is the nearest number, and another that is as near has a magnitude of the other parity. -/
theorem Fmt.nearest_of_picks (hk : f.picks 0 neg x k) (j : Nat) :
    |f.mag k - x| < |f.mag j - x| ∨ |f.mag k - x| = |f.mag j - x| ∧ (f.mag j = f.mag k ∨ k % 2 = 0) := by
  rw [Fmt.picks, if_pos rfl] at hk
  obtain ⟨hlow, hhigh, htie⟩ := hk
  rcases Nat.lt_trichotomy j k with hjk | rfl | hjk
  · obtain ⟨i, rfl⟩ : ∃ i, k = i + 1 := ⟨k - 1, by omega⟩
    obtain ⟨hge, heven⟩ := hlow i rfl
    have hji : f.mag j ≤ f.mag i := f.mag_strictMono.monotone (by omega)
    have hmid : f.mid i = (f.mag i + f.mag (i + 1)) / 2 := rfl
    have hi := f.mag_lt_mid i
    rw [abs_of_nonpos (a := f.mag j - x) (by linarith)]
    rcases hge.lt_or_eq with hlt | heq
    · left
      rw [abs_lt]
      constructor <;> linarith [f.mag_lt_succ i]
    · rcases hji.lt_or_eq with hlt | heq'
      · left
        rw [abs_lt]
        constructor <;> linarith
      · right
        refine ⟨?_, .inr (heven heq.ge)⟩
        rw [abs_of_nonneg (by linarith [f.mid_lt_mag i])]
        linarith
  · exact .inr ⟨rfl, .inl rfl⟩
  · have hkj : f.mag (k + 1) ≤ f.mag j := f.mag_strictMono.monotone hjk
    have hmid : f.mid k = (f.mag k + f.mag (k + 1)) / 2 := rfl
    have hk := f.mid_lt_mag k
    rw [abs_of_nonneg (a := f.mag j - x) (by linarith)]
    rcases hhigh.lt_or_eq with hlt | heq
    · left
      rw [abs_lt]
      constructor <;> linarith [f.mag_lt_succ k]
    · rcases hkj.lt_or_eq with hlt | heq'
      · left
        rw [abs_lt]
        constructor <;> linarith
      · right
        refine ⟨?_, .inr (htie heq.ge)⟩
        rw [abs_of_nonpos (by linarith [f.mag_lt_mid k])]
        linarith

omit hf in
/-- The next magnitude away from zero, for numbers of either sign. -/
theorem Fmt.away_of_picks {mode : Nat} (h0 : mode ≠ 0) (haway : away mode neg = true) (hx : 0 < x) (hk : f.picks mode neg x k) :
    x ≤ f.mag k ∧ ∀ n j, x ≤ sgn n * f.mag j → f.mag k ≤ sgn n * f.mag j := by
  constructor
  · rw [Fmt.picks, if_neg h0, if_pos haway] at hk
    exact hk.2
  · intro n j hj
    cases n
    · rw [sgn, if_neg Bool.false_ne_true, one_mul] at hj ⊢
      exact f.mag_strictMono.monotone (Fmt.picks_le hk hj)
    · rw [sgn, if_pos rfl] at hj
      linarith [f.mag_nonneg j]

omit hf in
/-- The next magnitude toward zero, for numbers of either sign. -/
theorem Fmt.toward_of_picks {mode : Nat} (h0 : mode ≠ 0) (haway : away mode neg = false) (hk : f.picks mode neg x k) :
    f.mag k ≤ x ∧ ∀ n j, sgn n * f.mag j ≤ x → sgn n * f.mag j ≤ f.mag k := by
  constructor
  · rw [Fmt.picks, if_neg h0, if_neg (Bool.eq_false_iff.1 haway)] at hk
    exact hk.1
  · intro n j hj
    cases n
    · rw [sgn, if_neg Bool.false_ne_true, one_mul] at hj ⊢
      exact f.mag_strictMono.monotone (Fmt.picks_ge hk hj)
    · rw [sgn, if_pos rfl]
      linarith [f.mag_nonneg j, f.mag_nonneg k]

omit hf in
/-- A finite number is a magnitude's number with a sign. -/
theorem Fmt.exists_sgn_mag {y : Nat} {u : Rat} (h : (f.value y).rat = some u) : ∃ n j, u = sgn n * f.mag j :=
  ⟨_, _, ((f.value_rat_iff y u).1 h).2.symm⟩

omit hf in
/-- A number of the other sign is farther than zero. -/
theorem abs_sgn_sub (n n' : Bool) {y : Rat} (hx : 0 < x) (hy : 0 ≤ y) :
    |sgn n' * y - sgn n * x| = |y - x| ∧ sgn n' * y = sgn n * y ∨ x < |sgn n' * y - sgn n * x| := by
  by_cases hn : n' = n
  · subst hn
    rw [← mul_sub, abs_sgn_mul]
    exact .inl ⟨rfl, rfl⟩
  · obtain rfl : n' = !n := by revert hn; cases n <;> cases n' <;> decide
    rw [sgn_not, neg_mul, show -(sgn n * y) - sgn n * x = sgn n * -(y + x) by ring, abs_sgn_mul, abs_neg, abs_of_pos (by linarith)]
    rcases hy.lt_or_eq with hlt | rfl
    · exact .inr (by linarith)
    · exact .inl ⟨by rw [zero_sub, abs_neg, zero_add, abs_of_pos hx], by rw [mul_zero, neg_zero]⟩

theorem Fmt.Regular.parity_signBit : (f.signBit neg + k) % 2 = k % 2 := by
  have hmag : f.magBits = f.magBits - 1 + 1 := by
    have := hf.mb_pos
    unfold Fmt.magBits
    omega
  unfold Fmt.signBit
  split
  · rw [hmag, pow_succ]
    omega
  · rw [Nat.zero_add]

/-- The magnitude to which a number rounds is, with its sign, the number rounded. -/
theorem Fmt.Regular.rounded_of_picks {mode : Nat} (hx : 0 < x) (hk : f.picks mode neg x k) (hle : k ≤ f.largest) :
    f.rounded mode (sgn neg * x) (f.signBit neg + k) := by
  refine ⟨_, hf.value_signBit hle, ?_, ?_, ?_, ?_⟩
  · rintro rfl y u hu
    obtain ⟨n, j, rfl⟩ := Fmt.exists_sgn_mag hu
    rw [hf.parity_signBit, ← mul_sub, abs_sgn_mul]
    rcases abs_sgn_sub neg n hx (f.mag_nonneg j) with ⟨habs, heq⟩ | hfar
    · rw [habs, heq, sgn_mul_inj]
      exact Fmt.nearest_of_picks hk j
    · left
      have hzero : |f.mag k - x| ≤ |f.mag 0 - x| := (Fmt.nearest_of_picks hk 0).elim le_of_lt fun h => h.1.le
      rw [f.mag_zero, zero_sub, abs_neg, abs_of_pos hx] at hzero
      exact hzero.trans_lt hfar
  · rintro rfl
    obtain ⟨hlow, hmax⟩ := Fmt.toward_of_picks one_ne_zero rfl hk
    rw [abs_sgn_mul, abs_sgn_mul, abs_of_nonneg (f.mag_nonneg k), abs_of_pos hx]
    refine ⟨hlow, fun y u hu hle => ?_⟩
    obtain ⟨n, j, rfl⟩ := Fmt.exists_sgn_mag hu
    rw [abs_sgn_mul, abs_of_nonneg (f.mag_nonneg j)] at hle ⊢
    simpa [sgn] using hmax false j (by simpa [sgn] using hle)
  · rintro rfl
    cases neg
    · obtain ⟨hlow, hmin⟩ := Fmt.away_of_picks two_ne_zero rfl hx hk
      rw [sgn, if_neg Bool.false_ne_true, one_mul, one_mul]
      refine ⟨hlow, fun y u hu hle => ?_⟩
      obtain ⟨n, j, rfl⟩ := Fmt.exists_sgn_mag hu
      exact hmin n j hle
    · obtain ⟨hlow, hmax⟩ := Fmt.toward_of_picks two_ne_zero rfl hk
      rw [sgn, if_pos rfl, neg_one_mul, neg_one_mul]
      refine ⟨neg_le_neg hlow, fun y u hu hle => ?_⟩
      obtain ⟨n, j, rfl⟩ := Fmt.exists_sgn_mag hu
      have := hmax (!n) j (by rw [sgn_not]; linarith)
      rw [sgn_not] at this
      linarith
  · rintro rfl
    cases neg
    · obtain ⟨hlow, hmax⟩ := Fmt.toward_of_picks three_ne_zero rfl hk
      rw [sgn, if_neg Bool.false_ne_true, one_mul, one_mul]
      refine ⟨hlow, fun y u hu hle => ?_⟩
      obtain ⟨n, j, rfl⟩ := Fmt.exists_sgn_mag hu
      exact hmax n j hle
    · obtain ⟨hlow, hmin⟩ := Fmt.away_of_picks three_ne_zero rfl hx hk
      rw [sgn, if_pos rfl, neg_one_mul, neg_one_mul]
      refine ⟨neg_le_neg hlow, fun y u hu hle => ?_⟩
      obtain ⟨n, j, rfl⟩ := Fmt.exists_sgn_mag hu
      have := hmin (!n) j (by rw [sgn_not]; linarith)
      rw [sgn_not] at this
      linarith

/-! ### The result of a rounding -/

omit hf in
theorem signBit_div (hk : k < 2 ^ f.magBits) : (f.signBit neg + k) / 2 ^ f.magBits = neg.toNat := by
  cases neg
  · simp [Fmt.signBit, Nat.div_eq_of_lt hk]
  · simp [Fmt.signBit, Nat.add_div_left _ (Nat.two_pow_pos _), Nat.div_eq_of_lt hk]

omit hf in
theorem signBit_mod (hk : k < 2 ^ f.magBits) : (f.signBit neg + k) % 2 ^ f.magBits = k := by
  cases neg
  · simp [Fmt.signBit, Nat.mod_eq_of_lt hk]
  · simp [Fmt.signBit, Nat.mod_eq_of_lt hk]

omit hf in
/-- The infinity or the greatest number of an overflow (R90), in the statements' words. -/
theorem Fmt.overflow_eq {mode : Nat} (hmode : mode ≤ 3) : f.overflow mode neg = if f.inf = false then f.largest + 1
    else if mode = 0 ∨ (mode = 2 ∧ neg = false) ∨ (mode = 3 ∧ neg = true) then f.infBits else f.largest := by
  unfold Fmt.overflow
  cases f.inf
  · rfl
  · have : mode = 0 ∨ mode = 1 ∨ mode = 2 ∨ mode = 3 := by omega
    rcases this with rfl | rfl | rfl | rfl <;> cases neg <;> rfl

omit hf in
theorem Fmt.overflow_cases (f : Fmt) (mode : Nat) (neg : Bool) : f.overflow mode neg = f.largest ∨ f.overflow mode neg = f.largest + 1 := by
  unfold Fmt.overflow Fmt.infBits
  split
  · exact .inr rfl
  · split
    · exact .inr rfl
    · exact .inl rfl
    all_goals cases neg <;> simp

/-- The result of an overflow is no subnormal number. -/
theorem Fmt.Regular.subnormal_overflow (sat : Bool) (mode : Nat) :
    f.subnormal (f.signBit neg + if sat then f.largest else f.overflow mode neg) = false := by
  have hroom := hf.room
  have hnormal := hf.normal
  have hcases := f.overflow_cases mode neg
  generalize f.overflow mode neg = z at hcases
  rw [← Bool.not_eq_true, subnormal_iff, signBit_mod (by split <;> omega)]
  split <;> omega

/-- A subnormal result gives way to a zero under FTZ (R92). -/
theorem Fmt.Regular.finish_eq (c : FCtx) : f.finish c neg x k =
    if c.ftz && f.wide && f.subnormal (f.finish { c with ftz := false } neg x k).1 then (f.signBit neg, fUF + fNX)
    else f.finish { c with ftz := false } neg x k := by
  have hroom := hf.room
  unfold Fmt.finish
  by_cases hover : f.largest < k
  · simp only [if_pos hover, hf.subnormal_overflow, Bool.and_false, Bool.false_eq_true, if_false]
  · have hsub : f.subnormal (f.signBit neg + k) = (k != 0 && decide (k < 2 ^ f.mb)) := by
      rw [Bool.eq_iff_iff, subnormal_iff, signBit_mod (by omega), Bool.and_eq_true, bne_iff_ne, decide_eq_true_iff]
    simp only [if_neg hover, Bool.and_false, Bool.false_and, Bool.false_eq_true, if_false, hsub, ← Bool.and_assoc, Bool.and_comm c.ftz]

omit hf in
/-- What an overflow leaves, under any flushing (R90). -/
theorem Fmt.finish_overflow {c : FCtx} (hmode : c.mode ≤ 3) (h : f.largest < k) : f.finish c neg x k = (f.signBit neg + (if c.sat then f.largest
    else if f.inf = false then f.largest + 1
    else if c.mode = 0 ∨ (c.mode = 2 ∧ neg = false) ∨ (c.mode = 3 ∧ neg = true) then f.infBits else f.largest), fOF + fNX) := by
  rw [Fmt.finish, if_pos h, Fmt.overflow_eq hmode]

omit hf in
/-- What a rounding within the finite numbers leaves, without flushing. -/
theorem Fmt.finish_finite {c : FCtx} (hftz : c.ftz = false) (h : ¬ f.largest < k) :
    f.finish c neg x k = (f.signBit neg + k, if f.mag k = x then 0 else fNX + if x < 2 ^ f.emin then fUF else 0) := by
  rw [Fmt.finish, if_neg h, hftz, Bool.and_false, Bool.false_and, Bool.false_and, if_neg Bool.false_ne_true]

/-- The encoding and the flags of a number within the finite ones, as the statements read them (R90, R93). -/
theorem Fmt.Regular.finish_rounded {c : FCtx} (hftz : c.ftz = false) (hx : 0 < x) (hk : f.picks c.mode neg x k) (h : ¬ f.largest < k) :
    let r := f.finish c neg x k
    f.rounded c.mode (sgn neg * x) r.1 ∧ r.1 / 2 ^ f.magBits = neg.toNat ∧
      r.2 = if (f.value r.1).rat = some (sgn neg * x) then 0 else fNX + if |sgn neg * x| < (2 : Rat) ^ f.emin then fUF else 0 := by
  have hroom := hf.room
  intro r
  have hr : r = _ := f.finish_finite hftz h
  have hexact : (f.value (f.signBit neg + k)).rat = some (sgn neg * x) ↔ f.mag k = x := by
    rw [hf.value_signBit (not_lt.1 h), Option.some.injEq, sgn_mul_inj]
  rw [hr, abs_sgn_mul, abs_of_pos hx]
  exact ⟨hf.rounded_of_picks hx hk (not_lt.1 h), signBit_div (by omega), (if_congr hexact rfl rfl).symm⟩

/-- A finished rounding is the value rounded once. -/
theorem Fmt.Regular.rounds_finish {c : FCtx} (hmode : c.mode ≤ 3) (hx : 0 < x) (hk : f.picks c.mode neg x k) :
    f.rounds c (sgn neg * x) (f.finish c neg x k) := by
  have hneg : decide (sgn neg * x < 0) = neg := by
    rw [Bool.eq_iff_iff, decide_eq_true_iff, sgn_mul_neg_iff neg hx]
  unfold Fmt.rounds
  dsimp only
  rw [hneg, hf.overflows_iff hmode hx hk]
  exact ⟨_, hf.finish_eq c, fun h => Fmt.finish_overflow (c := { c with ftz := false }) hmode h,
    fun h => hf.finish_rounded (c := { c with ftz := false }) rfl hx hk h⟩

end

/-- R90, R92 and R93 of a rounding. -/
theorem Fmt.Regular.round_spec {f : Fmt} (hf : f.Regular) (c : FCtx) (neg : Bool) {m : Nat} (e : Int) (hm : m ≠ 0) (hmode : c.mode ≤ 3) :
    let v := ratOf neg m e
    let r := f.round c neg m e
    let p := f.round { c with ftz := false } neg m e
    (c.ftz = true → r = if f.wide && f.subnormal p.1 then (f.signBit neg, fUF + fNX) else p) ∧
    (c.ftz = false → f.overflows c.mode v → r = (f.signBit neg + (if c.sat then f.largest
      else if f.inf = false then f.largest + 1
      else if c.mode = 0 ∨ (c.mode = 2 ∧ neg = false) ∨ (c.mode = 3 ∧ neg = true) then f.infBits else f.largest), fOF + fNX)) ∧
    (c.ftz = false → ¬ f.overflows c.mode v → f.rounded c.mode v r.1 ∧ r.1 / 2 ^ f.magBits = neg.toNat ∧
      r.2 = if (f.value r.1).rat = some v then 0 else fNX + if |v| < (2 : Rat) ^ f.emin then fUF else 0) := by
  intro v r p
  have hx : (0 : Rat) < m * 2 ^ e := mul_pos (by exact_mod_cast Nat.pos_of_ne_zero hm) (two_zpow_pos e)
  obtain ⟨k, hk, hr⟩ : ∃ k, f.picks c.mode neg (m * 2 ^ e) k ∧ r = f.finish c neg (m * 2 ^ e) k := f.round_eq_finish hm e hf.mb_pos c neg
  obtain ⟨l, hl, hp⟩ : ∃ l, f.picks c.mode neg (m * 2 ^ e) l ∧ p = f.finish { c with ftz := false } neg (m * 2 ^ e) l :=
    f.round_eq_finish hm e hf.mb_pos { c with ftz := false } neg
  obtain rfl := Fmt.picks_unique hk hl
  have hv : v = sgn neg * (m * 2 ^ e) := ratOf_eq ..
  rw [hv, hf.overflows_iff hmode hx hk, hr]
  refine ⟨fun hftz => ?_, fun _ h => Fmt.finish_overflow hmode h, fun hftz h => hf.finish_rounded hftz hx hk h⟩
  rw [hf.finish_eq, ← hp, hftz, Bool.true_and]

/-- A rounding is its value rounded once. -/
theorem Fmt.Regular.rounds_round {f : Fmt} (hf : f.Regular) {c : FCtx} (neg : Bool) {m : Nat} (e : Int) (hm : m ≠ 0) (hmode : c.mode ≤ 3) :
    f.rounds c (ratOf neg m e) (f.round c neg m e) := by
  have hx : (0 : Rat) < m * 2 ^ e := mul_pos (by exact_mod_cast Nat.pos_of_ne_zero hm) (two_zpow_pos e)
  obtain ⟨k, hk, hr⟩ := f.round_eq_finish hm e hf.mb_pos c neg
  rw [hr, ratOf_eq]
  exact hf.rounds_finish hmode hx hk

end
end Sys2Proof.Machine

namespace Sys2Proof.Machine

section

/-! ### Exact sums and products (R99, R102) -/

/-- The rational number that an exact result is, where it is one. -/
def Exact.rat : Exact → Option Rat
  | .num neg m e => some (ratOf neg m e)
  | _ => none

theorem FVal.rat_eq_some {x : FVal} {p : Rat} (h : x.rat = some p) : ∃ n m e, x = .fin n m e ∧ ratOf n m e = p := by
  cases x with
  | fin n m e => exact ⟨n, m, e, rfl, Option.some.inj h⟩
  | _ => cases h

theorem Exact.rat_eq_some {x : Exact} {p : Rat} (h : x.rat = some p) : ∃ n m e, x = .num n m e ∧ ratOf n m e = p := by
  cases x with
  | num n m e => exact ⟨n, m, e, rfl, Option.some.inj h⟩
  | _ => cases h

theorem FVal.isNan_of_rat {x : FVal} {p : Rat} (h : x.rat = some p) : x.isNan = false := by
  obtain ⟨n, m, e, rfl, -⟩ := FVal.rat_eq_some h
  rfl

theorem FVal.rat_exact {x : FVal} {p : Rat} (h : x.rat = some p) : x.exact.rat = some p := by
  obtain ⟨n, m, e, rfl, hp⟩ := FVal.rat_eq_some h
  exact congrArg some hp

theorem FVal.rat_negate {x : FVal} {p : Rat} (h : x.rat = some p) : x.negate.rat = some (-p) := by
  obtain ⟨n, m, e, rfl, rfl⟩ := FVal.rat_eq_some h
  exact congrArg some (by rw [ratOf_eq, ratOf_eq, sgn_not, neg_mul])

theorem ratOf_zero_iff {n : Bool} {m : Nat} {e : Int} : ratOf n m e = 0 ↔ m = 0 := by
  rw [ratOf_eq, mul_eq_zero, mul_eq_zero, Nat.cast_eq_zero]
  have hs : sgn n ≠ 0 := by cases n <;> simp [sgn]
  simp [hs, (two_zpow_pos e).ne']

theorem rat_mulExact {x y : FVal} {p q : Rat} (hx : x.rat = some p) (hy : y.rat = some q) : (mulExact x y).rat = some (p * q) := by
  obtain ⟨n, m, e, rfl, rfl⟩ := FVal.rat_eq_some hx
  obtain ⟨n', m', e', rfl, rfl⟩ := FVal.rat_eq_some hy
  refine congrArg some ?_
  rw [ratOf_eq, ratOf_eq, ratOf_eq, sgn_xor, zpow_add₀ two_ne_zero]
  push_cast
  ring

/-- A number at or above a place is a multiple of that place. -/
theorem toScale_mul (neg : Bool) (m : Nat) {e e0 : Int} (h : e0 ≤ e) : (toScale neg m e e0 : Rat) * 2 ^ e0 = ratOf neg m e := by
  have hpow : (2 : Rat) ^ e = 2 ^ (e - e0).toNat * 2 ^ e0 := by
    rw [← zpow_natCast, ← zpow_add₀ two_ne_zero, Int.toNat_of_nonneg (by omega), sub_add_cancel]
  rw [ratOf_eq, hpow, toScale]
  cases neg <;> simp [sgn, mul_assoc]

/-- A place, or that of a term that is not zero, where it is lower. -/
def lowerPlace (a : Int) : Exact → Int
  | .num _ m e => if m != 0 && e < a then e else a
  | _ => a

/-- The least place of the terms of a sum that are not zero, and of a bound. -/
def sumPlace (ts : List Exact) (a : Int) : Int := ts.foldl lowerPlace a

/-- The sum of the terms in units of a place, added to a number. -/
def sumUnits (ts : List Exact) (e0 a : Int) : Int :=
  ts.foldl (fun (acc : Int) t => match t with | .num n m e => if m == 0 then acc else acc + toScale n m e e0 | _ => acc) a

/-- The sign of a zero sum (R90). -/
def zeroSumNeg (mode : Nat) (ts : List Exact) : Bool :=
  let allNeg := ts.all fun t => match t with | .num n m _ => n && m == 0 | _ => false
  let allPos := ts.all fun t => match t with | .num n m _ => !n && m == 0 | _ => false
  if allNeg then true else if allPos then false else mode == 3

theorem lowerPlace_le (a : Int) (t : Exact) : lowerPlace a t ≤ a ∧ ∀ n m e, t = .num n m e → m ≠ 0 → lowerPlace a t ≤ e := by
  cases t with
  | num n m e =>
    by_cases hm : m = 0
    · subst hm
      exact ⟨le_rfl, fun _ _ _ h hm => absurd (Exact.num.inj h).2.1.symm hm⟩
    · have hlower : lowerPlace a (.num n m e) = if e < a then e else a := by simp [lowerPlace, hm]
      rw [hlower]
      constructor
      · split <;> omega
      · intro n' m' e' h _
        obtain ⟨-, -, rfl⟩ := Exact.num.inj h
        split <;> omega
  | _ => exact ⟨le_rfl, fun _ _ _ h => Exact.noConfusion h⟩

theorem sumPlace_le (ts : List Exact) (a : Int) : sumPlace ts a ≤ a ∧ ∀ n m e, Exact.num n m e ∈ ts → m ≠ 0 → sumPlace ts a ≤ e := by
  induction ts generalizing a with
  | nil => exact ⟨le_rfl, fun _ _ _ h => absurd h List.not_mem_nil⟩
  | cons t ts ih =>
    obtain ⟨hle, hmem⟩ := ih (lowerPlace a t)
    obtain ⟨hbound, hplace⟩ := lowerPlace_le a t
    refine ⟨hle.trans hbound, fun n m e h hm => ?_⟩
    rcases List.mem_cons.1 h with rfl | h
    · exact hle.trans (hplace n m e rfl hm)
    · exact hmem n m e h hm

/-- The terms are numbers, and these are their values. -/
def areNums (ts : List Exact) (vs : List Rat) : Prop := List.Forall₂ (fun t v => t.rat = some v) ts vs

theorem sumUnits_mul {ts : List Exact} {vs : List Rat} (h : areNums ts vs) {e0 : Int}
    (hplace : ∀ n m e, Exact.num n m e ∈ ts → m ≠ 0 → e0 ≤ e) (a : Int) : (sumUnits ts e0 a : Rat) * 2 ^ e0 = a * 2 ^ e0 + vs.sum := by
  induction h generalizing a with
  | nil => simp [sumUnits]
  | @cons t v ts vs ht _ ih =>
    obtain ⟨n, m, e, rfl, rfl⟩ := Exact.rat_eq_some ht
    have hstep : sumUnits (.num n m e :: ts) e0 a = sumUnits ts e0 (if m == 0 then a else a + toScale n m e e0) := rfl
    rw [hstep, ih (fun n m e h => hplace n m e (List.mem_cons_of_mem _ h)), List.sum_cons]
    by_cases hm : m = 0
    · subst hm
      simp [ratOf]
    · rw [if_neg (by simpa using hm), Int.cast_add, add_mul, toScale_mul n m (hplace n m e (List.mem_cons_self ..) hm), add_assoc]

theorem any_eq_false_of_nums {ts : List Exact} {vs : List Rat} (h : areNums ts vs) {x : Exact} (hx : x.rat = none) : ts.any (· == x) = false := by
  induction h with
  | nil => rfl
  | cons ht _ ih =>
    rw [List.any_cons, ih, Bool.or_false, beq_eq_false_iff_ne]
    rintro rfl
    rw [hx] at ht
    cases ht

/-- A sum of numbers is the sum in units of the least place. -/
theorem sumExact_of_nums {ts : List Exact} {vs : List Rat} (h : areNums ts vs) (mode : Nat) :
    let s := sumUnits ts (sumPlace ts 4096) 0
    sumExact mode ts = if s == 0 then .num (zeroSumNeg mode ts) 0 0 else .num (s < 0) s.natAbs (sumPlace ts 4096) := by
  unfold sumExact
  rw [any_eq_false_of_nums h rfl, any_eq_false_of_nums h rfl, any_eq_false_of_nums h rfl]
  rfl

theorem ratOf_natAbs (s e : Int) : ratOf (s < 0) s.natAbs e = s * 2 ^ e := by
  rw [ratOf_eq, ← mul_assoc]
  congr 1
  rw [Nat.cast_natAbs]
  rcases lt_or_ge s 0 with h | h
  · simp [sgn, h, abs_of_neg h]
  · simp [sgn, not_lt.2 h, abs_of_nonneg h]

theorem rat_sumExact {ts : List Exact} {vs : List Rat} (h : areNums ts vs) (mode : Nat) : (sumExact mode ts).rat = some vs.sum := by
  have hsum := sumUnits_mul h (sumPlace_le ts 4096).2 0
  rw [Int.cast_zero, zero_mul, zero_add] at hsum
  rw [sumExact_of_nums h, ← hsum]
  split
  · rename_i hs
    rw [beq_iff_eq.1 hs]
    simp [Exact.rat, ratOf]
  · exact congrArg some (ratOf_natAbs _ _)

theorem exists_nonzero_term {ts : List Exact} {vs : List Rat} (h : areNums ts vs) {v : Rat} (hv : v ∈ vs) (hne : v ≠ 0) :
    ∃ n m e, Exact.num n m e ∈ ts ∧ m ≠ 0 := by
  induction h with
  | nil => cases hv
  | @cons t u ts vs ht _ ih =>
    rcases List.mem_cons.1 hv with rfl | hv
    · obtain ⟨n, m, e, rfl, rfl⟩ := Exact.rat_eq_some ht
      exact ⟨n, m, e, List.mem_cons_self .., mt ratOf_zero_iff.2 hne⟩
    · obtain ⟨n, m, e, hmem, hm⟩ := ih hv
      exact ⟨n, m, e, List.mem_cons_of_mem _ hmem, hm⟩

/-- Terms that cancel give the zero of the mode (R90). -/
theorem sumExact_cancels {ts : List Exact} {vs : List Rat} (h : areNums ts vs) (mode : Nat) (hsum : vs.sum = 0) {v : Rat} (hv : v ∈ vs) (hne : v ≠ 0) :
    sumExact mode ts = .num (mode == 3) 0 0 := by
  have hzero := sumUnits_mul h (sumPlace_le ts 4096).2 0
  rw [Int.cast_zero, zero_mul, zero_add, hsum, mul_eq_zero, Int.cast_eq_zero] at hzero
  obtain ⟨n, m, e, hmem, hm⟩ := exists_nonzero_term h hv hne
  have hall : ∀ p : Bool → Bool, (ts.all fun t => match t with | .num n m _ => p n && m == 0 | _ => false) = false := fun p => by
    rw [List.all_eq_false]
    exact ⟨_, hmem, by simp [hm]⟩
  rw [sumExact_of_nums h, if_pos (beq_iff_eq.2 (hzero.resolve_right (two_zpow_pos _).ne'))]
  have hneg := hall id
  have hpos := hall not
  dsimp only [id] at hneg
  rw [zeroSumNeg, hneg, hpos]
  rfl

/-! ### Delivering an exact result -/

section
variable {f : Fmt} (hmb : 1 ≤ f.mb) (c : FCtx) (ops : List FVal) {x : Exact} {v : Rat}

theorem Fmt.deliver_num (f : Fmt) {n : Bool} {m : Nat} (e : Int) (hm : m ≠ 0) : f.deliver c ops (.num n m e) = f.round c n m e :=
  if_neg (by simpa using hm)

include hmb in
theorem Fmt.once_deliver (hx : x.rat = some v) (hv : v ≠ 0) : f.once c v (f.deliver c ops x) := by
  obtain ⟨n, m, e, rfl, rfl⟩ := Exact.rat_eq_some hx
  have hm : m ≠ 0 := mt ratOf_zero_iff.2 hv
  exact f.once_of_round c hmb hm rfl (f.deliver_num c ops e hm)

theorem Fmt.apply_of_rat (f : Fmt) (x : Exact) (h : ∀ y ∈ ops, y.isNan = false) : f.apply c ops x = f.deliver c ops x := by
  rw [Fmt.apply, if_neg]
  rw [List.any_eq_true]
  rintro ⟨y, hy, hnan⟩
  rw [h y hy] at hnan
  cases hnan

end

end
end Sys2Proof.Machine

namespace Sys2Proof.Machine

section

/-! ### Sums, products and sums of products round once (R99, R102) -/

section
variable {f : Fmt} (hmb : 1 ≤ f.mb) {c : FCtx}

include hmb in
/-- A sum of products and an addend, all of them numbers, rounds once. -/
theorem once_fDot {ops : List FVal} {pairs : List (FVal × FVal)} {vs : List Rat} {addend : FVal} {z : Rat}
    (hops : ∀ y ∈ ops, y.isNan = false) (hpairs : List.Forall₂ (fun p v => (mulExact p.1 p.2).rat = some v) pairs vs)
    (hz : addend.rat = some z) (hv : vs.sum + z ≠ 0) : f.once c (vs.sum + z) (fDot f c ops pairs addend) := by
  have hnan : ops.any FVal.isNan = false := List.any_eq_false.2 fun y hy => by simp [hops y hy]
  have hnums : areNums (pairs.map (fun p => mulExact p.1 p.2) ++ [addend.exact]) (vs ++ [z]) :=
    List.rel_append (List.forall₂_map_left_iff.2 hpairs) (.cons (FVal.rat_exact hz) .nil)
  have hsum := rat_sumExact hnums c.mode
  rw [List.sum_append, List.sum_singleton] at hsum
  rw [fDot, hnan]
  exact Fmt.once_deliver hmb c ops hsum hv

/-- An operation on two operands that are no NaN delivers its exact result. -/
theorem apply_pair (f : Fmt) (c : FCtx) {x y : FVal} (hx : x.isNan = false) (hy : y.isNan = false) (z : Exact) :
    f.apply c [x, y] z = f.deliver c [x, y] z :=
  f.apply_of_rat c _ z (by simp [hx, hy])

section
variable {a b : Nat} {x y : FVal} (hx : c.operand f a = x) (hy : c.operand f b = y) (hxn : x.isNan = false) (hyn : y.isNan = false)

include hx hy hxn hyn

theorem fAdd_eq : fAdd f c a b = f.deliver c [x, y] (sumExact c.mode [x.exact, y.exact]) := by
  subst hx hy
  exact apply_pair f c hxn hyn _

theorem fSub_eq : fSub f c a b = f.deliver c [x, y] (sumExact c.mode [x.exact, y.negate.exact]) := by
  subst hx hy
  exact apply_pair f c hxn hyn _

theorem fMul_eq : fMul f c a b = f.deliver c [x, y] (mulExact x y) := by
  subst hx hy
  exact apply_pair f c hxn hyn _

end

variable {a b : Nat} {p q : Rat} (ha : (c.operand f a).rat = some p) (hb : (c.operand f b).rat = some q)

include ha hb

theorem areNums_pair : areNums [(c.operand f a).exact, (c.operand f b).exact] [p, q] :=
  .cons (FVal.rat_exact ha) (.cons (FVal.rat_exact hb) .nil)

/-- Operands that cancel give the zero of the mode (R90). -/
theorem fAdd_cancels (hp : p ≠ 0) (hpq : p + q = 0) : fAdd f c a b = (f.signBit (c.mode == 3), 0) := by
  rw [fAdd_eq rfl rfl (FVal.isNan_of_rat ha) (FVal.isNan_of_rat hb),
    sumExact_cancels (areNums_pair ha hb) c.mode (by simpa using hpq) (List.mem_cons_self ..) hp]
  rfl

include hmb

theorem once_fAdd (hv : p + q ≠ 0) : f.once c (p + q) (fAdd f c a b) := by
  have hsum := rat_sumExact (areNums_pair ha hb) c.mode
  rw [show [p, q].sum = p + q by simp] at hsum
  rw [fAdd_eq rfl rfl (FVal.isNan_of_rat ha) (FVal.isNan_of_rat hb)]
  exact Fmt.once_deliver hmb c _ hsum hv

theorem once_fSub (hv : p - q ≠ 0) : f.once c (p - q) (fSub f c a b) := by
  have hnums : areNums [(c.operand f a).exact, (c.operand f b).negate.exact] [p, -q] :=
    .cons (FVal.rat_exact ha) (.cons (FVal.rat_exact (FVal.rat_negate hb)) .nil)
  have hsum := rat_sumExact hnums c.mode
  rw [show [p, -q].sum = p - q by simp [sub_eq_add_neg]] at hsum
  rw [fSub_eq rfl rfl (FVal.isNan_of_rat ha) (FVal.isNan_of_rat hb)]
  exact Fmt.once_deliver hmb c _ hsum hv

theorem once_fMul (hv : p * q ≠ 0) : f.once c (p * q) (fMul f c a b) := by
  rw [fMul_eq rfl rfl (FVal.isNan_of_rat ha) (FVal.isNan_of_rat hb)]
  exact Fmt.once_deliver hmb c _ (rat_mulExact ha hb) hv

theorem once_fFma {d : Nat} {z : Rat} (hd : (c.operand f d).rat = some z) (hv : p * q + z ≠ 0) : f.once c (p * q + z) (fFma f c a b d) := by
  have h := once_fDot hmb (c := c) (ops := [c.operand f a, c.operand f b, c.operand f d]) (pairs := [(c.operand f a, c.operand f b)])
    (by simp [FVal.isNan_of_rat ha, FVal.isNan_of_rat hb, FVal.isNan_of_rat hd]) (.cons (rat_mulExact ha hb) .nil) hd
  rw [List.sum_singleton] at h
  exact h hv

end

/-! ### Infinities and invalid operations (R93, R99) -/

/-- What an infinite result is without saturation. -/
theorem deliverInf_fp32 {c : FCtx} (hsat : c.sat = false) (n : Bool) : fp32.deliverInf c n = (fp32.signBit n + 0x7f800000, 0) := by
  rw [Fmt.deliverInf, hsat]
  rfl

/-- An invalid operation on operands that are no NaN gives the canonical one. -/
theorem deliver_invalid {c : FCtx} {ops : List FVal} (h : ops.any FVal.isNan = false) : fp32.deliver c ops .invalid = (0x7fc00000, fNV) := by
  have hfind : ops.find? FVal.isNan = none := List.find?_eq_none.2 fun y hy => by simpa using List.any_eq_false.1 h y hy
  rw [Fmt.deliver, Fmt.nanOf, hfind]
  split <;> rename_i h
  · cases h
  · rfl

/-! What the exact operations make of an infinity. -/

section
variable (mode : Nat) (n k : Bool) (m : Nat) (e : Int)

theorem sumExact_inf_inf : sumExact mode [.inf n, .inf k] = if n = k then .inf n else .invalid := by cases n <;> cases k <;> rfl
theorem sumExact_inf_num : sumExact mode [.inf n, .num k m e] = .inf n := by cases n <;> rfl
theorem sumExact_num_inf : sumExact mode [.num k m e, .inf n] = .inf n := by cases n <;> rfl

theorem mulExact_inf_inf : mulExact (.inf n) (.inf k) = .inf (n != k) := by cases n <;> cases k <;> rfl

theorem mulExact_inf_fin : mulExact (.inf n) (.fin k m e) = if m = 0 then .invalid else .inf (n != k) := by
  by_cases hm : m = 0 <;> simp [mulExact, FVal.isZero, FVal.neg, hm]

theorem mulExact_fin_inf : mulExact (.fin k m e) (.inf n) = if m = 0 then .invalid else .inf (n != k) := by
  by_cases hm : m = 0 <;> simp [mulExact, FVal.isZero, FVal.neg, hm, Bool.xor_comm k]

end

section
variable {c : FCtx}

/-- What an exact result that is no number delivers. -/
theorem deliver_special {ops : List FVal} (hops : ops.any FVal.isNan = false) (n : Bool) (p : Prop) [Decidable p] :
    fp32.deliver c ops (if p then .invalid else .inf n) = if p then (0x7fc00000, fNV) else fp32.deliverInf c n := by
  split
  · exact deliver_invalid hops
  · rfl

variable (hsat : c.sat = false) {a b : Nat} {n k : Bool} {m : Nat} {e : Int}

include hsat

theorem infinite_infinite (hx : c.operand fp32 a = .inf n) (hy : c.operand fp32 b = .inf k) :
    fAdd fp32 c a b = (if n = k then (fp32.signBit n + 0x7f800000, 0) else (0x7fc00000, fNV)) ∧
    fSub fp32 c a b = (if n = k then (0x7fc00000, fNV) else (fp32.signBit n + 0x7f800000, 0)) ∧
    fMul fp32 c a b = (fp32.signBit (n != k) + 0x7f800000, 0) := by
  have hsum : ∀ j, fp32.deliver c [.inf n, .inf k] (sumExact c.mode [.inf n, .inf j]) =
      if n = j then fp32.deliverInf c n else (0x7fc00000, fNV) := fun j => by
    rw [sumExact_inf_inf, ← ite_not, deliver_special rfl, ite_not]
  rw [fAdd_eq hx hy rfl rfl, fSub_eq hx hy rfl rfl, fMul_eq hx hy rfl rfl, mulExact_inf_inf, ← deliverInf_fp32 hsat, ← deliverInf_fp32 hsat]
  refine ⟨hsum k, (hsum !k).trans ?_, rfl⟩
  rw [← ite_not]
  exact if_congr (by cases n <;> cases k <;> decide) rfl rfl

theorem infinite_finite (hx : c.operand fp32 a = .inf n) (hy : c.operand fp32 b = .fin k m e) :
    fAdd fp32 c a b = (fp32.signBit n + 0x7f800000, 0) ∧ fSub fp32 c a b = (fp32.signBit n + 0x7f800000, 0) ∧
    fMul fp32 c a b = if m = 0 then (0x7fc00000, fNV) else (fp32.signBit (n != k) + 0x7f800000, 0) := by
  rw [fAdd_eq hx hy rfl rfl, fSub_eq hx hy rfl rfl, fMul_eq hx hy rfl rfl, mulExact_inf_fin, deliver_special rfl, ← deliverInf_fp32 hsat,
    ← deliverInf_fp32 hsat]
  exact ⟨congrArg (fp32.deliver c _) (sumExact_inf_num ..), congrArg (fp32.deliver c _) (sumExact_inf_num ..), rfl⟩

theorem finite_infinite (hx : c.operand fp32 a = .fin k m e) (hy : c.operand fp32 b = .inf n) :
    fAdd fp32 c a b = (fp32.signBit n + 0x7f800000, 0) ∧ fSub fp32 c a b = (fp32.signBit (!n) + 0x7f800000, 0) ∧
    fMul fp32 c a b = if m = 0 then (0x7fc00000, fNV) else (fp32.signBit (n != k) + 0x7f800000, 0) := by
  rw [fAdd_eq hx hy rfl rfl, fSub_eq hx hy rfl rfl, fMul_eq hx hy rfl rfl, mulExact_fin_inf, deliver_special rfl, ← deliverInf_fp32 hsat,
    ← deliverInf_fp32 hsat, ← deliverInf_fp32 hsat]
  exact ⟨congrArg (fp32.deliver c _) (sumExact_num_inf ..), congrArg (fp32.deliver c _) (sumExact_num_inf ..), rfl⟩

end

end
end Sys2Proof.Machine

namespace Sys2Proof.Machine

section

/-! ### NaN operands of FP32 operations (R93, R94) -/

/-- A word after input flushing (R92). -/
def flushWord (c : FCtx) (v : Word) : Nat := if c.ftz = true ∧ v.extractLsb' 23 8 = 0 then v.toNat / 2 ^ 31 * 2 ^ 31 else v.toNat

section
variable (c : FCtx) (v : Word)

/-- Flushing a zero changes nothing, so that flushing goes by the exponent. -/
theorem flush_word : (if c.flushes fp32 && fp32.subnormal v.toNat then v.toNat / 2 ^ fp32.magBits * 2 ^ fp32.magBits else v.toNat) =
    flushWord c v := by
  have hv := v.isLt
  unfold flushWord
  rw [subnormal_word, show c.flushes fp32 = c.ftz from rfl, show fp32.magBits = 31 from rfl]
  simp only [show (0 : BitVec 8) = BitVec.ofNat 8 0 from rfl, Bool.and_eq_true, beq_iff_eq, bne_iff_ne, ne_eq, exponent_eq_iff v (show 0 < 256 by decide),
    fraction_eq_zero_iff]
  cases c.ftz
  · simp
  · simp only [true_and]
    split <;> split <;> omega

theorem operand_word : c.operand fp32 v.toNat = fp32.value (flushWord c v) := by
  rw [← flush_word, FCtx.operand]
  split <;> rfl

theorem flushWord_lt : flushWord c v < 2 ^ 32 := by
  have hv := v.isLt
  unfold flushWord
  split <;> omega

variable {v}

/-- Flushing leaves a NaN alone. -/
theorem flushWord_nan (h : isNanWord v) : flushWord c v = v.toNat :=
  if_neg fun hz => absurd (h.1.symm.trans hz.2) (by decide)

theorem operand_nan (h : isNanWord v) : c.operand fp32 v.toNat = .nan (v.getLsbD 31) (v.getLsbD 22) (v.extractLsb' 0 23).toNat 23 := by
  rw [operand_word, flushWord_nan c h, value_word, if_pos h.1, if_neg h.2]

/-- An encoding beyond infinity is what a NaN is. -/
theorem isNanWord_iff : isNanWord v ↔ 0x7f800000 < v.toNat % 2 ^ 31 := by
  have hv := v.isLt
  rw [isNanWord, show (0xff : BitVec 8) = BitVec.ofNat 8 255 from rfl, exponent_eq_iff v (show 255 < 256 by decide), Ne, fraction_eq_zero_iff]
  omega

theorem Fmt.isNan_value_iff (f : Fmt) (x : Nat) : (f.value x).isNan = true ↔
    f.largest < x % 2 ^ f.magBits ∧ ¬ (f.inf = true ∧ x % 2 ^ f.magBits % 2 ^ f.mb = 0) := by
  unfold Fmt.value
  dsimp only
  split
  · split <;> simp_all [FVal.isNan]
  · split <;> simp_all [FVal.isNan]

theorem isNan_value_fp32 (x : Nat) : (fp32.value x).isNan = true ↔ 0x7f800000 < x % 2 ^ 31 := by
  rw [fp32.isNan_value_iff]
  show 0x7f7fffff < x % 2 ^ 31 ∧ ¬ (true = true ∧ x % 2 ^ 31 % 2 ^ 23 = 0) ↔ _
  rw [eq_self, true_and]
  omega

/-- Flushing makes no NaN. -/
theorem isNan_operand_iff : (c.operand fp32 v.toNat).isNan = true ↔ isNanWord v := by
  have hv := v.isLt
  rw [operand_word, isNan_value_fp32, isNanWord_iff]
  by_cases h : isNanWord v
  · rw [flushWord_nan c h]
  · rw [isNanWord_iff] at h
    unfold flushWord
    split <;> omega

theorem isNan_operand_eq_false (h : ¬ isNanWord v) : (c.operand fp32 v.toNat).isNan = false :=
  Bool.eq_false_iff.2 (mt (isNan_operand_iff c).1 h)

variable (v) in
theorem signalling_operand : (c.operand fp32 v.toNat).signalling =
    (v.extractLsb' 23 8 == 0xff && v.extractLsb' 0 23 != 0 && !v.getLsbD 22) := by
  by_cases h : isNanWord v
  · rw [operand_nan c h, h.1, bne_iff_ne.2 h.2]
    rfl
  · have hnan := isNan_operand_eq_false c h
    have hsig : (c.operand fp32 v.toNat).signalling = false := by
      cases hx : c.operand fp32 v.toNat <;> rw [hx] at hnan
      · rfl
      · rfl
      · cases hnan
    have hbits : (v.extractLsb' 23 8 == 0xff && v.extractLsb' 0 23 != 0) = false := by
      rw [← Bool.not_eq_true, Bool.and_eq_true, beq_iff_eq, bne_iff_ne]
      exact h
    rw [hsig, hbits, Bool.false_and]

/-- The signalling NaNs among the operands set NV (R93). -/
theorem sigFlags_operands (vs : List Word) : sigFlags (vs.map fun v => c.operand fp32 v.toNat) = signals vs := by
  rw [sigFlags, signals, List.any_map]
  simp only [Function.comp_def, signalling_operand]

/-- A NaN is quieted by its bit 22. -/
theorem toNat_or_quiet (v : Word) : (v ||| 0x00400000).toNat = if v.getLsbD 22 then v.toNat else v.toNat + 2 ^ 22 := by
  have hv := v.isLt
  have hbit := getLsbD_eq_beq v 22
  rw [BitVec.toNat_or, show (0x00400000 : Word).toNat = 2 ^ 22 from rfl]
  split
  · apply Nat.eq_of_testBit_eq
    intro i
    rw [Nat.testBit_or, Nat.testBit_two_pow]
    by_cases hi : 22 = i
    · subst hi
      rw [BitVec.testBit_toNat, ‹v.getLsbD 22 = true›]
      rfl
    · rw [decide_eq_false hi, Bool.or_false]
  · have hand : v &&& BitVec.twoPow 32 22 = 0#32 := by
      rw [BitVec.and_twoPow, if_neg ‹_›]
    rw [← show (BitVec.twoPow 32 22).toNat = 2 ^ 22 from rfl, ← BitVec.toNat_or, ← BitVec.add_eq_or_of_and_eq_zero _ _ hand, BitVec.toNat_add,
      show (BitVec.twoPow 32 22).toNat = 2 ^ 22 from rfl]
    have hclear : v.toNat / 2 ^ 22 % 2 = 0 := by
      rw [Bool.eq_false_of_not_eq_true ‹¬v.getLsbD 22 = true›, eq_comm, beq_eq_false_iff_ne] at hbit
      omega
    omega

theorem quieted_nan (h : isNanWord v) : fp32.quieted (v.getLsbD 31) (v.extractLsb' 0 23).toNat 23 = (v ||| 0x00400000).toNat := by
  have hv := v.isLt
  have hexp := (exponent_eq_iff v (show 255 < 256 by decide)).1 h.1
  have hquieted : ∀ n fr, fp32.quieted n fr 23 = (if n then 2 ^ 31 else 0) + 0x7f800000 + if fr ≥ 2 ^ 22 then fr else fr + 2 ^ 22 := fun n fr => by
    rw [Fmt.quieted, if_neg (by decide)]
    simp [Fmt.signBit, Fmt.magBits, Fmt.infBits, fp32]
  rw [hquieted, toNat_or_quiet, toNat_fraction, quiet_eq, getLsbD_eq_beq]
  simp only [beq_iff_eq, decide_eq_true_eq, ge_iff_le]
  split <;> split <;> omega

theorem nanOf_nan (h : isNanWord v) (ops : List FVal) : fp32.nanOf c (c.operand fp32 v.toNat :: ops) = nanFrom c v := by
  rw [operand_nan c h, Fmt.nanOf, nanFrom]
  cases c.dn
  · exact quieted_nan h
  · rfl

theorem nanOf_skip (f : Fmt) {x : FVal} (h : x.isNan = false) (ops : List FVal) : f.nanOf c (x :: ops) = f.nanOf c ops := by
  rw [Fmt.nanOf, Fmt.nanOf, List.find?_cons, h]

end

section
variable (c : FCtx) {a b d : Word}

/-- A function of a NaN operand (R93, R94, R99). -/
theorem unary_nan (h : isNanWord a) : ∀ f ∈ [fRcp, fRsq, fSqrt, fExp2, fLog2], f c a.toNat = (nanFrom c a, signals [a]) := by
  have hnan := operand_nan c h
  have happly : fp32.apply c [c.operand fp32 a.toNat] .invalid = (nanFrom c a, signals [a]) := by
    rw [Fmt.apply, if_pos (by rw [hnan]; rfl), nanOf_nan c h]
    exact congrArg (Prod.mk _) (sigFlags_operands c [a])
  intro f hf
  rw [← happly]
  simp only [List.mem_cons, List.not_mem_nil, or_false] at hf
  rcases hf with rfl | rfl | rfl | rfl | rfl
  · rw [fRcp, hnan]
  · rw [fRsq, hnan]
  · rw [fSqrt, hnan]
  · rw [fExp2, hnan]
  · rw [fLog2, hnan]

/-- A binary operation of which an operand is a NaN. -/
theorem apply_nan (x : Exact) :
    (isNanWord a → fp32.apply c [c.operand fp32 a.toNat, c.operand fp32 b.toNat] x = (nanFrom c a, signals [a, b])) ∧
    (¬ isNanWord a → isNanWord b → fp32.apply c [c.operand fp32 a.toNat, c.operand fp32 b.toNat] x = (nanFrom c b, signals [a, b])) := by
  have hsig := sigFlags_operands c [a, b]
  constructor
  · intro h
    rw [Fmt.apply, if_pos (by rw [operand_nan c h]; rfl), nanOf_nan c h]
    exact congrArg (Prod.mk _) hsig
  · intro ha hb
    rw [Fmt.apply, if_pos (by rw [operand_nan c hb]; simp [FVal.isNan]), nanOf_skip c fp32 (isNan_operand_eq_false c ha), nanOf_nan c hb]
    exact congrArg (Prod.mk _) hsig

theorem binary_nan : ∀ f ∈ [fAdd fp32, fSub fp32, fMul fp32],
    (isNanWord a → f c a.toNat b.toNat = (nanFrom c a, signals [a, b])) ∧
    (¬ isNanWord a → isNanWord b → f c a.toNat b.toNat = (nanFrom c b, signals [a, b])) := by
  intro f hf
  simp only [List.mem_cons, List.not_mem_nil, or_false] at hf
  rcases hf with rfl | rfl | rfl <;> exact apply_nan c _

/-! ### FFMA with special operands (R93, R94, R312) -/

theorem sumInvalid_single (t : Exact) : sumInvalid [t] = (t == .invalid) := by
  cases t with
  | inf n => cases n <;> rfl
  | _ => rfl

theorem mulExact_invalid {x y : FVal} (hx : x.isNan = false) (hy : y.isNan = false) :
    (mulExact x y == .invalid) = ((x.isZero && y.isInf) || (x.isInf && y.isZero)) := by
  cases x with
  | nan => cases hx
  | inf n =>
    cases y with
    | nan => cases hy
    | inf k => rfl
    | fin k m e =>
      rw [mulExact_inf_fin]
      by_cases hm : m = 0 <;> simp [FVal.isZero, FVal.isInf, hm]
  | fin n m e =>
    cases y with
    | nan => cases hy
    | inf k =>
      rw [mulExact_fin_inf]
      by_cases hm : m = 0 <;> simp [FVal.isZero, FVal.isInf, hm]
    | fin k m' e' => simp [mulExact, FVal.isInf]

theorem mulExact_inf {x y : FVal} (hx : x.isNan = false) (hy : y.isNan = false)
    (hzero : ((x.isZero && y.isInf) || (x.isInf && y.isZero)) = false) (hinf : (x.isInf || y.isInf) = true) :
    mulExact x y = .inf (x.neg != y.neg) := by
  cases x with
  | nan => cases hx
  | inf n =>
    cases y with
    | nan => cases hy
    | inf k => exact mulExact_inf_inf n k
    | fin k m e =>
      have hm : m ≠ 0 := by simpa [FVal.isZero, FVal.isInf] using hzero
      exact (mulExact_inf_fin n k m e).trans (if_neg hm)
  | fin n m e =>
    cases y with
    | nan => cases hy
    | inf k =>
      have hm : m ≠ 0 := by simpa [FVal.isZero, FVal.isInf] using hzero
      rw [mulExact_fin_inf, if_neg hm, bne_comm]
      rfl
    | fin => cases hinf

/-- An infinite product and an addend. -/
theorem sumExact_inf_exact (mode : Nat) (s : Bool) {z : FVal} (hz : z.isNan = false) :
    sumExact mode [.inf s, z.exact] = if (z.isInf && z.neg != s) = true then .invalid else .inf s := by
  cases z with
  | nan => cases hz
  | inf k =>
    rw [show (FVal.inf k).exact = .inf k from rfl, sumExact_inf_inf]
    cases s <;> cases k <;> rfl
  | fin k m e => exact sumExact_inf_num mode s k m e

/-- A finite product and an infinite addend. -/
theorem sumExact_product_inf (mode : Nat) {x y z : FVal} (hx : x.isNan = false) (hy : y.isNan = false) (hxy : (x.isInf || y.isInf) = false)
    (hz : z.isInf = true) : sumExact mode [mulExact x y, z.exact] = .inf z.neg := by
  cases z with
  | inf k =>
    cases x with
    | fin n m e =>
      cases y with
      | fin n' m' e' => exact sumExact_num_inf mode k _ _ _
      | nan => cases hy
      | inf => cases hxy
    | nan => cases hx
    | inf => cases hxy
  | _ => cases hz

theorem exact_ne_invalid {x : FVal} (hx : x.isNan = false) : (x.exact == .invalid) = false := by
  cases x with
  | nan => cases hx
  | _ => rfl

/-- What a NaN among its operands makes of FFMA: an invalid product still sets NV. -/
theorem fFma_of_nan {x y z : FVal} (hx : c.operand fp32 a.toNat = x) (hy : c.operand fp32 b.toNat = y) (hz : c.operand fp32 d.toNat = z)
    (h : [x, y, z].any FVal.isNan = true) : fFma fp32 c a.toNat b.toNat d.toNat =
    (fp32.nanOf c [x, y, z], if ((x.isZero && y.isInf) || (x.isInf && y.isZero)) = true then fNV else signals [a, b, d]) := by
  have hsig : sigFlags [x, y, z] = signals [a, b, d] := by
    rw [← sigFlags_operands c, ← hx, ← hy, ← hz]
    rfl
  have hfma : fFma fp32 c a.toNat b.toNat d.toNat = fDot fp32 c [x, y, z] [(x, y)] z := by
    rw [← hx, ← hy, ← hz]
    rfl
  have hknown : sumInvalid (([(x, y)].filter fun p => !p.1.isNan && !p.2.isNan).map (fun p => mulExact p.1 p.2) ++
      (if z.isNan then [] else [z.exact])) = ((x.isZero && y.isInf) || (x.isInf && y.isZero)) := by
    have hzero : ∀ v : FVal, v.isNan = true → v.isZero = false ∧ v.isInf = false := fun v hv => by
      cases v with
      | nan => exact ⟨rfl, rfl⟩
      | _ => cases hv
    by_cases hxy : x.isNan = true ∨ y.isNan = true
    · have hfilter : (!x.isNan && !y.isNan) = false := by
        rcases hxy with h | h <;> simp [h]
      have hproduct : ((x.isZero && y.isInf) || (x.isInf && y.isZero)) = false := by
        rcases hxy with h | h <;> simp [hzero _ h]
      rw [List.filter_cons, hfilter, hproduct, if_neg Bool.false_ne_true]
      cases hzn : z.isNan
      · exact (sumInvalid_single _).trans (exact_ne_invalid hzn)
      · rfl
    · obtain ⟨hxn, hyn⟩ := not_or.1 hxy
      rw [Bool.not_eq_true] at hxn hyn
      have hzn : z.isNan = true := by simpa [hxn, hyn] using h
      rw [List.filter_cons, hxn, hyn, hzn, ← mulExact_invalid hxn hyn, ← sumInvalid_single]
      rfl
  rw [hfma, fDot, if_pos h, hknown, hsig]

/-- FFMA without a NaN delivers the exact sum of its product and its addend. -/
theorem fFma_of_not_nan {x y z : FVal} (hx : c.operand fp32 a.toNat = x) (hy : c.operand fp32 b.toNat = y) (hz : c.operand fp32 d.toNat = z)
    (h : [x, y, z].any FVal.isNan = false) :
    fFma fp32 c a.toNat b.toNat d.toNat = fp32.deliver c [x, y, z] (sumExact c.mode [mulExact x y, z.exact]) := by
  rw [fFma, hx, hy, hz, fDot, if_neg (by rw [h]; exact Bool.false_ne_true)]
  rfl

/-- R93, R94 and R312 of FFMA with a NaN or an infinity among its operands. -/
theorem fFma_special (c : FCtx) (a b d : Word) (hsat : c.sat = false) :
    let x := c.operand fp32 a.toNat; let y := c.operand fp32 b.toNat; let z := c.operand fp32 d.toNat
    let r := fFma fp32 c a.toNat b.toNat d.toNat
    let zeroInf := (x.isZero && y.isInf) || (x.isInf && y.isZero)
    let some' := isNanWord a ∨ isNanWord b ∨ isNanWord d
    (some' → r.2 = if zeroInf then fNV else signals [a, b, d]) ∧
    (isNanWord a → r.1 = nanFrom c a) ∧ (¬ isNanWord a → isNanWord b → r.1 = nanFrom c b) ∧
    (¬ isNanWord a → ¬ isNanWord b → isNanWord d → r.1 = nanFrom c d) ∧
    (¬ some' → zeroInf = true → r = (0x7fc00000, fNV)) ∧
    (¬ some' → zeroInf = false → (x.isInf || y.isInf) = true →
      r = if z.isInf && z.neg != (x.neg != y.neg) then (0x7fc00000, fNV) else (fp32.signBit (x.neg != y.neg) + 0x7f800000, 0)) ∧
    (¬ some' → (x.isInf || y.isInf) = false → z.isInf = true → r = (fp32.signBit z.neg + 0x7f800000, 0)) := by
  intro x y z r zeroInf some'
  have hany : [x, y, z].any FVal.isNan = true ↔ some' := by
    simp only [List.any_cons, List.any_nil, Bool.or_false, Bool.or_eq_true]
    exact or_congr (isNan_operand_iff c) (or_congr (isNan_operand_iff c) (isNan_operand_iff c))
  have hnan : some' → r = (fp32.nanOf c [x, y, z], if zeroInf = true then fNV else signals [a, b, d]) :=
    fun h => fFma_of_nan c rfl rfl rfl (hany.2 h)
  have hnone : ¬ some' → [x, y, z].any FVal.isNan = false ∧ x.isNan = false ∧ y.isNan = false ∧ z.isNan = false ∧
      r = fp32.deliver c [x, y, z] (sumExact c.mode [mulExact x y, z.exact]) := fun h => by
    have hfalse : [x, y, z].any FVal.isNan = false := Bool.eq_false_iff.2 (mt hany.1 h)
    obtain ⟨ha, hbd⟩ := not_or.1 h
    obtain ⟨hb, hd⟩ := not_or.1 hbd
    exact ⟨hfalse, isNan_operand_eq_false c ha, isNan_operand_eq_false c hb, isNan_operand_eq_false c hd, fFma_of_not_nan c rfl rfl rfl hfalse⟩
  refine ⟨fun h => by rw [hnan h], fun ha => ?_, fun ha hb => ?_, fun ha hb hd => ?_, fun h hzero => ?_, fun h hzero hinf => ?_,
    fun h hfin hinf => ?_⟩
  · rw [hnan (.inl ha)]
    exact nanOf_nan c ha _
  · rw [hnan (.inr (.inl hb))]
    exact (nanOf_skip c fp32 (isNan_operand_eq_false c ha) _).trans (nanOf_nan c hb _)
  · rw [hnan (.inr (.inr hd))]
    exact (nanOf_skip c fp32 (isNan_operand_eq_false c ha) _).trans <|
      (nanOf_skip c fp32 (isNan_operand_eq_false c hb) _).trans (nanOf_nan c hd _)
  · obtain ⟨hfalse, hxn, hyn, -, hr⟩ := hnone h
    have hproduct : mulExact x y = .invalid := beq_iff_eq.1 ((mulExact_invalid hxn hyn).trans hzero)
    rw [hr, hproduct]
    exact deliver_invalid hfalse
  · obtain ⟨hfalse, hxn, hyn, hzn, hr⟩ := hnone h
    rw [hr, mulExact_inf hxn hyn hzero hinf, sumExact_inf_exact _ _ hzn, deliver_special hfalse, deliverInf_fp32 hsat]
  · obtain ⟨-, hxn, hyn, -, hr⟩ := hnone h
    rw [hr, sumExact_product_inf _ hxn hyn hfin hinf, ← deliverInf_fp32 hsat]
    rfl

end

end
end Sys2Proof.Machine

namespace Sys2Proof.Machine

section

/-! ### Special operands of the functions of one operand (R99) -/

section
variable {c : FCtx} {a : Nat} {n : Bool} {m : Nat} {e : Int}

/-- A function's value where it has none. -/
theorem deliver_invalid_nil (c : FCtx) : fp32.deliver c [] .invalid = (0x7fc00000, fNV) := deliver_invalid rfl

theorem unary_inf (hx : c.operand fp32 a = .inf n) : fRcp c a = (fp32.signBit n, 0) ∧
    fRsq c a = (if n then (0x7fc00000, fNV) else (0, 0)) ∧
    fSqrt c a = (if n then (0x7fc00000, fNV) else (fp32.signBit false + 0x7f800000, 0)) ∧
    fExp2 c a = (if n then (0, 0) else (fp32.signBit false + 0x7f800000, 0)) ∧
    fLog2 c a = if n then (0x7fc00000, fNV) else (fp32.signBit false + 0x7f800000, 0) := by
  unfold fRcp fRsq fSqrt fExp2 fLog2
  rw [hx, ← deliver_invalid_nil c]
  cases n <;> exact ⟨rfl, rfl, rfl, rfl, rfl⟩

theorem unary_zero (hx : c.operand fp32 a = .fin n 0 e) : fRcp c a = (fp32.signBit n + 0x7f800000, fDZ) ∧
    fRsq c a = (fp32.signBit n + 0x7f800000, fDZ) ∧ fSqrt c a = (fp32.signBit n, 0) ∧ fExp2 c a = (0x3f800000, 0) ∧
    fLog2 c a = (fp32.signBit true + 0x7f800000, fDZ) := by
  unfold fRcp fRsq fSqrt fExp2 fLog2
  rw [hx]
  exact ⟨rfl, rfl, rfl, rfl, rfl⟩

theorem unary_negative (hx : c.operand fp32 a = .fin true m e) (hm : m ≠ 0) :
    fRsq c a = (0x7fc00000, fNV) ∧ fSqrt c a = (0x7fc00000, fNV) ∧ fLog2 c a = (0x7fc00000, fNV) := by
  unfold fRsq fSqrt fLog2
  rw [hx, ← deliver_invalid_nil c]
  have hzero : ¬ (m == 0) = true := by simpa using hm
  exact ⟨if_neg hzero, if_neg hzero, if_neg hzero⟩

end

/-! ### The order of FMIN, FMAX and FCMP (R97, R98) -/

/-- The place of an encoding in the order of R98, which puts -0 below +0. -/
def orderOf (n : Nat) : Int := if n < 2 ^ 31 then (n : Int) else 2 ^ 31 - 1 - (n : Int)

theorem orderOf_eq {x : Nat} (hx : x < 2 ^ 32) :
    orderOf x = if (x / 2 ^ 31 % 2 == 1) = true then -1 - ((x % 2 ^ 31 : Nat) : Int) else ((x % 2 ^ 31 : Nat) : Int) := by
  unfold orderOf
  simp only [beq_iff_eq]
  split <;> split <;> omega

theorem orderOf_inj {x y : Nat} (hx : x < 2 ^ 32) (hy : y < 2 ^ 32) (h : orderOf x = orderOf y) : x = y := by
  unfold orderOf at h
  split at h <;> split at h <;> omega

/-- An encoding that is no NaN is an infinity or a finite number. -/
theorem Fmt.value_cases {f : Fmt} {x : Nat} (h : (f.value x).isNan = false) :
    (f.value x = .inf (x / 2 ^ f.magBits % 2 == 1) ∧ f.largest < x % 2 ^ f.magBits) ∨
    ∃ m e, f.value x = .fin (x / 2 ^ f.magBits % 2 == 1) m e ∧ m * (2 : Rat) ^ e = f.mag (x % 2 ^ f.magBits) ∧ x % 2 ^ f.magBits ≤ f.largest := by
  have hvalue : (f.value x).isNan = true ∨ (f.value x = .inf (x / 2 ^ f.magBits % 2 == 1) ∧ f.largest < x % 2 ^ f.magBits) ∨
      ∃ m e, f.value x = .fin (x / 2 ^ f.magBits % 2 == 1) m e := by
    unfold Fmt.value
    dsimp only
    split
    · split
      · exact .inr (.inl ⟨rfl, ‹_›⟩)
      · exact .inl rfl
    · split
      · exact .inr (.inr ⟨_, _, rfl⟩)
      · exact .inr (.inr ⟨_, _, rfl⟩)
  rw [h] at hvalue
  refine (hvalue.resolve_left Bool.false_ne_true).imp_right ?_
  rintro ⟨m, e, hfin⟩
  obtain ⟨hle, hmag⟩ := (f.value_rat_iff x _).1 (congrArg FVal.rat hfin)
  rw [ratOf_eq, sgn_mul_inj] at hmag
  exact ⟨m, e, hfin, hmag.symm, hle⟩

/-- An FP32 encoding that is no NaN is an infinity or a finite number below it. -/
theorem value_cases_fp32 {x : Nat} (h : (fp32.value x).isNan = false) :
    (fp32.value x = .inf (x / 2 ^ 31 % 2 == 1) ∧ x % 2 ^ 31 = 0x7f800000) ∨
    ∃ m e, fp32.value x = .fin (x / 2 ^ 31 % 2 == 1) m e ∧ m * (2 : Rat) ^ e = fp32.mag (x % 2 ^ 31) ∧ x % 2 ^ 31 < 0x7f800000 := by
  have hle := mt (isNan_value_fp32 x).2 (by rw [h]; exact Bool.false_ne_true)
  rcases Fmt.value_cases h with ⟨hinf, hgt⟩ | ⟨m, e, hfin, hmag, hlt⟩
  · exact .inl ⟨hinf, le_antisymm (not_lt.1 hle) hgt⟩
  · exact .inr ⟨m, e, hfin, hmag, Nat.lt_succ_of_le hlt⟩

theorem belowOrdered_fin (n n' : Bool) (m m' : Nat) (e e' : Int) : belowOrdered (.fin n m e) (.fin n' m' e') = true ↔
    ratOf n m e < ratOf n' m' e' ∨ ratOf n m e = ratOf n' m' e' ∧ n = true ∧ n' = false := by
  have hpos := two_zpow_pos (min e e')
  rw [← toScale_mul n m (min_le_left e e'), ← toScale_mul n' m' (min_le_right e e'), mul_lt_mul_iff_left₀ hpos, mul_left_inj' hpos.ne',
    Int.cast_lt, Int.cast_inj]
  simp [belowOrdered, and_assoc]

/-- Numbers compare as their signs and magnitudes do. -/
theorem belowOrdered_mag {f : Fmt} {n n' : Bool} {m m' k k' : Nat} {e e' : Int} (h : m * (2 : Rat) ^ e = f.mag k)
    (h' : m' * (2 : Rat) ^ e' = f.mag k') : belowOrdered (.fin n m e) (.fin n' m' e') = true ↔
    (if n = true then -1 - (k : Int) else k) < if n' = true then -1 - (k' : Int) else k' := by
  have hk := f.mag_nonneg k
  have hk' := f.mag_nonneg k'
  rw [belowOrdered_fin, ratOf_eq, ratOf_eq, h, h']
  cases n <;> cases n' <;> simp only [sgn, Bool.false_eq_true, if_false, if_true, one_mul, neg_one_mul, reduceCtorEq, and_false,
    or_false, and_true]
  · rw [f.mag_strictMono.lt_iff_lt, Int.ofNat_lt]
  · constructor
    · intro h
      linarith
    · omega
  · rw [← le_iff_lt_or_eq]
    constructor
    · omega
    · intro _
      linarith
  · rw [neg_lt_neg_iff, f.mag_strictMono.lt_iff_lt]
    omega

/-- The order of two numbers is that of the places of their encodings. -/
theorem belowOrdered_iff {x y : Nat} (hx : x < 2 ^ 32) (hy : y < 2 ^ 32) (hxn : (fp32.value x).isNan = false)
    (hyn : (fp32.value y).isNan = false) : belowOrdered (fp32.value x) (fp32.value y) = true ↔ orderOf x < orderOf y := by
  rw [orderOf_eq hx, orderOf_eq hy]
  generalize hn : (x / 2 ^ 31 % 2 == 1) = n, hn' : (y / 2 ^ 31 % 2 == 1) = n', hk : x % 2 ^ 31 = k, hk' : y % 2 ^ 31 = k'
  rcases value_cases_fp32 hxn with ⟨hvx, hkx⟩ | ⟨m, e, hvx, hmx, hkx⟩ <;> rcases value_cases_fp32 hyn with ⟨hvy, hky⟩ | ⟨m', e', hvy, hmy, hky⟩ <;>
    rw [hk] at hkx <;> rw [hk'] at hky <;> rw [hvx, hvy, hn, hn']
  · cases n <;> cases n' <;> simp [belowOrdered] <;> omega
  · cases n <;> cases n' <;> simp [belowOrdered] <;> omega
  · cases n <;> cases n' <;> simp [belowOrdered] <;> omega
  · rw [hk] at hmx
    rw [hk'] at hmy
    exact belowOrdered_mag hmx hmy

/-! ### FMIN, FMAX and FCMP -/

section
variable (c : FCtx) (a b : Word)

/-- R98: the NaN operands, and the order of the flushed ones. -/
theorem fMinMax_spec (greater : Bool) :
    let r := fMinMax fp32 c greater a.toNat b.toNat
    r.2 = signals [a, b] ∧ (isNanWord a → isNanWord b → r.1 = nanFrom c a) ∧ (isNanWord a → ¬ isNanWord b → r.1 = flushWord c b) ∧
    (¬ isNanWord a → isNanWord b → r.1 = flushWord c a) ∧
    (¬ isNanWord a → ¬ isNanWord b → r.1 =
      if (orderOf (flushWord c a) < orderOf (flushWord c b)) = (greater = true) then flushWord c b else flushWord c a) := by
  intro r
  have hsig : sigFlags [fp32.value (flushWord c a), fp32.value (flushWord c b)] = signals [a, b] := by
    rw [← sigFlags_operands c, ← operand_word, ← operand_word]
    rfl
  have hr : r = if (fp32.value (flushWord c a)).isNan && (fp32.value (flushWord c b)).isNan then
        (fp32.nanOf c [fp32.value (flushWord c a), fp32.value (flushWord c b)], signals [a, b])
      else if (fp32.value (flushWord c a)).isNan then (flushWord c b, signals [a, b])
      else if (fp32.value (flushWord c b)).isNan then (flushWord c a, signals [a, b])
      else if greater then
        (if belowOrdered (fp32.value (flushWord c a)) (fp32.value (flushWord c b)) then flushWord c b else flushWord c a, signals [a, b])
      else (if belowOrdered (fp32.value (flushWord c b)) (fp32.value (flushWord c a)) then flushWord c b else flushWord c a, signals [a, b]) := by
    rw [← hsig, ← flush_word c a, ← flush_word c b]
    rfl
  have hnan : ∀ v : Word, (fp32.value (flushWord c v)).isNan = true ↔ isNanWord v := fun v => by
    rw [← operand_word]
    exact isNan_operand_iff c
  have hfalse : ∀ v : Word, ¬ isNanWord v → (fp32.value (flushWord c v)).isNan = false := fun v h => Bool.eq_false_iff.2 (mt (hnan v).1 h)
  refine ⟨?_, fun ha hb => ?_, fun ha hb => ?_, fun ha hb => ?_, fun ha hb => ?_⟩
  · rw [hr]
    split
    · rfl
    · split
      · rfl
      · split
        · rfl
        · split <;> rfl
  · rw [hr, (hnan a).2 ha, (hnan b).2 hb, ← operand_word]
    exact nanOf_nan c ha _
  · rw [hr, (hnan a).2 ha, hfalse b hb]
    rfl
  · rw [hr, hfalse a ha, (hnan b).2 hb]
    rfl
  · have hlt := flushWord_lt c a
    have hlt' := flushWord_lt c b
    have hab := belowOrdered_iff hlt hlt' (hfalse a ha) (hfalse b hb)
    have hba := belowOrdered_iff hlt' hlt (hfalse b hb) (hfalse a ha)
    rw [hr, hfalse a ha, hfalse b hb, Bool.false_and, if_neg Bool.false_ne_true, if_neg Bool.false_ne_true, if_neg Bool.false_ne_true]
    cases greater
    · rw [if_neg Bool.false_ne_true]
      rcases lt_trichotomy (orderOf (flushWord c a)) (orderOf (flushWord c b)) with h | h | h
      · simp [hba, h, h.le]
      · simp [orderOf_inj hlt hlt' h]
      · simp [hba, h, h.le]
    · rw [if_pos rfl]
      exact if_congr (hab.trans (by simp)) rfl rfl

/-- The flags of FCMP (R97): the zeros compare equal, in spite of their order. -/
theorem fcmpFlags_eq (x y : FVal) : fcmpFlags x y = if x.isNan || y.isNan then { v := true }
    else if belowOrdered x y && !(x.isZero && y.isZero) then { n := true }
    else if belowOrdered y x && !(x.isZero && y.isZero) then { c := true }
    else { z := true, c := true } := by
  unfold fcmpFlags fRelation
  cases x.isNan || y.isNan
  · cases x.isZero && y.isZero
    · cases belowOrdered x y
      · cases belowOrdered y x <;> rfl
      · rfl
    · simp only [Bool.not_true, Bool.and_false]
      rfl
  · rfl

end

/-! ### Floating-point instructions -/

/-- What a lane that writes a flagged result writes. -/
theorem mem_flagged {r : Nat × Nat} {x : Lane} (h : x ∈ (flagged r).w) : ∃ u, x = live u := ⟨_, List.mem_singleton.1 h⟩

theorem computes_of_frr {i : Instr} {d a b : Reg} {r : BitVec 3} (f : FCtx → Nat → Nat → Nat × Nat)
    (hx : ∀ s, exec i s = .next (s.frr d a b r f)) :
    Computes i (opsRR d a b) fun s l => flagged (f (s.mode l r) (s.val a l).toNat (s.val b l).toNat) :=
  computes_of_alu hx rfl (fun _ _ => rfl) (fun _ _ _ => mem_flagged) fun _ _ => rfl

theorem computes_of_fr {i : Instr} {d a : Reg} {r : BitVec 3} (f : FCtx → Nat → Nat × Nat) (hx : ∀ s, exec i s = .next (s.fr d a r f)) :
    Computes i (opsR d a) fun s l => flagged (f (s.mode l r) (s.val a l).toNat) :=
  computes_of_alu hx rfl (fun _ _ => rfl) (fun _ _ _ => mem_flagged) fun _ _ => rfl

theorem computes_of_facc {i : Instr} {d a b : Reg} {r : BitVec 3} (f : FCtx → Nat → Nat → Nat → Nat × Nat)
    (hx : ∀ s, exec i s = .next (s.facc d a b r f)) :
    Computes i (opsAcc d a b) fun s l => flagged (f (s.mode l r) (s.val a l).toNat (s.val b l).toNat (s.val d l).toNat) :=
  computes_of_alu hx rfl (fun _ _ => rfl) (fun _ _ _ => mem_flagged) fun _ _ => rfl

theorem fcmp_computes (n : Cc) (a b : Reg) : Computes (.fcmp n a b) { a := [a.toNat], b := [b.toNat] } fun s l =>
    let x := (s.mode l 0).operand fp32 (s.val a l).toNat
    let y := (s.mode l 0).operand fp32 (s.val b l).toNat
    { cc := some (n, if x.isNan || y.isNan then { v := true }
        else if belowOrdered x y && !(x.isZero && y.isZero) then { n := true }
        else if belowOrdered y x && !(x.isZero && y.isZero) then { c := true }
        else { z := true, c := true })
      fl := if x.signalling || y.signalling then fNV else 0 } := by
  refine computes_of_alu (fun _ => rfl) rfl (fun _ _ => rfl) (fun _ _ _ => mem_no_writes rfl) fun s l => ?_
  dsimp only
  rw [fcmpFlags_eq, sigFlags, List.any_cons, List.any_cons, List.any_nil, Bool.or_false]
  rfl

end
end Sys2Proof.Machine

namespace Sys2Proof.Machine

section

/-! ### Values that are known up to their last digits (R99) -/

section
variable {f : Fmt}

theorem Fmt.mark_nonneg {y : Rat} (h : f.mark y) : 0 ≤ y := by
  obtain ⟨k, rfl | rfl⟩ := h
  · exact f.mag_nonneg k
  · exact (f.mag_nonneg k).trans (f.mag_lt_mid k).le

theorem Fmt.finish_alike {x s : Rat} (h : f.alike x s) (c : FCtx) (neg : Bool) (k : Nat) : f.finish c neg x k = f.finish c neg s k := by
  simp only [Fmt.finish, Fmt.mag_eq_alike h, Fmt.lt_emin_alike h]

/-- The number that the digits of a value stand for: themselves, or the one halfway to the next. -/
def stickyValue (j : Nat) (e : Int) (isExact : Bool) : Rat := if isExact then j * 2 ^ e else (2 * j + 1 : Nat) * 2 ^ (e - 1)

theorem half_step (j : Nat) (e : Int) : ((2 * j + 1 : Nat) : Rat) * 2 ^ (e - 1) = (j + 1 / 2) * 2 ^ e := by
  rw [zpow_sub_one₀ two_ne_zero]
  push_cast
  ring

theorem half_step_between (j : Nat) (e : Int) : (j : Rat) * 2 ^ e < (2 * j + 1 : Nat) * 2 ^ (e - 1) ∧
    ((2 * j + 1 : Nat) : Rat) * 2 ^ (e - 1) < (j + 1) * 2 ^ e := by
  have hpos := two_zpow_pos e
  rw [half_step]
  constructor <;> nlinarith

/-- What is delivered of a value's digits is what it rounds to. -/
theorem Fmt.deliver_sticky (hmb : 1 ≤ f.mb) (c : FCtx) (neg : Bool) {j : Nat} (hj : j ≠ 0) (e : Int) (isExact : Bool) :
    ∃ k, f.picks c.mode neg (stickyValue j e isExact) k ∧
      f.deliver c [] (sticky neg j e isExact) = f.finish c neg (stickyValue j e isExact) k := by
  cases isExact
  · obtain ⟨k, hk, hr⟩ := f.round_eq_finish (show 2 * j + 1 ≠ 0 by omega) (e - 1) hmb c neg
    exact ⟨k, hk, (f.deliver_num c [] (e - 1) (by omega)).trans hr⟩
  · obtain ⟨k, hk, hr⟩ := f.round_eq_finish hj e hmb c neg
    exact ⟨k, hk, (f.deliver_num c [] e hj).trans hr⟩

/-- A value with these digits, and more below them exactly when they are not exact, is rounded once. -/
theorem Fmt.Regular.rounds_sticky (hf : f.Regular) {c : FCtx} (hmode : c.mode ≤ 3) (neg : Bool) {j : Nat} (hj : 2 ^ (f.mb + 2) ≤ j) {e : Int}
    {isExact : Bool} {x : Rat} (hexact : isExact = true → x = j * 2 ^ e)
    (hmore : isExact = false → j * 2 ^ e < x ∧ x < (j + 1) * 2 ^ e) :
    f.rounds c (sgn neg * x) (f.deliver c [] (sticky neg j e isExact)) := by
  have hj0 : j ≠ 0 := fun h => by
    have := Nat.two_pow_pos (f.mb + 2)
    omega
  have hx : 0 < x := by
    have hpos : (0 : Rat) < j * 2 ^ e := mul_pos (by exact_mod_cast Nat.pos_of_ne_zero hj0) (two_zpow_pos e)
    cases isExact
    · exact hpos.trans (hmore rfl).1
    · exact (hexact rfl).symm ▸ hpos
  have halike : f.alike x (stickyValue j e isExact) := by
    cases isExact
    · exact Fmt.alike_of_between hj (hmore rfl) (half_step_between j e)
    · rw [hexact rfl]
      exact fun _ _ => ⟨Iff.rfl, Iff.rfl⟩
  obtain ⟨k, hk, hr⟩ := Fmt.deliver_sticky hf.mb_pos c neg hj0 e isExact
  rw [hr, ← Fmt.finish_alike halike]
  exact hf.rounds_finish hmode hx ((Fmt.picks_alike halike _ _ _).2 hk)

end

/-! ### Roots -/

/-- A number stands among the marks where an increasing function vanishes. -/
def Fmt.locates (f : Fmt) (g : Rat → Rat) (s : Rat) : Prop := ∀ y, f.mark y → (y ≤ s → g y ≤ 0) ∧ (s ≤ y → 0 ≤ g y) ∧ (g y = 0 → y = s)

/-- A function increases on the numbers that are not negative. -/
def increases (g : Rat → Rat) : Prop := ∀ u v, 0 ≤ u → u < v → g u < g v

section
variable {g : Rat → Rat} (hg : increases g)

include hg

theorem increases_le {u v : Rat} (hu : 0 ≤ u) (h : u ≤ v) : g u ≤ g v := by
  rcases h.lt_or_eq with h | rfl
  · exact (hg u v hu h).le
  · exact le_rfl

/-- Digits of the root locate it. -/
theorem Fmt.locates_sticky {f : Fmt} {j : Nat} (hj : 2 ^ (f.mb + 2) ≤ j) {e : Int} {isExact : Bool} (hexact : isExact = true ↔ g (j * 2 ^ e) = 0)
    (hlo : g (j * 2 ^ e) ≤ 0) (hhi : 0 < g ((j + 1) * 2 ^ e)) : f.locates g (stickyValue j e isExact) := by
  have hroot : (0 : Rat) ≤ j * 2 ^ e := mul_nonneg (Nat.cast_nonneg _) (two_zpow_pos e).le
  intro y hy
  have hy0 := Fmt.mark_nonneg hy
  cases isExact
  · have hlt : g (j * 2 ^ e) < 0 := hlo.lt_of_ne (mt hexact.2 Bool.false_ne_true)
    obtain ⟨habove, hbelow⟩ := half_step_between j e
    rcases f.mark_outside hy hj e with h | h
    · have hgy := (increases_le hg hy0 h).trans_lt hlt
      exact ⟨fun _ => hgy.le, fun hs => absurd (hs.trans h) (not_le.2 habove), fun hz => absurd hz hgy.ne⟩
    · have hgy := hhi.trans_le (increases_le hg (by positivity) h)
      exact ⟨fun hs => absurd (h.trans hs) (not_le.2 hbelow), fun _ => hgy.le, fun hz => absurd hz hgy.ne'⟩
  · have hzero := hexact.1 rfl
    rw [stickyValue, if_pos rfl]
    refine ⟨fun h => hzero ▸ increases_le hg hy0 h, fun h => hzero ▸ increases_le hg hroot h, fun hz => ?_⟩
    rcases lt_trichotomy y (j * 2 ^ e) with h | h | h
    · exact absurd (hg _ _ hy0 h) (by rw [hz, hzero]; exact lt_irrefl 0)
    · exact h
    · exact absurd (hg _ _ hroot h) (by rw [hz, hzero]; exact lt_irrefl 0)

/-- The magnitude to which the located number rounds rounds the root. -/
theorem roundsRoot_of_picks {mode : Nat} {s : Rat} (hs : fp32.locates g s) {k : Nat} (hk : fp32.picks mode false s k) (hk0 : k ≠ 0)
    (hle : k ≤ fp32.largest) {r : Nat × Nat} (hr : r = (k, if fp32.mag k = s then 0 else fNX)) : roundsRoot mode g r := by
  have hvalue : (fp32.value k).rat = some (fp32.mag k) := by
    have h := regular_fp32.value_signBit (neg := false) hle
    rwa [show fp32.signBit false = 0 from rfl, Nat.zero_add, sgn, if_neg Bool.false_ne_true, one_mul] at h
  have hfinite : ∀ y u, (fp32.value y).rat = some u → 0 ≤ u → ∃ j, u = fp32.mag j := fun y u hu h0 => by
    obtain ⟨n, j, rfl⟩ := Fmt.exists_sgn_mag hu
    cases n
    · exact ⟨j, by simp [sgn]⟩
    · refine ⟨0, ?_⟩
      rw [sgn, if_pos rfl] at h0 ⊢
      have := fp32.mag_nonneg j
      rw [fp32.mag_zero]
      linarith
  have hzero : g (fp32.mag k) = 0 ↔ fp32.mag k = s := by
    obtain ⟨hlow, hhigh, heq⟩ := hs _ (fp32.mark_mag k)
    exact ⟨heq, fun h => le_antisymm (hlow h.le) (hhigh h.ge)⟩
  have hbelow : ∀ {y u}, fp32.mark y → 0 ≤ u → u ≤ y → y < s → g u < 0 := fun hy hu huy hys => by
    obtain ⟨hlow, -, heq⟩ := hs _ hy
    exact (increases_le hg hu huy).trans_lt ((hlow hys.le).lt_of_ne fun h => hys.ne (heq h))
  have habove : ∀ {y u}, fp32.mark y → y ≤ u → s < y → 0 < g u := fun hy huy hys => by
    obtain ⟨-, hhigh, heq⟩ := hs _ hy
    exact ((hhigh hys.le).lt_of_ne fun h => hys.ne' (heq h.symm)).trans_le (increases_le hg (Fmt.mark_nonneg hy) huy)
  subst hr
  refine ⟨_, fp32.mag_pos hk0, hvalue, by simp only [hzero], ?_, ?_, ?_⟩
  · rintro rfl y u hu hu0
    obtain ⟨j, rfl⟩ := hfinite y u hu hu0
    rw [Fmt.picks, if_pos rfl] at hk
    obtain ⟨hlow, hhigh, -⟩ := hk
    constructor
    · intro hlt
      have hjk : fp32.mag (k + 1) ≤ fp32.mag j := fp32.mag_strictMono.monotone (fp32.mag_strictMono.lt_iff_lt.1 hlt)
      refine ((hs _ (fp32.mark_mid k)).2.1 hhigh).trans (increases_le hg (Fmt.mark_nonneg (fp32.mark_mid k)) ?_)
      unfold Fmt.mid
      linarith
    · intro hlt
      obtain ⟨i, rfl⟩ : ∃ i, k = i + 1 := ⟨k - 1, by omega⟩
      have hji : fp32.mag j ≤ fp32.mag i := fp32.mag_strictMono.monotone (Nat.lt_succ_iff.1 (fp32.mag_strictMono.lt_iff_lt.1 hlt))
      have := fp32.mag_nonneg (i + 1)
      refine (increases_le hg (by linarith) ?_).trans ((hs _ (fp32.mark_mid i)).1 (hlow i rfl).1)
      unfold Fmt.mid
      linarith
  · intro hmode
    have hpicks : fp32.mag k ≤ s ∧ ¬ fp32.mag (k + 1) ≤ s := by
      rcases hmode with rfl | rfl <;> exact hk
    refine ⟨(hs _ (fp32.mark_mag k)).1 hpicks.1, fun y u hu hu0 hle => ?_⟩
    obtain ⟨j, rfl⟩ := hfinite y u hu hu0
    by_contra hlt
    have hkj : fp32.mag (k + 1) ≤ fp32.mag j := fp32.mag_strictMono.monotone (fp32.mag_strictMono.lt_iff_lt.1 (not_le.1 hlt))
    exact not_lt.2 hle (habove (fp32.mark_mag (k + 1)) hkj (not_le.1 hpicks.2))
  · rintro rfl
    obtain ⟨hlow, hhigh⟩ : (∀ j, k = j + 1 → ¬ s ≤ fp32.mag j) ∧ s ≤ fp32.mag k := hk
    refine ⟨(hs _ (fp32.mark_mag k)).2.1 hhigh, fun y u hu hu0 hge => ?_⟩
    obtain ⟨j, rfl⟩ := hfinite y u hu hu0
    by_contra hlt
    obtain ⟨i, rfl⟩ : ∃ i, k = i + 1 := ⟨k - 1, by omega⟩
    have hji : fp32.mag j ≤ fp32.mag i := fp32.mag_strictMono.monotone (Nat.lt_succ_iff.1 (fp32.mag_strictMono.lt_iff_lt.1 (not_le.1 hlt)))
    exact not_lt.2 hge (hbelow (fp32.mark_mag i) hu0 hji (not_le.1 (hlow i rfl)))

omit hg in
/-- The greatest FP32 numbers reach beyond 2^127. -/
theorem mag_largest_fp32 : (2 : Rat) ^ (127 : Int) ≤ fp32.mag fp32.largest := by
  have h : fp32.mag (253 * 2 ^ 23 + 2 ^ 23) = (2 ^ 23 : Nat) * (2 ^ 253 * fp32.unit) := fp32.mag_scaled (by decide) (.inr le_rfl)
  have hunit : fp32.unit = 2 ^ (-149 : Int) := rfl
  calc (2 : Rat) ^ (127 : Int) = 2 ^ (23 : Int) * (2 ^ (253 : Int) * 2 ^ (-149 : Int)) := by
        rw [← zpow_add₀ two_ne_zero, ← zpow_add₀ two_ne_zero]
        rfl
    _ = fp32.mag (253 * 2 ^ 23 + 2 ^ 23) := by
        rw [h, hunit]
        exact_mod_cast rfl
    _ ≤ fp32.mag fp32.largest := fp32.mag_strictMono.monotone (by decide)

/-- Digits of a root within the normal numbers deliver the root rounded. -/
theorem roundsRoot_sticky (c : FCtx) {j : Nat} (hj : 2 ^ 25 ≤ j) {e : Int} {isExact : Bool} (hexact : isExact = true ↔ g (j * 2 ^ e) = 0)
    (hlo : g (j * 2 ^ e) ≤ 0) (hhi : 0 < g ((j + 1) * 2 ^ e)) (hmin : (2 : Rat) ^ (-126 : Int) ≤ j * 2 ^ e)
    (hmax : ((j : Rat) + 1) * 2 ^ e ≤ 2 ^ (127 : Int)) : roundsRoot c.mode g (fp32.deliver c [] (sticky false j e isExact)) := by
  have hj0 : j ≠ 0 := by omega
  obtain ⟨k, hk, hr⟩ := Fmt.deliver_sticky regular_fp32.mb_pos c false hj0 e isExact
  have hs : (j : Rat) * 2 ^ e ≤ stickyValue j e isExact ∧ stickyValue j e isExact ≤ (j + 1) * 2 ^ e := by
    have hpos := two_zpow_pos e
    obtain ⟨hlow, hhigh⟩ := half_step_between j e
    cases isExact
    · exact ⟨hlow.le, hhigh.le⟩
    · exact ⟨le_rfl, by rw [stickyValue, if_pos rfl]; linarith⟩
  have hnormal : 2 ^ fp32.mb ≤ k := Fmt.picks_ge hk (fp32.mag_normal.trans_le (hmin.trans hs.1))
  have hfinite : k ≤ fp32.largest := Fmt.picks_le hk (hs.2.trans (hmax.trans mag_largest_fp32))
  refine roundsRoot_of_picks hg (Fmt.locates_sticky hg hj hexact hlo hhi) hk (by have := Nat.two_pow_pos fp32.mb; omega) hfinite (hr.trans ?_)
  have htiny : ¬ stickyValue j e isExact < 2 ^ fp32.emin := not_lt.2 (hmin.trans hs.1)
  have hflush : (fp32.wide && c.ftz && k != 0 && decide (k < 2 ^ fp32.mb)) = false := by
    rw [decide_eq_false (not_lt.2 hnormal), Bool.and_false]
  rw [Fmt.finish, if_neg (not_lt.2 hfinite), hflush, if_neg Bool.false_ne_true, if_neg htiny]
  exact congrArg (·, _) (Nat.zero_add k)

end

/-! ### The integer square root -/

theorem isqrtAux_spec (n k r : Nat) (hlo : r * r ≤ n) (hhi : n < (r + 2 ^ k) * (r + 2 ^ k)) :
    isqrtAux n k r * isqrtAux n k r ≤ n ∧ n < (isqrtAux n k r + 1) * (isqrtAux n k r + 1) := by
  induction k generalizing r with
  | zero => exact ⟨hlo, hhi⟩
  | succ k ih =>
    have hstep : isqrtAux n (k + 1) r = isqrtAux n k (if (r + 2 ^ k) * (r + 2 ^ k) ≤ n then r + 2 ^ k else r) := rfl
    rw [hstep]
    split
    · exact ih _ ‹_› (by rwa [Nat.add_assoc, ← two_mul, ← pow_succ'])
    · exact ih _ hlo (not_le.1 ‹_›)

theorem isqrt_spec (n : Nat) : isqrt n * isqrt n ≤ n ∧ n < (isqrt n + 1) * (isqrt n + 1) := by
  refine isqrtAux_spec n _ 0 (Nat.zero_le _) ?_
  rw [Nat.zero_add, ← pow_add]
  exact Nat.lt_log2_self.trans_le (Nat.pow_le_pow_right two_pos (by omega))

/-! ### FRCP, FSQRT and FRSQ (R99, R309) -/

/-- The digits and the place of a finite FP32 operand. -/
theorem operand_bounds {c : FCtx} {a : Nat} {n : Bool} {m : Nat} {e : Int} (h : c.operand fp32 a = .fin n m e) :
    m < 2 ^ 24 ∧ -149 ≤ e ∧ e ≤ 105 := by
  have hvalue : ∀ (f : Fmt) x, f.value x = .fin n m e → m < 2 ^ (f.mb + 1) ∧ f.emin - f.mb ≤ e ∧ e ≤ f.emin - f.mb + (f.largest / 2 ^ f.mb : Nat) := by
    intro f x h
    have hfrac := Nat.mod_lt (x % 2 ^ f.magBits) (Nat.two_pow_pos f.mb)
    have hdouble : 2 ^ (f.mb + 1) = 2 * 2 ^ f.mb := pow_succ' ..
    unfold Fmt.value at h
    dsimp only at h
    split at h
    · split at h <;> cases h
    · have hdiv : x % 2 ^ f.magBits / 2 ^ f.mb ≤ f.largest / 2 ^ f.mb := Nat.div_le_div_right (not_lt.1 ‹_›)
      split at h
      · cases h
        exact ⟨by omega, le_rfl, Int.le_add_of_nonneg_right (Int.natCast_nonneg _)⟩
      · rename_i hbeq
        have hex : x % 2 ^ f.magBits / 2 ^ f.mb ≠ 0 := fun h => hbeq (beq_iff_eq.2 h)
        cases h
        generalize x % 2 ^ f.magBits / 2 ^ f.mb = ex at *
        exact ⟨by omega, by omega, by omega⟩
  unfold FCtx.operand at h
  split at h <;> exact hvalue fp32 _ h

theorem one_div_sgn_mul (n : Bool) (x : Rat) : 1 / (sgn n * x) = sgn n * (1 / x) := by
  cases n <;> simp [sgn, div_neg]

/-- The digits of a quotient of naturals. -/
theorem natDiv_digits {k m : Nat} (hm : m ≠ 0) : ((k % m == 0) = true → (k : Rat) / m = (k / m : Nat)) ∧
    ((k % m == 0) = false → ((k / m : Nat) : Rat) < k / m ∧ (k : Rat) / m < (k / m : Nat) + 1) := by
  have hpos : (0 : Rat) < m := by exact_mod_cast Nat.pos_of_ne_zero hm
  have hdiv : ((k / m : Nat) : Rat) * m + (k % m : Nat) = k := by exact_mod_cast Nat.div_add_mod' k m
  have hmod : ((k % m : Nat) : Rat) < m := by exact_mod_cast Nat.mod_lt k (Nat.pos_of_ne_zero hm)
  constructor
  · intro h
    rw [beq_iff_eq.1 h, Nat.cast_zero, add_zero] at hdiv
    rw [← hdiv, mul_div_cancel_right₀ _ hpos.ne']
  · intro h
    have hrem : (0 : Rat) < (k % m : Nat) := by exact_mod_cast Nat.pos_of_ne_zero (beq_eq_false_iff_ne.1 h)
    rw [lt_div_iff₀ hpos, div_lt_iff₀ hpos, add_mul, one_mul]
    constructor <;> linarith

section
variable {c : FCtx} {a : Nat} {n : Bool} {m : Nat} {e : Int} (hm : m ≠ 0)

include hm

theorem fRcp_rounds (hx : c.operand fp32 a = .fin n m e) (hmode : c.mode ≤ 3) : fp32.rounds c (1 / ratOf n m e) (fRcp c a) := by
  have hdigits : 2 ^ (23 + 2) ≤ 2 ^ (m.log2 + 40) / m := by
    rw [Nat.le_div_iff_mul_le (Nat.pos_of_ne_zero hm)]
    calc 2 ^ (23 + 2) * m ≤ 2 ^ (23 + 2) * 2 ^ (m.log2 + 1) := Nat.mul_le_mul_left _ Nat.lt_log2_self.le
      _ = 2 ^ (23 + 2 + (m.log2 + 1)) := (pow_add ..).symm
      _ ≤ 2 ^ (m.log2 + 40) := Nat.pow_le_pow_right two_pos (by omega)
  have hvalue : 1 / (m * (2 : Rat) ^ e) = (2 ^ (m.log2 + 40) : Nat) / m * 2 ^ (-e - (m.log2 + 40 : Nat)) := by
    rw [← two_zpow_natCast, zpow_sub₀ two_ne_zero, zpow_neg]
    field_simp
  obtain ⟨hexact, hmore⟩ := natDiv_digits (k := 2 ^ (m.log2 + 40)) hm
  have hpos := two_zpow_pos (-e - (m.log2 + 40 : Nat))
  have hrcp : fRcp c a = fp32.deliver c [] (rcpExact n m e) := by
    rw [fRcp, hx]
    exact if_neg (by simpa using hm)
  rw [hrcp, ratOf_eq, one_div_sgn_mul, hvalue]
  refine regular_fp32.rounds_sticky hmode n hdigits (fun h => by rw [hexact h]) fun h => ?_
  exact ⟨mul_lt_mul_of_pos_right (hmore h).1 hpos, mul_lt_mul_of_pos_right (hmore h).2 hpos⟩

end

/-! A root is taken of a number whose exponent is even. -/

/-- The digits of m × 2^e over an even exponent. -/
def evenDigits (m : Nat) (e : Int) : Nat := if e % 2 != 0 then 2 * m else m

/-- Half of that exponent. -/
def halfPlace (e : Int) : Int := (if e % 2 != 0 then e - 1 else e) / 2

theorem evenDigits_mul (m : Nat) (e : Int) : (m : Rat) * 2 ^ e = evenDigits m e * (2 ^ halfPlace e * 2 ^ halfPlace e) := by
  unfold evenDigits halfPlace
  rw [← zpow_add₀ two_ne_zero]
  by_cases h : e % 2 = 0
  · rw [h, if_neg (by decide), if_neg (by decide), show e / 2 + e / 2 = e by omega]
  · have hodd : (e % 2 != 0) = true := bne_iff_ne.2 h
    rw [hodd, if_pos rfl, if_pos rfl, show (e - 1) / 2 + (e - 1) / 2 = e - 1 by omega, zpow_sub_one₀ two_ne_zero]
    push_cast
    ring

theorem evenDigits_pos {m : Nat} (hm : m ≠ 0) (e : Int) : 0 < evenDigits m e := by
  unfold evenDigits
  split <;> omega

/-- The digits of a root lie within the normal numbers. -/
theorem root_bounds {j : Nat} (hj : 1 ≤ j) {e : Int} {q : Rat} (hlo : (j : Rat) * 2 ^ e * (j * 2 ^ e) ≤ q)
    (hhi : q < (j + 1) * 2 ^ e * ((j + 1) * 2 ^ e)) (hmin : (2 : Rat) ^ (-200 : Int) ≤ q) (hmax : q ≤ 2 ^ (200 : Int)) :
    (2 : Rat) ^ (-126 : Int) ≤ j * 2 ^ e ∧ ((j : Rat) + 1) * 2 ^ e ≤ 2 ^ (127 : Int) := by
  have hpos := two_zpow_pos e
  have hj1 : (1 : Rat) ≤ j := by exact_mod_cast hj
  have hdouble : ((j : Rat) + 1) * 2 ^ e ≤ 2 * (j * 2 ^ e) := by nlinarith
  constructor
  · by_contra hlt
    have h : ((j : Rat) + 1) * 2 ^ e * ((j + 1) * 2 ^ e) ≤ 2 * 2 ^ (-126 : Int) * (2 * 2 ^ (-126 : Int)) :=
      mul_self_le_mul_self (by positivity) (by linarith)
    have : (2 : Rat) * 2 ^ (-126 : Int) * (2 * 2 ^ (-126 : Int)) ≤ 2 ^ (-200 : Int) := by norm_num
    linarith
  · by_contra hlt
    have h : (2 : Rat) ^ (126 : Int) * 2 ^ (126 : Int) ≤ j * 2 ^ e * (j * 2 ^ e) :=
      mul_self_le_mul_self (by positivity) (by rw [show (127 : Int) = 126 + 1 from rfl, zpow_add_one₀ two_ne_zero] at hlt; linarith)
    have : (2 : Rat) ^ (200 : Int) < 2 ^ (126 : Int) * 2 ^ (126 : Int) := by norm_num
    linarith

theorem increases_square_sub (p : Rat) : increases fun u => u * u - p := fun _ _ hu huv => sub_lt_sub_right (mul_self_lt_mul_self hu huv) p

theorem increases_square_mul {p : Rat} (hp : 0 < p) : increases fun u => u * u * p - 1 :=
  fun _ _ hu huv => sub_lt_sub_right (mul_lt_mul_of_pos_right (mul_self_lt_mul_self hu huv) hp) 1

/-- Digits of a square root, as isqrt finds them. -/
theorem sqrt_digits (c : FCtx) {p : Rat} {r n : Nat} {h : Int} (hp : p = n * (2 ^ h * 2 ^ h)) (hr : 2 ^ 25 ≤ r) (hlo : r * r ≤ n)
    (hhi : n < (r + 1) * (r + 1)) (hmin : (2 : Rat) ^ (-200 : Int) ≤ p) (hmax : p ≤ 2 ^ (200 : Int)) :
    roundsRoot c.mode (fun u => u * u - p) (fp32.deliver c [] (sticky false r h (r * r == n))) := by
  have hpos := mul_pos (two_zpow_pos h) (two_zpow_pos h)
  have hsquare : ∀ u : Rat, u * 2 ^ h * (u * 2 ^ h) = u * u * (2 ^ h * 2 ^ h) := fun u => by ring
  have hlow : (r : Rat) * 2 ^ h * (r * 2 ^ h) ≤ p := by
    rw [hsquare, hp]
    exact mul_le_mul_of_nonneg_right (by exact_mod_cast hlo) hpos.le
  have hhigh : p < ((r : Rat) + 1) * 2 ^ h * ((r + 1) * 2 ^ h) := by
    rw [hsquare, hp]
    exact mul_lt_mul_of_pos_right (by exact_mod_cast hhi) hpos
  obtain ⟨hjmin, hjmax⟩ := root_bounds (le_trans (by norm_num) hr) hlow hhigh hmin hmax
  refine roundsRoot_sticky (increases_square_sub _) c hr ?_ (sub_nonpos.2 hlow) (sub_pos.2 hhigh) hjmin hjmax
  rw [sub_eq_zero, hsquare, hp, mul_left_inj' hpos.ne', beq_iff_eq]
  exact_mod_cast Iff.rfl

/-- Digits of the reciprocal of a square root, as isqrt finds them. -/
theorem rsq_digits (c : FCtx) {p : Rat} {r n k : Nat} {h : Int} (hp : p * (2 ^ h * 2 ^ h) = n / 2 ^ k) (hp0 : 0 < p) (hr : 2 ^ 25 ≤ r)
    (hlo : r * r * n ≤ 2 ^ k) (hhi : 2 ^ k < (r + 1) * (r + 1) * n) (hmin : (2 : Rat) ^ (-200 : Int) ≤ 1 / p) (hmax : 1 / p ≤ 2 ^ (200 : Int)) :
    roundsRoot c.mode (fun u => u * u * p - 1) (fp32.deliver c [] (sticky false r h (r * r * n == 2 ^ k))) := by
  have hpow : (0 : Rat) < 2 ^ k := pow_pos two_pos _
  have hsquare : ∀ u : Rat, u * 2 ^ h * (u * 2 ^ h) * p = u * u * n / 2 ^ k := fun u => by
    rw [mul_div_assoc, ← hp]
    ring
  have hlow : (r : Rat) * 2 ^ h * (r * 2 ^ h) * p ≤ 1 := by
    rw [hsquare, div_le_one hpow]
    exact_mod_cast hlo
  have hhigh : 1 < ((r : Rat) + 1) * 2 ^ h * ((r + 1) * 2 ^ h) * p := by
    rw [hsquare, one_lt_div hpow]
    exact_mod_cast hhi
  obtain ⟨hjmin, hjmax⟩ := root_bounds (le_trans (by norm_num) hr) ((le_div_iff₀ hp0).2 hlow) ((div_lt_iff₀ hp0).2 hhigh) hmin hmax
  refine roundsRoot_sticky (increases_square_mul hp0) c hr ?_ (sub_nonpos.2 hlow) (sub_pos.2 hhigh) hjmin hjmax
  rw [sub_eq_zero, hsquare, div_eq_one_iff_eq hpow.ne', beq_iff_eq]
  exact_mod_cast Iff.rfl

theorem sqrtExact_eq (m : Nat) (e : Int) :
    let r := isqrt (evenDigits m e * 2 ^ 60)
    sqrtExact m e = sticky false r (halfPlace e - 30) (r * r == evenDigits m e * 2 ^ 60) := by
  unfold sqrtExact evenDigits halfPlace
  rfl

theorem rsqExact_eq (m : Nat) (e : Int) :
    let p := (evenDigits m e).log2 + 40
    let r := isqrt (2 ^ (2 * p) / evenDigits m e)
    rsqExact m e = sticky false r (-halfPlace e - p) (r * r * evenDigits m e == 2 ^ (2 * p)) := by
  unfold rsqExact evenDigits halfPlace
  rfl

/-- The integer square root of a long number is long. -/
theorem isqrt_ge {n k : Nat} (h : k * k ≤ n) : k ≤ isqrt n := by
  by_contra hlt
  exact absurd ((isqrt_spec n).2.trans_le ((Nat.mul_le_mul (by omega) (by omega)).trans h)) (lt_irrefl n)

section
variable {c : FCtx} {a : Nat} {m : Nat} {e : Int} (hm : m ≠ 0) (hx : c.operand fp32 a = .fin false m e)

include hm hx

/-- A positive FP32 number is between two powers of two. -/
theorem operand_range : (2 : Rat) ^ (-149 : Int) ≤ m * 2 ^ e ∧ (m : Rat) * 2 ^ e ≤ 2 ^ (129 : Int) := by
  obtain ⟨hlt, hmin, hmax⟩ := operand_bounds hx
  have hm1 : (1 : Rat) ≤ m := by exact_mod_cast Nat.pos_of_ne_zero hm
  have hm24 : (m : Rat) ≤ 2 ^ (24 : Int) := by exact_mod_cast hlt.le
  constructor
  · calc (2 : Rat) ^ (-149 : Int) ≤ 2 ^ e := zpow_le_zpow_right₀ one_le_two hmin
      _ ≤ m * 2 ^ e := le_mul_of_one_le_left (two_zpow_pos e).le hm1
  · calc (m : Rat) * 2 ^ e ≤ 2 ^ (24 : Int) * 2 ^ (105 : Int) :=
          mul_le_mul hm24 (zpow_le_zpow_right₀ one_le_two hmax) (two_zpow_pos e).le (two_zpow_pos _).le
      _ = 2 ^ (129 : Int) := (zpow_add₀ two_ne_zero _ _).symm

omit hx in
theorem root_operand (hx : c.operand fp32 a = .fin false m e) :
    fSqrt c a = fp32.deliver c [] (sqrtExact m e) ∧ fRsq c a = fp32.deliver c [] (rsqExact m e) := by
  have hzero : ¬ (m == 0) = true := by simpa using hm
  rw [fSqrt, fRsq, hx]
  exact ⟨(if_neg hzero).trans (if_neg Bool.false_ne_true), (if_neg hzero).trans (if_neg Bool.false_ne_true)⟩

theorem fSqrt_rounds : roundsRoot c.mode (fun u => u * u - m * 2 ^ e) (fSqrt c a) := by
  rw [(root_operand hm hx).1, sqrtExact_eq]
  obtain ⟨hmin, hmax⟩ := operand_range hm hx
  obtain ⟨hlo, hhi⟩ := isqrt_spec (evenDigits m e * 2 ^ 60)
  refine sqrt_digits c ?_ (isqrt_ge ?_) hlo hhi (le_trans (by norm_num) hmin) (hmax.trans (by norm_num))
  · rw [evenDigits_mul, zpow_sub₀ two_ne_zero]
    push_cast
    ring
  · exact le_trans (by norm_num) (Nat.le_mul_of_pos_left (2 ^ 60) (evenDigits_pos hm e))

theorem fRsq_rounds : roundsRoot c.mode (fun u => u * u * (m * 2 ^ e) - 1) (fRsq c a) := by
  rw [(root_operand hm hx).2, rsqExact_eq]
  obtain ⟨hmin, hmax⟩ := operand_range hm hx
  have hE := evenDigits_pos hm e
  have hp0 : (0 : Rat) < m * 2 ^ e := (two_zpow_pos _).trans_le hmin
  obtain ⟨hlo, hhi⟩ := isqrt_spec (2 ^ (2 * ((evenDigits m e).log2 + 40)) / evenDigits m e)
  refine rsq_digits c ?_ hp0 (isqrt_ge ?_) ((Nat.mul_le_mul_right _ hlo).trans (Nat.div_mul_le_self _ _)) ((Nat.div_lt_iff_lt_mul hE).1 hhi) ?_ ?_
  · rw [evenDigits_mul, mul_assoc, div_eq_mul_inv]
    congr 1
    rw [← zpow_natCast, ← zpow_neg, ← zpow_add₀ two_ne_zero, ← zpow_add₀ two_ne_zero, ← zpow_add₀ two_ne_zero]
    congr 1
    push_cast
    ring
  · rw [Nat.le_div_iff_mul_le hE]
    calc 2 ^ 25 * 2 ^ 25 * evenDigits m e ≤ 2 ^ 25 * 2 ^ 25 * 2 ^ ((evenDigits m e).log2 + 1) := Nat.mul_le_mul_left _ Nat.lt_log2_self.le
      _ = 2 ^ (25 + 25 + ((evenDigits m e).log2 + 1)) := by rw [pow_add 2 (25 + 25), pow_add 2 25]
      _ ≤ 2 ^ (2 * ((evenDigits m e).log2 + 40)) := Nat.pow_le_pow_right two_pos (by omega)
  · exact le_trans (by norm_num) (one_div_le_one_div_of_le hp0 hmax)
  · exact (one_div_le_one_div_of_le (two_zpow_pos _) hmin).trans (by norm_num)

end

end
end Sys2Proof.Machine

namespace Sys2Proof.Machine

section

/-! ### The series behind FEXP2 and FLOG2 (log 9)

Every division of the fixed-point arithmetic cuts down, so that each sum is at most that of its series. -/

/-- One in units of 2^-fixBits. -/
def fixOne : Nat := 2 ^ fixBits

theorem fixOne_pos : (0 : ℝ) < fixOne := by exact_mod_cast Nat.two_pow_pos fixBits

/-- The terms of e^y, from one that its series bounds on. -/
theorem expSum_le (z : Nat) (n i t : Nat) (ht : (t : ℝ) ≤ fixOne * ((z / fixOne : ℝ) ^ i / i.factorial)) :
    (expSum z n i t : ℝ) ≤ fixOne * ∑ j ∈ Finset.range n, (z / fixOne : ℝ) ^ (i + j) / (i + j).factorial := by
  induction n generalizing i t with
  | zero => simp [expSum]
  | succ n ih =>
    have hpos := fixOne_pos
    have hstep : expSum z (n + 1) i t = t + expSum z n (i + 1) (t * z / fixOne / (i + 1)) := rfl
    have hnext : ((t * z / fixOne / (i + 1) : Nat) : ℝ) ≤ fixOne * ((z / fixOne : ℝ) ^ (i + 1) / (i + 1).factorial) := by
      calc ((t * z / fixOne / (i + 1) : Nat) : ℝ) ≤ (t * z / fixOne : Nat) / ((i + 1 : Nat) : ℝ) := Nat.cast_div_le
        _ ≤ ((t * z : Nat) : ℝ) / fixOne / ((i + 1 : Nat) : ℝ) := div_le_div_of_nonneg_right Nat.cast_div_le (Nat.cast_nonneg _)
        _ = t * (z / fixOne) / ((i + 1 : Nat) : ℝ) := by push_cast; ring
        _ ≤ fixOne * ((z / fixOne : ℝ) ^ i / i.factorial) * (z / fixOne) / ((i + 1 : Nat) : ℝ) :=
          div_le_div_of_nonneg_right (mul_le_mul_of_nonneg_right ht (by positivity)) (Nat.cast_nonneg _)
        _ = fixOne * ((z / fixOne : ℝ) ^ (i + 1) / (i + 1).factorial) := by
          rw [Nat.factorial_succ, pow_succ]
          push_cast
          field_simp
    rw [hstep, Finset.sum_range_succ', mul_add, Nat.cast_add, add_comm, add_zero]
    refine add_le_add ((ih (i + 1) _ hnext).trans_eq ?_) ht
    refine congrArg ((fixOne : ℝ) * ·) (Finset.sum_congr rfl fun j _ => ?_)
    rw [show i + 1 + j = i + (j + 1) by omega]

theorem expSum_le_exp (z n : Nat) : (expSum z n 0 fixOne : ℝ) ≤ fixOne * Real.exp (z / fixOne) := by
  have h := expSum_le z n 0 fixOne (by simp)
  simp only [Nat.zero_add] at h
  exact h.trans (mul_le_mul_of_nonneg_left (Real.sum_le_exp_of_nonneg (by positivity) n) fixOne_pos.le)

/-- The terms of atanh x, from a power that x bounds on. -/
theorem atanhSum_le {x : ℝ} (zz : Nat) (hzz : (zz : ℝ) ≤ fixOne * x ^ 2) (n i t : Nat) (ht : (t : ℝ) ≤ fixOne * x ^ (2 * i + 1)) :
    (atanhSum zz n i t : ℝ) ≤ fixOne * ∑ j ∈ Finset.range n, x ^ (2 * (i + j) + 1) / ((2 * (i + j) + 1 : Nat) : ℝ) := by
  induction n generalizing i t with
  | zero => simp [atanhSum]
  | succ n ih =>
    have hpos := fixOne_pos
    have hstep : atanhSum zz (n + 1) i t = t / (2 * i + 1) + atanhSum zz n (i + 1) (t * zz / fixOne) := rfl
    have hhead : ((t / (2 * i + 1) : Nat) : ℝ) ≤ fixOne * (x ^ (2 * i + 1) / ((2 * i + 1 : Nat) : ℝ)) := by
      rw [← mul_div_assoc]
      exact Nat.cast_div_le.trans (div_le_div_of_nonneg_right ht (Nat.cast_nonneg _))
    have hnext : ((t * zz / fixOne : Nat) : ℝ) ≤ fixOne * x ^ (2 * (i + 1) + 1) := by
      calc ((t * zz / fixOne : Nat) : ℝ) ≤ ((t * zz : Nat) : ℝ) / fixOne := Nat.cast_div_le
        _ = t * zz / fixOne := by push_cast; rfl
        _ ≤ fixOne * x ^ (2 * i + 1) * (fixOne * x ^ 2) / fixOne :=
          div_le_div_of_nonneg_right (mul_le_mul ht hzz (Nat.cast_nonneg _) ((Nat.cast_nonneg _).trans ht)) hpos.le
        _ = fixOne * x ^ (2 * (i + 1) + 1) := by
          rw [show 2 * (i + 1) + 1 = 2 * i + 1 + 2 by omega, pow_add x (2 * i + 1)]
          field_simp
    rw [hstep, Finset.sum_range_succ', mul_add, Nat.cast_add, add_comm, add_zero]
    refine add_le_add ((ih (i + 1) _ hnext).trans_eq ?_) hhead
    refine congrArg ((fixOne : ℝ) * ·) (Finset.sum_congr rfl fun j _ => ?_)
    rw [show i + 1 + j = i + (j + 1) by omega]

/-- The constant of log 9 is no more than ln 2. -/
theorem ln2Fix_le : (ln2Fix : ℝ) ≤ fixOne * Real.log 2 := by
  have hpos := fixOne_pos
  have hz : ((1 * fixOne / 3 : Nat) : ℝ) ≤ fixOne * (1 / 3) := Nat.cast_div_le.trans_eq (by push_cast; ring)
  have hzz : (((1 * fixOne / 3) * (1 * fixOne / 3) / fixOne : Nat) : ℝ) ≤ fixOne * (1 / 3) ^ 2 := by
    calc _ ≤ (((1 * fixOne / 3) * (1 * fixOne / 3) : Nat) : ℝ) / fixOne := Nat.cast_div_le
      _ ≤ fixOne * (1 / 3) * (fixOne * (1 / 3)) / fixOne := by
        rw [Nat.cast_mul]
        exact div_le_div_of_nonneg_right (mul_self_le_mul_self (Nat.cast_nonneg _) hz) hpos.le
      _ = fixOne * (1 / 3) ^ 2 := by field_simp
  have hsum := atanhSum_le _ hzz 110 0 _ (by simpa using hz)
  have hlog : 2 * ∑ j ∈ Finset.range 110, (1 / 3 : ℝ) ^ (2 * j + 1) / (2 * j + 1) ≤ Real.log 2 := by
    have h := Real.sum_range_le_log_div (x := 1 / 3) (by norm_num) (by norm_num) 110
    rw [show (1 + 1 / 3 : ℝ) / (1 - 1 / 3) = 2 by norm_num] at h
    linarith
  have hfix : (ln2Fix : ℝ) = 2 * (atanhSum ((1 * fixOne / 3) * (1 * fixOne / 3) / fixOne) 110 0 (1 * fixOne / 3) : Nat) := by
    rw [ln2Fix, Nat.cast_mul]
    rfl
  simp only [Nat.zero_add, Nat.cast_add, Nat.cast_mul, Nat.cast_ofNat, Nat.cast_one] at hsum
  calc (ln2Fix : ℝ) ≤ 2 * (fixOne * ∑ j ∈ Finset.range 110, (1 / 3 : ℝ) ^ (2 * j + 1) / (2 * j + 1)) := by
        rw [hfix]
        exact mul_le_mul_of_nonneg_left hsum two_pos.le
    _ = fixOne * (2 * ∑ j ∈ Finset.range 110, (1 / 3 : ℝ) ^ (2 * j + 1) / (2 * j + 1)) := mul_left_comm ..
    _ ≤ fixOne * Real.log 2 := mul_le_mul_of_nonneg_left hlog hpos.le

/-- Below ln 2 the sum of the exponential series is less than two. -/
theorem expSum_lt {fr k ln2 : Nat} (h : fr < 2 ^ k) (hln2 : (ln2 : ℝ) ≤ fixOne * Real.log 2) (n : Nat) :
    expSum (fr * ln2 / 2 ^ k) n 0 fixOne < 2 * fixOne := by
  have hpos := fixOne_pos
  have hlog : 0 < Real.log 2 := Real.log_pos one_lt_two
  have hk : (0 : ℝ) < 2 ^ k := pow_pos two_pos k
  have hfr : (fr : ℝ) < 2 ^ k := by exact_mod_cast h
  have hz : ((fr * ln2 / 2 ^ k : Nat) : ℝ) / fixOne < Real.log 2 := by
    rw [div_lt_iff₀ hpos]
    calc ((fr * ln2 / 2 ^ k : Nat) : ℝ) ≤ ((fr * ln2 : Nat) : ℝ) / ((2 ^ k : Nat) : ℝ) := Nat.cast_div_le
      _ = fr / 2 ^ k * ln2 := by push_cast; ring
      _ ≤ fr / 2 ^ k * (fixOne * Real.log 2) := mul_le_mul_of_nonneg_left hln2 (by positivity)
      _ < 1 * (fixOne * Real.log 2) := mul_lt_mul_of_pos_right ((div_lt_one hk).2 hfr) (mul_pos hpos hlog)
      _ = Real.log 2 * fixOne := by ring
  have hexp : Real.exp (((fr * ln2 / 2 ^ k : Nat) : ℝ) / fixOne) < 2 := by
    rw [← Real.exp_log two_pos]
    exact Real.exp_lt_exp.2 hz
  have hlt : (expSum (fr * ln2 / 2 ^ k) n 0 fixOne : ℝ) < fixOne * 2 := (expSum_le_exp _ n).trans_lt (mul_lt_mul_of_pos_left hexp hpos)
  rw [mul_comm (fixOne : ℝ) 2] at hlt
  exact_mod_cast hlt

/-- The first term of the exponential series is one. -/
theorem le_expSum (z n i t : Nat) : t ≤ expSum z (n + 1) i t := Nat.le_add_right _ _

end
end Sys2Proof.Machine

namespace Sys2Proof.Machine

section

/-! ### Numbers of the format, and those far from its range -/

section
variable {f : Fmt} (hf : f.Regular) (c : FCtx) (neg : Bool) {m : Nat} {e : Int}

include hf

/-- A number of the format is delivered as it is. -/
theorem Fmt.Regular.round_mag {k : Nat} (hk : (m : Rat) * 2 ^ e = f.mag k) (hk0 : k ≠ 0) (hle : k ≤ f.largest)
    (hftz : c.ftz = false ∨ 2 ^ f.mb ≤ k) : f.round c neg m e = (f.signBit neg + k, 0) := by
  have hm : m ≠ 0 := by
    rintro rfl
    rw [Nat.cast_zero, zero_mul] at hk
    exact (f.mag_pos hk0).ne hk
  obtain ⟨l, hl, hr⟩ := f.round_eq_finish hm e hf.mb_pos c neg
  obtain rfl : l = k := le_antisymm (Fmt.picks_le hl hk.le) (Fmt.picks_ge hl hk.ge)
  have hflush : (f.wide && c.ftz && l != 0 && decide (l < 2 ^ f.mb)) = false := by
    rcases hftz with h | h
    · rw [h, Bool.and_false, Bool.false_and, Bool.false_and]
    · rw [decide_eq_false (not_lt.2 h), Bool.and_false]
  rw [hr, Fmt.finish, if_neg (not_lt.2 hle), hflush, if_neg Bool.false_ne_true, if_pos hk.symm]

/-- All numbers from the first beyond the largest on overflow alike. -/
theorem Fmt.Regular.round_overflow (hm : m ≠ 0) (h : f.mag (f.largest + 1) ≤ m * 2 ^ e) :
    f.round c neg m e = (f.signBit neg + (if c.sat then f.largest else f.overflow c.mode neg), fOF + fNX) := by
  obtain ⟨k, hk, hr⟩ := f.round_eq_finish hm e hf.mb_pos c neg
  rw [hr]
  exact if_pos (Fmt.picks_ge hk h)

omit hf in
/-- All positive numbers below half of the least subnormal one lie alike. -/
theorem Fmt.alike_of_small {x s : Rat} (hx : 0 < x ∧ x < f.mid 0) (hs : 0 < s ∧ s < f.mid 0) : f.alike x s := by
  have hmark : ∀ y, f.mark y → y = 0 ∨ f.mid 0 ≤ y := by
    rintro y ⟨k, rfl | rfl⟩
    · rcases Nat.eq_zero_or_pos k with rfl | hk
      · exact .inl f.mag_zero
      · exact .inr ((f.mid_lt_mag 0).le.trans (f.mag_strictMono.monotone hk))
    · exact .inr (f.mid_strictMono.monotone (Nat.zero_le k))
  intro y hy
  rcases hmark y hy with rfl | h
  · exact ⟨iff_of_true hx.1.le hs.1.le, iff_of_false (not_le.2 hx.1) (not_le.2 hs.1)⟩
  · exact ⟨iff_of_false (not_le.2 (hx.2.trans_le h)) (not_le.2 (hs.2.trans_le h)), iff_of_true (hx.2.le.trans h) (hs.2.le.trans h)⟩

/-- A number that lies as another does is rounded by rounding the other. -/
theorem Fmt.Regular.rounds_round_alike (hmode : c.mode ≤ 3) (hm : m ≠ 0) {x : Rat} (hx : 0 < x) (h : f.alike x (m * 2 ^ e)) :
    f.rounds c (sgn neg * x) (f.round c neg m e) := by
  obtain ⟨k, hk, hr⟩ := f.round_eq_finish hm e hf.mb_pos c neg
  rw [hr, ← Fmt.finish_alike h]
  exact hf.rounds_finish hmode hx ((Fmt.picks_alike h _ _ _).2 hk)

end

/-! The powers of two in FP32. -/

theorem unit_fp32 : fp32.unit = 2 ^ (-149 : Int) := rfl

theorem mag_fp32 {t n : Nat} (hn : n ≤ 2 ^ 24) (ht : t = 0 ∨ 2 ^ 23 ≤ n) : fp32.mag (t * 2 ^ 23 + n) = n * 2 ^ ((t : Int) - 149) := by
  have h : fp32.mag (t * 2 ^ 23 + n) = n * (2 ^ t * fp32.unit) := fp32.mag_scaled hn ht
  rw [h, unit_fp32, ← zpow_natCast, ← zpow_add₀ two_ne_zero]
  rfl

theorem mag_normal_fp32 {n : Int} (h : -126 ≤ n) : fp32.mag ((n + 127).toNat * 2 ^ 23) = 2 ^ n := by
  have hk : (n + 127).toNat * 2 ^ 23 = (n + 126).toNat * 2 ^ 23 + 2 ^ 23 := by omega
  rw [hk, mag_fp32 (by norm_num) (.inr le_rfl), ← two_zpow_natCast, ← zpow_add₀ two_ne_zero]
  congr 1
  push_cast
  omega

theorem mag_subnormal_fp32 {n : Int} (h : -149 ≤ n) (h' : n < -126) : fp32.mag (2 ^ (n + 149).toNat) = 2 ^ n := by
  have hle : 2 ^ (n + 149).toNat ≤ 2 ^ 24 := Nat.pow_le_pow_right two_pos (by omega)
  have hk := mag_fp32 (t := 0) hle (.inl rfl)
  rw [Nat.zero_mul, Nat.zero_add] at hk
  rw [hk, ← two_zpow_natCast, ← zpow_add₀ two_ne_zero]
  congr 1
  push_cast
  omega

/-- The least number beyond the largest is 2^128. -/
theorem mag_beyond_fp32 : fp32.mag (fp32.largest + 1) = 2 ^ (128 : Int) := mag_normal_fp32 (n := 128) (by decide)

/-- Half of the least subnormal number is 2^-150. -/
theorem mid_zero_fp32 : fp32.mid 0 = 2 ^ (-150 : Int) := by
  have h : fp32.mag 1 = 2 ^ (-149 : Int) := mag_subnormal_fp32 (n := -149) le_rfl (by decide)
  rw [Fmt.mid, fp32.mag_zero, Nat.zero_add, h, zero_add, show (-149 : Int) = -150 + 1 from rfl, zpow_add_one₀ two_ne_zero]
  ring

end
end Sys2Proof.Machine

namespace Sys2Proof.Machine

section

/-! ### FEXP2 (R99, R309) -/

/-- A finite operand below 2^8 in units of its last binary place. -/
def fixedPoint (neg : Bool) (m : Nat) (e : Int) : Int := if neg then -(m * 2 ^ e.toNat : Nat) else (m * 2 ^ e.toNat : Nat)

theorem ratOf_eq_fixedPoint (neg : Bool) (m : Nat) (e : Int) : ratOf neg m e = fixedPoint neg m e / 2 ^ (-e).toNat := by
  have hscale : (m : Rat) * 2 ^ e = m * 2 ^ e.toNat / 2 ^ (-e).toNat := by
    rw [mul_div_assoc, ← zpow_natCast, ← zpow_natCast, ← zpow_sub₀ two_ne_zero]
    congr 2
    omega
  rw [ratOf_eq, hscale, fixedPoint]
  cases neg <;> simp [sgn, neg_div]

theorem exp2Exact_large {neg : Bool} {m : Nat} {e : Int} (h : 8 ≤ (m.log2 : Int) + e) :
    exp2Exact neg m e = if neg then .num false 3 (-301) else .num false 1 300 := if_pos h

theorem exp2Exact_integer {neg : Bool} {m : Nat} {e : Int} (h : ¬ 8 ≤ (m.log2 : Int) + e) (hfr : fixedPoint neg m e % 2 ^ (-e).toNat = 0) :
    exp2Exact neg m e = .num false 1 (fixedPoint neg m e / 2 ^ (-e).toNat) := by
  have hz : ((fixedPoint neg m e % 2 ^ (-e).toNat).toNat == 0) = true := by rw [hfr]; rfl
  exact (if_neg h).trans (if_pos hz)

theorem exp2Exact_fraction {neg : Bool} {m : Nat} {e : Int} (h : ¬ 8 ≤ (m.log2 : Int) + e) (hfr : fixedPoint neg m e % 2 ^ (-e).toNat ≠ 0) :
    exp2Exact neg m e = sticky false (expSum ((fixedPoint neg m e % 2 ^ (-e).toNat).toNat * ln2Fix / 2 ^ (-e).toNat) 80 0 fixOne)
      (fixedPoint neg m e / 2 ^ (-e).toNat - fixBits) false := by
  have hz : ¬ ((fixedPoint neg m e % 2 ^ (-e).toNat).toNat == 0) = true := by
    have := Int.emod_nonneg (fixedPoint neg m e) (show (2 : Int) ^ (-e).toNat ≠ 0 by positivity)
    rw [beq_iff_eq]
    omega
  exact (if_neg h).trans (if_neg hz)

theorem log2_lt_iff_abs {neg : Bool} {m : Nat} (hm : m ≠ 0) (e : Int) : ¬ 8 ≤ (m.log2 : Int) + e ↔ |ratOf neg m e| < 256 := by
  rw [not_le, lt_emin_iff hm, ratOf_eq, abs_sgn_mul, abs_of_nonneg (mul_nonneg (Nat.cast_nonneg _) (two_zpow_pos e).le)]
  norm_num

/-- Digits between one and two, at the place that makes them a number between two powers of two. -/
theorem rounds_binade (c : FCtx) (hmode : c.mode ≤ 3) {j : Nat} (hlo : fixOne ≤ j) (hhi : j < 2 * fixOne) (n : Int) :
    ∃ v : Rat, (2 : Rat) ^ n < v ∧ v < (2 : Rat) ^ (n + 1) ∧ fp32.rounds c v (fp32.deliver c [] (sticky false j (n - fixBits) false)) := by
  have hpos := two_zpow_pos (n - fixBits)
  have hone : (fixOne : Rat) * 2 ^ (n - fixBits : Int) = 2 ^ n := by
    rw [fixOne, ← two_zpow_natCast, ← zpow_add₀ two_ne_zero, add_sub_cancel]
  obtain ⟨habove, hbelow⟩ := half_step_between j (n - fixBits)
  have hloR : (fixOne : Rat) ≤ j := by exact_mod_cast hlo
  have hhiR : (j : Rat) + 1 ≤ 2 * fixOne := by exact_mod_cast hhi
  refine ⟨ratOf false (2 * j + 1) (n - fixBits - 1), ?_, ?_, ?_⟩
  · rw [ratOf_eq, sgn, if_neg Bool.false_ne_true, one_mul, ← hone]
    exact (mul_le_mul_of_nonneg_right hloR hpos.le).trans_lt habove
  · rw [ratOf_eq, sgn, if_neg Bool.false_ne_true, one_mul, zpow_add_one₀ two_ne_zero, ← hone, mul_comm _ (2 : Rat), ← mul_assoc]
    exact hbelow.trans_le (mul_le_mul_of_nonneg_right hhiR hpos.le)
  · have hround := regular_fp32.rounds_round (c := c) false (n - fixBits - 1) (show 2 * j + 1 ≠ 0 by omega) hmode
    rwa [← fp32.deliver_num c [] (n - fixBits - 1) (show 2 * j + 1 ≠ 0 by omega)] at hround

section
variable {c : FCtx} {a : Nat} {neg : Bool} {m : Nat} {e : Int} (hm : m ≠ 0) (hx : c.operand fp32 a = .fin neg m e)

include hm hx

theorem fExp2_eq : fExp2 c a = fp32.deliver c [] (exp2Exact neg m e) := by
  rw [fExp2, hx]
  exact if_neg (by simpa using hm)

/-- 2^n is formed exactly. -/
theorem fExp2_integer {n : Int} (hp : ratOf neg m e = n) (hsmall : |(n : Rat)| < 256) : fExp2 c a = fp32.round c false 1 n := by
  have hlt : ¬ 8 ≤ (m.log2 : Int) + e := (log2_lt_iff_abs hm e).2 (by rw [hp]; exact hsmall)
  have hpow : (0 : Rat) < 2 ^ (-e).toNat := pow_pos two_pos _
  have hfix : fixedPoint neg m e = n * 2 ^ (-e).toNat := by
    rw [ratOf_eq_fixedPoint, div_eq_iff hpow.ne'] at hp
    exact_mod_cast hp
  rw [fExp2_eq hm hx, exp2Exact_integer hlt (by rw [hfix, Int.mul_emod_left]), hfix, Int.mul_ediv_cancel _ (by positivity)]
  exact fp32.deliver_num c [] n one_ne_zero

/-- Between two integers, the digits of the power lie between the two powers. -/
theorem fExp2_fraction (hmode : c.mode ≤ 3) {n : Int} (hlo : (n : Rat) < ratOf neg m e) (hhi : ratOf neg m e < n + 1)
    (hsmall : |ratOf neg m e| < 256) :
    ∃ v : Rat, (2 : Rat) ^ n < v ∧ v < (2 : Rat) ^ (n + 1) ∧ fp32.rounds c v (fExp2 c a) := by
  have hlt : ¬ 8 ≤ (m.log2 : Int) + e := (log2_lt_iff_abs hm e).2 hsmall
  have hpowR : (0 : Rat) < 2 ^ (-e).toNat := pow_pos two_pos _
  have hpow : (0 : Int) < 2 ^ (-e).toNat := pow_pos two_pos _
  rw [ratOf_eq_fixedPoint, lt_div_iff₀ hpowR] at hlo
  rw [ratOf_eq_fixedPoint, div_lt_iff₀ hpowR] at hhi
  have hloZ : n * 2 ^ (-e).toNat < fixedPoint neg m e := by exact_mod_cast hlo
  have hhiZ : fixedPoint neg m e < (n + 1) * 2 ^ (-e).toNat := by exact_mod_cast hhi
  have hdiv : fixedPoint neg m e / 2 ^ (-e).toNat = n :=
    le_antisymm (Int.lt_add_one_iff.1 ((Int.ediv_lt_iff_lt_mul hpow).2 hhiZ)) ((Int.le_ediv_iff_mul_le hpow).2 hloZ.le)
  have hmod : fixedPoint neg m e % 2 ^ (-e).toNat ≠ 0 := fun hz => by
    have := Int.mul_ediv_add_emod (fixedPoint neg m e) (2 ^ (-e).toNat)
    rw [hz, hdiv, add_zero, mul_comm] at this
    exact hloZ.ne this
  have hfr : (fixedPoint neg m e % 2 ^ (-e).toNat).toNat < 2 ^ (-e).toNat := by
    rw [Int.toNat_lt (Int.emod_nonneg _ hpow.ne')]
    exact_mod_cast Int.emod_lt_of_pos _ hpow
  have hS := expSum_lt hfr ln2Fix_le 80
  have hS' := le_expSum ((fixedPoint neg m e % 2 ^ (-e).toNat).toNat * ln2Fix / 2 ^ (-e).toNat) 79 0 fixOne
  rw [fExp2_eq hm hx, exp2Exact_fraction hlt hmod, hdiv]
  exact rounds_binade c hmode hS' hS n

/-- Beyond 2^128, a power overflows, however far it is. -/
theorem fExp2_beyond {n : Int} (hmode : c.mode ≤ 3) (hp : ratOf neg m e = n) (h : 256 ≤ n) : fp32.rounds c ((2 : Rat) ^ n) (fExp2 c a) := by
  have hlarge : 8 ≤ (m.log2 : Int) + e := not_not.1 fun hlt => by
    have := (log2_lt_iff_abs (neg := neg) hm e).1 hlt
    rw [hp, abs_lt] at this
    have : n < 256 := by exact_mod_cast this.2
    omega
  have hneg : neg = false := by
    have hpos : (0 : Rat) < m * 2 ^ e := mul_pos (by exact_mod_cast Nat.pos_of_ne_zero hm) (two_zpow_pos e)
    rw [← sgn_mul_pos_iff neg hpos, ← ratOf_eq, hp]
    exact_mod_cast (by omega : 0 < n)
  have hover : ∀ k : Int, 128 ≤ k → fp32.mag (fp32.largest + 1) ≤ (1 : Nat) * (2 : Rat) ^ k := fun k hk => by
    rw [mag_beyond_fp32, Nat.cast_one, one_mul]
    exact zpow_le_zpow_right₀ one_le_two hk
  have hround := regular_fp32.rounds_round (c := c) false n one_ne_zero hmode
  rw [regular_fp32.round_overflow c false one_ne_zero (hover n (by omega)),
    ← regular_fp32.round_overflow c false one_ne_zero (hover 300 (by decide)), ratOf_eq, sgn, if_neg Bool.false_ne_true, one_mul, Nat.cast_one,
    one_mul] at hround
  rw [fExp2_eq hm hx, exp2Exact_large hlarge, hneg, if_neg Bool.false_ne_true, fp32.deliver_num c [] 300 one_ne_zero]
  exact hround

/-- Below 2^-150, a power is tiny, however near to zero it is. -/
theorem fExp2_below {n : Int} (hmode : c.mode ≤ 3) (hp : ratOf neg m e = n) (h : n ≤ -256) : fp32.rounds c ((2 : Rat) ^ n) (fExp2 c a) := by
  have hlarge : 8 ≤ (m.log2 : Int) + e := not_not.1 fun hlt => by
    have := (log2_lt_iff_abs (neg := neg) hm e).1 hlt
    rw [hp, abs_lt] at this
    have : -256 < n := by exact_mod_cast this.1
    omega
  have hneg : neg = true := by
    have hpos : (0 : Rat) < m * 2 ^ e := mul_pos (by exact_mod_cast Nat.pos_of_ne_zero hm) (two_zpow_pos e)
    rw [← sgn_mul_neg_iff neg hpos, ← ratOf_eq, hp]
    exact_mod_cast (by omega : n < 0)
  have hsmall : (0 : Rat) < 2 ^ n ∧ (2 : Rat) ^ n < fp32.mid 0 := by
    rw [mid_zero_fp32]
    exact ⟨two_zpow_pos n, zpow_lt_zpow_right₀ one_lt_two (by omega)⟩
  have hsmall' : (0 : Rat) < (3 : Nat) * 2 ^ (-301 : Int) ∧ ((3 : Nat) : Rat) * 2 ^ (-301 : Int) < fp32.mid 0 := by
    rw [mid_zero_fp32]
    refine ⟨by positivity, ?_⟩
    calc ((3 : Nat) : Rat) * 2 ^ (-301 : Int) < 2 ^ (2 : Int) * 2 ^ (-301 : Int) := mul_lt_mul_of_pos_right (by norm_num) (two_zpow_pos _)
      _ = 2 ^ (-299 : Int) := (zpow_add₀ two_ne_zero _ _).symm
      _ < 2 ^ (-150 : Int) := zpow_lt_zpow_right₀ one_lt_two (by decide)
  have hround := regular_fp32.rounds_round_alike c false hmode three_ne_zero hsmall.1 (Fmt.alike_of_small hsmall hsmall')
  rw [sgn, if_neg Bool.false_ne_true, one_mul] at hround
  rw [fExp2_eq hm hx, exp2Exact_large hlarge, hneg, if_pos rfl, fp32.deliver_num c [] (-301) three_ne_zero]
  exact hround

end

/-- R99 of FEXP2 at the integers, zero among them. -/
theorem fExp2_powers {c : FCtx} {a : Nat} {neg : Bool} {m : Nat} {e : Int} (hx : c.operand fp32 a = .fin neg m e) (hmode : c.mode ≤ 3) {n : Int}
    (hp : ratOf neg m e = n) : (-126 ≤ n → n ≤ 127 → fExp2 c a = ((n + 127).toNat * 2 ^ 23, 0)) ∧
    (-149 ≤ n → n < -126 → c.ftz = false → fExp2 c a = (2 ^ (n + 149).toNat, 0)) ∧
    (128 ≤ n ∨ n < -149 → fp32.rounds c ((2 : Rat) ^ n) (fExp2 c a)) := by
  by_cases hm : m = 0
  · subst hm
    have hn : n = 0 := by
      have : ratOf neg 0 e = 0 := ratOf_zero_iff.2 rfl
      exact_mod_cast hp.symm.trans this
    subst hn
    exact ⟨fun _ _ => (unary_zero hx).2.2.2.1, fun h h' => by omega, fun h => by omega⟩
  · have hsmall : -256 < n → n < 256 → fExp2 c a = fp32.round c false 1 n := fun h h' =>
      fExp2_integer hm hx hp (abs_lt.2 ⟨by exact_mod_cast h, by exact_mod_cast h'⟩)
    have hmag : ∀ {k}, fp32.mag k = 2 ^ n → ((1 : Nat) : Rat) * 2 ^ n = fp32.mag k := fun h => by rw [h, Nat.cast_one, one_mul]
    have hlargest : fp32.largest = 255 * 2 ^ 23 - 1 := by decide
    refine ⟨fun h h' => ?_, fun h h' hftz => ?_, fun h => ?_⟩
    · rw [hsmall (by omega) (by omega), regular_fp32.round_mag c false (hmag (mag_normal_fp32 h)) (by omega) (by omega)
        (.inr (show 2 ^ 23 ≤ _ by omega))]
      exact congrArg (·, 0) (Nat.zero_add _)
    · have hpow : 2 ^ (n + 149).toNat ≤ 2 ^ 23 := Nat.pow_le_pow_right two_pos (by omega)
      rw [hsmall (by omega) (by omega), regular_fp32.round_mag c false (hmag (mag_subnormal_fp32 h h')) (Nat.two_pow_pos _).ne' (by omega)
        (.inl hftz)]
      exact congrArg (·, 0) (Nat.zero_add _)
    · by_cases hlo : n ≤ -256
      · exact fExp2_below hm hx hmode hp hlo
      · by_cases hhi : 256 ≤ n
        · exact fExp2_beyond hm hx hmode hp hhi
        · have hround := regular_fp32.rounds_round (c := c) false n one_ne_zero hmode
          rw [hsmall (by omega) (by omega)]
          rwa [ratOf_eq, sgn, if_neg Bool.false_ne_true, one_mul, Nat.cast_one, one_mul] at hround

end
end Sys2Proof.Machine

namespace Sys2Proof.Machine

section

/-! ### FLOG2 (R99, R309) -/

/-- The series of atanh grows with its argument. -/
theorem atanhSum_mono {zz zz' : Nat} (hzz : zz ≤ zz') (n i : Nat) {t t' : Nat} (ht : t ≤ t') : atanhSum zz n i t ≤ atanhSum zz' n i t' := by
  induction n generalizing i t t' with
  | zero => exact le_rfl
  | succ n ih => exact Nat.add_le_add (Nat.div_le_div_right ht) (ih (i + 1) (Nat.div_le_div_right (Nat.mul_le_mul ht hzz)))

theorem atanhSum_lt {zz zz' : Nat} (hzz : zz ≤ zz') (n : Nat) {t t' : Nat} (ht : t < t') : atanhSum zz (n + 1) 0 t < atanhSum zz' (n + 1) 0 t' := by
  have hstep : ∀ zz t, atanhSum zz (n + 1) 0 t = t / (2 * 0 + 1) + atanhSum zz n 1 (t * zz / 2 ^ fixBits) := fun _ _ => rfl
  rw [hstep, hstep, Nat.mul_zero, Nat.zero_add, Nat.div_one, Nat.div_one]
  exact Nat.add_lt_add_of_lt_of_le ht (atanhSum_mono hzz n 1 (Nat.div_le_div_right (Nat.mul_le_mul ht.le hzz)))

/-- Below 1/3, a quotient of short numbers is less than 1/3 in its digits too. -/
theorem quotient_lt {d s q b : Nat} (hs : 3 * d < s) (hq : 2 * d < q) (hb : b < 3 * q + 3) (hb' : b / 3 = q) : d * b / s < 1 * b / 3 := by
  rw [Nat.one_mul, hb', Nat.div_lt_iff_lt_mul (by omega)]
  calc d * b ≤ d * (3 * q + 2) := Nat.mul_le_mul_left d (by omega)
    _ = 3 * d * q + 2 * d := by ring
    _ < 3 * d * q + q := by omega
    _ = q * (3 * d + 1) := by ring
    _ ≤ q * s := Nat.mul_le_mul_left q hs

/-- The fraction of a logarithm of a number that is less than two is less than one. -/
theorem atanhFix_lt {d s : Nat} (hs : 3 * d < s) (hd : d < 2 ^ 24) : atanhFix d s < atanhFix 1 3 := by
  have hbig : 2 * d < 2 ^ fixBits / 3 := by
    have : 2 ^ 25 ≤ 2 ^ fixBits / 3 := by decide
    omega
  have hz : d * 2 ^ fixBits / s < 1 * 2 ^ fixBits / 3 := quotient_lt hs hbig (by omega) rfl
  exact atanhSum_lt (Nat.div_le_div_right (Nat.mul_le_mul hz.le hz.le)) 109 hz

/-- A value that is known as v and something in units of 2^e, with the sign of v. -/
def signedSticky (v e : Int) : Exact := if v ≥ 0 then sticky false v.toNat e false else sticky true (v.natAbs - 1) e false

theorem signedSticky_eq (v e : Int) : ∃ neg m, m ≠ 0 ∧ signedSticky v e = .num neg m (e - 1) ∧ ratOf neg m (e - 1) = (v + 1 / 2) * 2 ^ e := by
  unfold signedSticky
  split
  · refine ⟨false, 2 * v.toNat + 1, by omega, rfl, ?_⟩
    have hv : ((v.toNat : Nat) : Rat) = v := by exact_mod_cast Int.toNat_of_nonneg ‹_›
    rw [ratOf_eq, half_step, hv, sgn, if_neg Bool.false_ne_true, one_mul]
  · refine ⟨true, 2 * (v.natAbs - 1) + 1, by omega, rfl, ?_⟩
    have hv : ((v.natAbs - 1 : Nat) : Rat) = -v - 1 := by
      have : ((v.natAbs - 1 : Nat) : Int) = -v - 1 := by omega
      exact_mod_cast congrArg (Int.cast (R := Rat)) this
    rw [ratOf_eq, half_step, hv, sgn, if_pos rfl]
    ring

/-- The digits of the fraction of log2 m. -/
def logFraction (m : Nat) : Nat := 2 * atanhFix (m - 2 ^ m.log2) (m + 2 ^ m.log2) * 2 ^ fixBits / ln2Fix

theorem logFraction_lt {m : Nat} (hm : m ≠ 0) (h : m < 2 ^ 24) : logFraction m < fixOne := by
  have hlo := Nat.log2_self_le hm
  have hhi : m < 2 ^ (m.log2 + 1) := Nat.lt_log2_self
  rw [pow_succ] at hhi
  have hlt : atanhFix (m - 2 ^ m.log2) (m + 2 ^ m.log2) < atanhFix 1 3 := atanhFix_lt (by omega) (by omega)
  exact Nat.div_lt_of_lt_mul (Nat.mul_lt_mul_of_pos_right (Nat.mul_lt_mul_of_pos_left hlt two_pos) (Nat.two_pow_pos _))

theorem log2Exact_power {m : Nat} (e : Int) (h : m = 2 ^ m.log2) :
    log2Exact m e = .num ((m.log2 : Int) + e < 0) ((m.log2 : Int) + e).natAbs 0 := if_pos (beq_iff_eq.2 h)

theorem log2Exact_between {m : Nat} (e : Int) (h : m ≠ 2 ^ m.log2) :
    log2Exact m e = signedSticky (((m.log2 : Int) + e) * 2 ^ fixBits + logFraction m) (-fixBits) := if_neg (mt beq_iff_eq.1 h)

/-- The exponent of a number between two powers of two. -/
theorem log2_add_eq {m : Nat} (hm : m ≠ 0) {e n : Int} (hlo : (2 : Rat) ^ n ≤ m * 2 ^ e) (hhi : (m : Rat) * 2 ^ e < 2 ^ (n + 1)) :
    (m.log2 : Int) + e = n := by
  obtain ⟨hle, hlt⟩ := le_mul_zpow_log2 hm e
  have h1 := (zpow_lt_zpow_iff_right₀ one_lt_two).1 (hle.trans_lt hhi)
  have h2 := (zpow_lt_zpow_iff_right₀ one_lt_two).1 (hlo.trans_lt hlt)
  omega

/-- A number is a power of two exactly when its digits are. -/
theorem digits_power_iff (m : Nat) (e : Int) : m = 2 ^ m.log2 ↔ (m : Rat) * 2 ^ e = 2 ^ ((m.log2 : Int) + e) := by
  rw [zpow_add₀ two_ne_zero, mul_left_inj' (two_zpow_pos e).ne', two_zpow_natCast, Nat.cast_inj]

/-- A natural number of no more than 24 binary digits is a number of FP32. -/
theorem exists_mag_natCast {a : Nat} (ha : a ≠ 0) (hlt : a < 2 ^ 24) : ∃ k, (a : Rat) = fp32.mag k ∧ 2 ^ 23 ≤ k ∧ k ≤ fp32.largest := by
  have hlog : a.log2 < 24 := (Nat.log2_lt ha).2 hlt
  have hsplit : 2 ^ a.log2 * 2 ^ (23 - a.log2) = 2 ^ 23 := by rw [← pow_add, Nat.add_sub_cancel' (by omega)]
  have hge : 2 ^ 23 ≤ a * 2 ^ (23 - a.log2) := hsplit ▸ Nat.mul_le_mul_right _ (Nat.log2_self_le ha)
  have hle : a * 2 ^ (23 - a.log2) ≤ 2 ^ 24 := by
    have h := Nat.mul_le_mul_right (2 ^ (23 - a.log2)) (Nat.lt_log2_self (n := a)).le
    rw [pow_succ, Nat.mul_right_comm, hsplit] at h
    exact h
  have hlargest : fp32.largest = 255 * 2 ^ 23 - 1 := by decide
  refine ⟨(a.log2 + 126) * 2 ^ 23 + a * 2 ^ (23 - a.log2), ?_, by omega, ?_⟩
  · rw [mag_fp32 hle (.inr hge), Nat.cast_mul, mul_assoc, ← two_zpow_natCast, ← zpow_add₀ two_ne_zero]
    rw [show (((23 - a.log2 : Nat) : Int) + (((a.log2 + 126 : Nat) : Int) - 149)) = 0 by omega, zpow_zero, mul_one]
  · rw [hlargest]
    omega

section
variable {c : FCtx} {a : Nat} {m : Nat} {e : Int} (hm : m ≠ 0) (hx : c.operand fp32 a = .fin false m e)

include hm hx

theorem fLog2_eq : fLog2 c a = fp32.deliver c [] (log2Exact m e) := by
  rw [fLog2, hx]
  exact (if_neg (by simpa using hm)).trans (if_neg Bool.false_ne_true)

/-- Between two powers of two, the digits of the logarithm lie between the two exponents. -/
theorem fLog2_between (hmode : c.mode ≤ 3) {n : Int} (hlo : (2 : Rat) ^ n < m * 2 ^ e) (hhi : (m : Rat) * 2 ^ e < 2 ^ (n + 1)) :
    ∃ v : Rat, (n : Rat) < v ∧ v < n + 1 ∧ fp32.rounds c v (fLog2 c a) := by
  have hn := log2_add_eq hm hlo.le hhi
  have hne : m ≠ 2 ^ m.log2 := fun h => by
    rw [digits_power_iff m e, hn] at h
    exact hlo.ne' h
  obtain ⟨neg, k, hk, hsticky, hvalue⟩ := signedSticky_eq (n * 2 ^ fixBits + logFraction m) (-fixBits)
  have hpow : (0 : Rat) < 2 ^ fixBits := pow_pos two_pos _
  have hfrac : ratOf neg k (-fixBits - 1) = n + (logFraction m + 1 / 2) / 2 ^ fixBits := by
    rw [hvalue, zpow_neg, zpow_natCast]
    push_cast
    field_simp
    ring
  have hlt : (logFraction m : Rat) + 1 ≤ 2 ^ fixBits := by exact_mod_cast logFraction_lt hm (operand_bounds hx).1
  have hge : (0 : Rat) ≤ logFraction m := Nat.cast_nonneg _
  refine ⟨ratOf neg k (-fixBits - 1), ?_, ?_, ?_⟩
  · rw [hfrac]
    exact lt_add_of_pos_right _ (by positivity)
  · rw [hfrac, add_lt_add_iff_left, div_lt_one hpow]
    linarith
  · rw [fLog2_eq hm hx, log2Exact_between e hne, hn, hsticky, fp32.deliver_num c [] _ hk]
    exact regular_fp32.rounds_round neg _ hk hmode

/-- log2 of a power of two is its exponent. -/
theorem fLog2_power {n : Int} (hp : (m : Rat) * 2 ^ e = 2 ^ n) : (fp32.value (fLog2 c a).1).rat = some (n : Rat) ∧ (fLog2 c a).2 = 0 := by
  have hn := log2_add_eq hm hp.ge (hp.trans_lt (zpow_lt_zpow_right₀ one_lt_two (lt_add_one n)))
  have hpower : m = 2 ^ m.log2 := (digits_power_iff m e).2 (by rw [hn, hp])
  obtain ⟨hlt, hmin, hmax⟩ := operand_bounds hx
  have hlog : m.log2 < 24 := (Nat.log2_lt hm).2 hlt
  have hsign : sgn (n < 0) * (n.natAbs : Rat) = n := by
    have h := ratOf_natAbs n 0
    rwa [ratOf_eq, zpow_zero, mul_one, mul_one] at h
  rw [fLog2_eq hm hx, log2Exact_power e hpower, hn]
  by_cases hzero : n = 0
  · subst hzero
    refine ⟨?_, rfl⟩
    have h := regular_fp32.value_signBit (neg := false) (k := 0) (Nat.zero_le _)
    rwa [fp32.mag_zero, mul_zero, ← Int.cast_zero] at h
  · have habs : n.natAbs ≠ 0 := by omega
    obtain ⟨k, hk, hnormal, hle⟩ := exists_mag_natCast habs (by omega)
    rw [fp32.deliver_num c [] 0 habs, regular_fp32.round_mag c _ (by rw [zpow_zero, mul_one, hk]) (by omega) hle (.inr hnormal)]
    refine ⟨?_, rfl⟩
    rw [regular_fp32.value_signBit hle, ← hk, hsign]

end

end
end Sys2Proof.Machine

namespace Sys2Proof.Machine

section

/-! ### FP32 arithmetic -/

/-- A positive finite operand has no sign and a digit. -/
theorem operand_of_pos {c : FCtx} {a : Nat} {p : Rat} (hx : (c.operand fp32 a).rat = some p) (hp : 0 < p) :
    ∃ m e, c.operand fp32 a = .fin false m e ∧ m ≠ 0 ∧ m * (2 : Rat) ^ e = p := by
  obtain ⟨n, m, e, hfin, rfl⟩ := FVal.rat_eq_some hx
  have hm : m ≠ 0 := fun h => hp.ne' (ratOf_zero_iff.2 h)
  have hpos : (0 : Rat) < m * 2 ^ e := mul_pos (by exact_mod_cast Nat.pos_of_ne_zero hm) (two_zpow_pos e)
  rw [ratOf_eq] at hp
  obtain rfl := (sgn_mul_pos_iff n hpos).1 hp
  exact ⟨m, e, hfin, hm, by rw [ratOf_eq, sgn, if_neg Bool.false_ne_true, one_mul]⟩

/-- R99 of the functions of one finite operand. -/
theorem unary_finite {c : FCtx} {a : Nat} (hmode : c.mode ≤ 3) {p : Rat} (hx : (c.operand fp32 a).rat = some p) :
    (p ≠ 0 → fp32.rounds c (1 / p) (fRcp c a)) ∧
    (0 < p → roundsRoot c.mode (fun u => u * u - p) (fSqrt c a) ∧ roundsRoot c.mode (fun u => u * u * p - 1) (fRsq c a)) ∧
    (∀ n : Int, p = n → (-126 ≤ n → n ≤ 127 → fExp2 c a = ((n + 127).toNat * 2 ^ 23, 0)) ∧
      (-149 ≤ n → n < -126 → c.ftz = false → fExp2 c a = (2 ^ (n + 149).toNat, 0)) ∧
      (128 ≤ n ∨ n < -149 → fp32.rounds c ((2 : Rat) ^ n) (fExp2 c a))) ∧
    (∀ n : Int, (n : Rat) < p → p < n + 1 → |p| < 256 →
      ∃ v : Rat, (2 : Rat) ^ n < v ∧ v < (2 : Rat) ^ (n + 1) ∧ fp32.rounds c v (fExp2 c a)) ∧
    (∀ n : Int, p = (2 : Rat) ^ n → (fp32.value (fLog2 c a).1).rat = some (n : Rat) ∧ (fLog2 c a).2 = 0) ∧
    ∀ n : Int, (2 : Rat) ^ n < p → p < (2 : Rat) ^ (n + 1) → ∃ v : Rat, (n : Rat) < v ∧ v < n + 1 ∧ fp32.rounds c v (fLog2 c a) := by
  refine ⟨fun hp => ?_, fun hp => ?_, fun n hn => ?_, fun n hlo hhi hsmall => ?_, fun n hn => ?_, fun n hlo hhi => ?_⟩
  · obtain ⟨s, m, e, hfin, rfl⟩ := FVal.rat_eq_some hx
    exact fRcp_rounds (mt ratOf_zero_iff.2 hp) hfin hmode
  · obtain ⟨m, e, hfin, hm, rfl⟩ := operand_of_pos hx hp
    exact ⟨fSqrt_rounds hm hfin, fRsq_rounds hm hfin⟩
  · obtain ⟨s, m, e, hfin, rfl⟩ := FVal.rat_eq_some hx
    exact fExp2_powers hfin hmode hn
  · obtain ⟨s, m, e, hfin, rfl⟩ := FVal.rat_eq_some hx
    have hm : m ≠ 0 := fun h => by
      rw [ratOf_zero_iff.2 h] at hlo hhi
      have : n < 0 := by exact_mod_cast hlo
      have : 0 < n + 1 := by exact_mod_cast hhi
      omega
    exact fExp2_fraction hm hfin hmode hlo hhi hsmall
  · obtain ⟨m, e, hfin, hm, hp⟩ := operand_of_pos hx (hn ▸ two_zpow_pos n)
    exact fLog2_power hm hfin (hp.trans hn)
  · obtain ⟨m, e, hfin, hm, rfl⟩ := operand_of_pos hx ((two_zpow_pos n).trans hlo)
    exact fLog2_between hm hfin hmode hlo hhi

/-- R90 and R99 of the sums and products of finite operands. -/
theorem arithmetic_once {f : Fmt} (hmb : 1 ≤ f.mb) {c : FCtx} {a b : Nat} {p q : Rat} (ha : (c.operand f a).rat = some p)
    (hb : (c.operand f b).rat = some q) :
    (p + q ≠ 0 → f.once c (p + q) (fAdd f c a b)) ∧ (p - q ≠ 0 → f.once c (p - q) (fSub f c a b)) ∧
    (p * q ≠ 0 → f.once c (p * q) (fMul f c a b)) ∧ (p ≠ 0 → p + q = 0 → fAdd f c a b = (f.signBit (c.mode == 3), 0)) ∧
    ∀ d z, (c.operand f d).rat = some z → p * q + z ≠ 0 → f.once c (p * q + z) (fFma f c a b d) :=
  ⟨once_fAdd hmb ha hb, once_fSub hmb ha hb, once_fMul hmb ha hb, fAdd_cancels ha hb, fun _ _ hd => once_fFma hmb ha hb hd⟩

/-- Settles O5: what a rounding gives, the exact values that are rounded, the special operands, and the instructions, which run through alu. -/
theorem floatArithmetic : Obligations.FloatArithmetic := by
  refine ⟨fun f hf c neg m e hm hmode => (Fmt.regular_of_mem hf).round_spec c neg e hm hmode,
    fun f hf c a b p q ha hb => arithmetic_once (Fmt.regular_of_mem hf).mb_pos ha hb,
    ⟨fun c a ha => unary_nan c ha, fun c a b => binary_nan c, ?_, fun c a b d hsat => fFma_special c a b d hsat, ?_,
      fun c greater a b => fMinMax_spec c a b greater⟩,
    fun _ _ _ _ => computes_of_frr _ fun _ => rfl, fun _ _ _ _ => computes_of_frr _ fun _ => rfl,
    fun _ _ _ _ => computes_of_frr _ fun _ => rfl, fun _ _ _ _ => computes_of_facc _ fun _ => rfl,
    fun _ _ _ => computes_of_fr _ fun _ => rfl, fun _ _ _ => computes_of_fr _ fun _ => rfl, fun _ _ _ => computes_of_fr _ fun _ => rfl,
    fun _ _ _ => computes_of_fr _ fun _ => rfl, fun _ _ _ => computes_of_fr _ fun _ => rfl,
    fun _ _ _ => computes_of_frr (fun c x y => fMinMax fp32 c false x y) fun _ => rfl,
    fun _ _ _ => computes_of_frr (fun c x y => fMinMax fp32 c true x y) fun _ => rfl, fcmp_computes⟩
  · exact fun c a b hsat => ⟨fun n k hx hy => infinite_infinite hsat hx hy, fun n k m e hx hy => infinite_finite hsat hx hy,
      fun n k m e hx hy => finite_infinite hsat hx hy⟩
  · exact fun c a hmode => ⟨fun n hx => unary_inf hx, fun n e hx => unary_zero hx, fun m e hx hm => unary_negative hx hm,
      fun p hx => unary_finite hmode hx⟩

end
end Sys2Proof.Machine

namespace Sys2Proof.Machine

section

/-! ### DOT4 (R102, R300) -/

/-- DOT4 rounds the sum of its five terms once. -/
theorem once_fDot4 (c : FCtx) (e a b d : Nat) (p q : Nat → Rat) (z : Rat)
    (hpq : ∀ i, i < 4 → (elemValue c e (a / 2 ^ (8 * i) % 256)).rat = some (p i) ∧ (elemValue c e (b / 2 ^ (8 * i) % 256)).rat = some (q i))
    (hz : (c.operand fp32 d).rat = some z) (hv : p 0 * q 0 + p 1 * q 1 + p 2 * q 2 + p 3 * q 3 + z ≠ 0) :
    fp32.once c (p 0 * q 0 + p 1 * q 1 + p 2 * q 2 + p 3 * q 3 + z) (fDot4 c e a b d) := by
  have hsum : [p 0 * q 0, p 1 * q 1, p 2 * q 2, p 3 * q 3].sum + z = p 0 * q 0 + p 1 * q 1 + p 2 * q 2 + p 3 * q 3 + z := by
    simp [add_assoc]
  have hproduct : ∀ i, i < 4 → (mulExact (elemValue c e (elem a 8 i)) (elemValue c e (elem b 8 i))).rat = some (p i * q i) :=
    fun i hi => rat_mulExact (hpq i hi).1 (hpq i hi).2
  have hops : ∀ y ∈ (List.range 4).map (fun i => elemValue c e (elem a 8 i)) ++ (List.range 4).map (fun i => elemValue c e (elem b 8 i)) ++
      [c.operand fp32 d], y.isNan = false := by
    simp only [List.mem_append, List.mem_map, List.mem_range, List.mem_singleton]
    rintro y ((⟨i, hi, rfl⟩ | ⟨i, hi, rfl⟩) | rfl)
    · exact FVal.isNan_of_rat (hpq i hi).1
    · exact FVal.isNan_of_rat (hpq i hi).2
    · exact FVal.isNan_of_rat hz
  rw [← hsum] at hv ⊢
  exact once_fDot regular_fp32.mb_pos hops
    (.cons (hproduct 0 (by decide)) (.cons (hproduct 1 (by decide)) (.cons (hproduct 2 (by decide)) (.cons (hproduct 3 (by decide)) .nil)))) hz hv

/-! ### Conversions (R95, R298) -/

theorem elemValue_float {f : Nat} (h : isIntFmt f = false) (c : FCtx) (x : Nat) : elemValue c f x = c.operand (fmtOf f) x := by
  rw [elemValue, h]
  rfl

/-- A conversion delivers the finite number that it reads. -/
theorem convert_finite {c : FCtx} {f x : Nat} {v : Rat} (hx : (elemValue c f x).rat = some v) (hf : isIntFmt f = false) (g : Nat) :
    ∃ neg m e, ratOf neg m e = v ∧ convert c f g x = deliverCode g c [.fin neg m e] (.num neg m e) := by
  rw [elemValue_float hf] at hx
  obtain ⟨neg, m, e, hfin, hv⟩ := FVal.rat_eq_some hx
  refine ⟨neg, m, e, hv, ?_⟩
  rw [convert, hf, if_neg Bool.false_ne_true, hfin]
  exact if_neg Bool.false_ne_true

theorem deliverCode_float {g : Nat} (hg : isIntFmt g = false) (c : FCtx) (ops : List FVal) (x : Exact) :
    deliverCode g c ops x = (fmtOf g).deliver c ops x := by
  rw [deliverCode.eq_def, hg]
  exact if_neg Bool.false_ne_true

/-- A conversion to a floating-point format is one rounding. -/
theorem once_convert (c : FCtx) (f g x : Nat) (v : Rat) (hx : (elemValue c f x).rat = some v) (hg : isIntFmt g = false) (hv : v ≠ 0) :
    (fmtOf g).once c v (convert c f g x) := by
  have hmb := (regular_fmtOf g).mb_pos
  cases hf : isIntFmt f
  · obtain ⟨neg, m, e, hv', hconvert⟩ := convert_finite hx hf g
    rw [hconvert, deliverCode_float hg]
    exact Fmt.once_deliver hmb c _ (congrArg some hv') hv
  · have hconvert : convert c f g x = (fmtOf g).deliver c [] (.num (signedNat x (fmtWidth f) < 0) (signedNat x (fmtWidth f)).natAbs 0) := by
      rw [convert, hf, if_pos rfl]
      dsimp only
      rw [hg, if_neg Bool.false_ne_true]
    rw [elemValue, hf, if_pos rfl] at hx
    rw [hconvert]
    exact Fmt.once_deliver hmb c _ hx hv

/-- The integer formats have 8 or 32 bits. -/
theorem intFmt_width {g : Nat} (h : isIntFmt g = true) : fmtWidth g = 8 ∨ fmtWidth g = 32 := by
  simp only [isIntFmt, Bool.or_eq_true, beq_iff_eq] at h
  rcases h with rfl | rfl
  · exact .inl rfl
  · exact .inr rfl

theorem clampInt_eq {lo hi : Int} (h : lo ≤ hi) (x : Int) : clampInt lo hi x = max lo (min hi x) := by
  unfold clampInt
  split <;> [skip; split] <;> omega

/-- A conversion between integer formats clamps or wraps. -/
theorem convert_int (c : FCtx) (f g x : Nat) (hf : isIntFmt f = true) (hg : isIntFmt g = true) :
    let v := signedNat x (fmtWidth f)
    let w := fmtWidth g
    convert c f g x = (((if c.sat then max (-(2 ^ (w - 1))) (min (2 ^ (w - 1) - 1) v) else v) % 2 ^ w).toNat, 0) := by
  intro v w
  have hpos : (0 : Int) < 2 ^ (fmtWidth g - 1) := pow_pos two_pos _
  have hclamp : clampInt (intMin g) (intMax g) v = max (-(2 ^ (w - 1))) (min (2 ^ (w - 1) - 1) v) := by
    unfold intMin intMax
    push_cast
    exact clampInt_eq (by omega) v
  rw [convert, hf, hg, if_pos rfl, if_pos rfl, hclamp, intBits]
  push_cast
  rfl

/-! ### Rounding to an integer (R95)

An integer is a number cut at the place of the point: the digits before it, and a fraction of those after it. -/

/-- The fraction of m × 2^e. -/
def fraction (m : Nat) (e : Int) : Rat := (lost m e 0 : Rat) / 2 ^ (0 - e).toNat

section
variable (m : Nat) (e : Int)

theorem kept_add_fraction : (m : Rat) * 2 ^ e = kept m e 0 + fraction m e := by
  rw [kept_add_lost m e 0, zpow_zero, mul_one]
  rfl

theorem fraction_nonneg : 0 ≤ fraction m e := by unfold fraction; positivity

theorem fraction_lt_one : fraction m e < 1 := by
  rw [fraction, div_lt_one (by positivity)]
  exact_mod_cast lost_lt m e 0

theorem fraction_eq_zero : fraction m e = 0 ↔ lost m e 0 = 0 := by simp [fraction]

theorem half_lt_fraction : 1 / 2 < fraction m e ↔ 2 ^ (0 - e).toNat < 2 * lost m e 0 := by
  rw [fraction, div_lt_div_iff₀ two_pos (by positivity), one_mul, mul_comm]
  exact_mod_cast Iff.rfl

theorem fraction_eq_half : fraction m e = 1 / 2 ↔ 2 * lost m e 0 = 2 ^ (0 - e).toNat := by
  rw [fraction, div_eq_div_iff (by positivity) two_ne_zero, one_mul, mul_comm]
  exact_mod_cast Iff.rfl

theorem floor_kept : ⌊(m : Rat) * 2 ^ e⌋ = kept m e 0 := by
  have h0 := fraction_nonneg m e
  have h1 := fraction_lt_one m e
  rw [Int.floor_eq_iff, kept_add_fraction]
  push_cast
  constructor <;> linarith

theorem ceil_kept : ⌈(m : Rat) * 2 ^ e⌉ = kept m e 0 + if lost m e 0 ≠ 0 then 1 else 0 := by
  have h0 := fraction_nonneg m e
  have h1 := fraction_lt_one m e
  rw [Int.ceil_eq_iff, kept_add_fraction]
  by_cases h : lost m e 0 = 0
  · rw [if_neg (not_not.2 h), (fraction_eq_zero m e).2 h]
    push_cast
    constructor <;> linarith
  · have hpos : 0 < fraction m e := h0.lt_of_ne' (mt (fraction_eq_zero m e).1 h)
    rw [if_pos h]
    push_cast
    constructor <;> linarith

/-- The magnitude that m × 2^e rounds to. -/
def roundNat (mode : Nat) (neg : Bool) : Nat :=
  if roundsUp mode neg (kept m e 0) (lost m e 0) (0 - e).toNat then kept m e 0 + 1 else kept m e 0

theorem roundInt_eq (mode : Nat) (neg : Bool) :
    roundInt mode neg m e = (if neg then -(roundNat m e mode neg : Int) else roundNat m e mode neg, lost m e 0 == 0) := by
  simp [roundInt, roundNat, kept, lost]

/-- The nearest integer, a tie to the even one. -/
theorem roundNat_nearest (neg : Bool) : |(m : Rat) * 2 ^ e - roundNat m e 0 neg| ≤ 1 / 2 ∧
    (|(m : Rat) * 2 ^ e - roundNat m e 0 neg| = 1 / 2 → roundNat m e 0 neg % 2 = 0) := by
  have h0 := fraction_nonneg m e
  have h1 := fraction_lt_one m e
  have hup := roundsUp_iff 0 neg (kept m e 0) (lost m e 0) (0 - e).toNat
  rw [if_pos rfl, ← half_lt_fraction, ← fraction_eq_half] at hup
  unfold roundNat
  rw [kept_add_fraction]
  split
  case isTrue h =>
    have hdiff : (kept m e 0 : Rat) + fraction m e - (kept m e 0 + 1 : Nat) = -(1 - fraction m e) := by push_cast; ring
    rw [hdiff, abs_neg, abs_of_nonneg (by linarith)]
    rcases hup.1 h with hlt | ⟨htie, hodd⟩
    · exact ⟨by linarith, fun h => by linarith⟩
    · exact ⟨by linarith, fun _ => by omega⟩
  case isFalse h =>
    have hnot := mt hup.2 h
    rw [add_sub_cancel_left, abs_of_nonneg h0]
    exact ⟨not_lt.1 fun hlt => hnot (.inl hlt), fun htie => by_contra fun hodd => hnot (.inr ⟨htie, by omega⟩)⟩

/-- The next integer away from zero or toward it. -/
theorem roundNat_directed {mode : Nat} (hmode : mode ≠ 0) (neg : Bool) :
    (roundNat m e mode neg : Int) = if away mode neg = true then ⌈(m : Rat) * 2 ^ e⌉ else ⌊(m : Rat) * 2 ^ e⌋ := by
  have hup := roundsUp_iff mode neg (kept m e 0) (lost m e 0) (0 - e).toNat
  rw [if_neg hmode] at hup
  rw [floor_kept, ceil_kept, roundNat]
  by_cases haway : away mode neg = true
  · rw [if_pos haway]
    by_cases hlost : lost m e 0 = 0
    · rw [if_neg fun h => (hup.1 h).2 hlost, if_neg (not_not.2 hlost), add_zero]
    · rw [if_pos (hup.2 ⟨haway, hlost⟩), if_pos hlost, Nat.cast_succ]
  · rw [if_neg haway, if_neg fun h => haway (hup.1 h).1]

end

theorem roundNat_toward_zero (m : Nat) (e : Int) (neg : Bool) : (roundNat m e 1 neg : Int) = ⌊(m : Rat) * 2 ^ e⌋ :=
  (roundNat_directed m e one_ne_zero neg).trans (if_neg Bool.false_ne_true)

/-- R95: the integer of each mode, and whether it is exact. -/
theorem roundInt_spec {mode : Nat} (neg : Bool) (m : Nat) (e : Int) :
    let v := ratOf neg m e
    let r := roundInt mode neg m e
    (mode = 0 → |v - r.1| ≤ 1 / 2 ∧ (|v - r.1| = 1 / 2 → r.1 % 2 = 0)) ∧
      (mode = 1 → r.1 = if v < 0 then ⌈v⌉ else ⌊v⌋) ∧ (mode = 2 → r.1 = ⌈v⌉) ∧ (mode = 3 → r.1 = ⌊v⌋) := by
  intro v r
  have hv : v = sgn neg * (m * 2 ^ e) := ratOf_eq neg m e
  have hx : 0 ≤ (m : Rat) * 2 ^ e := mul_nonneg (Nat.cast_nonneg m) (two_zpow_pos e).le
  have hr : r.1 = if neg then -(roundNat m e mode neg : Int) else roundNat m e mode neg := congrArg Prod.fst (roundInt_eq m e mode neg)
  rw [hv, hr]
  cases neg
  · simp only [sgn, Bool.false_eq_true, if_false, one_mul, Int.cast_natCast]
    refine ⟨fun h => ?_, fun h => ?_, fun h => ?_, fun h => ?_⟩ <;> subst h
    · obtain ⟨hle, htie⟩ := roundNat_nearest m e false
      exact ⟨hle, fun h => by have := htie h; omega⟩
    · rw [if_neg hx.not_gt, roundNat_toward_zero]
    · exact (roundNat_directed m e two_ne_zero false).trans (if_pos rfl)
    · exact (roundNat_directed m e three_ne_zero false).trans (if_neg Bool.false_ne_true)
  · have hflip : ∀ k : Rat, |-((m : Rat) * 2 ^ e) - -k| = |(m : Rat) * 2 ^ e - k| := fun k => by rw [neg_sub_neg, abs_sub_comm]
    simp only [sgn, if_true, neg_mul, one_mul, Int.cast_neg, Int.cast_natCast, Left.neg_neg_iff, Int.ceil_neg, Int.floor_neg, neg_inj, hflip]
    refine ⟨fun h => ?_, fun h => ?_, fun h => ?_, fun h => ?_⟩ <;> subst h
    · obtain ⟨hle, htie⟩ := roundNat_nearest m e true
      exact ⟨hle, fun h => by have := htie h; omega⟩
    · rw [roundNat_toward_zero]
      split
      · rfl
      · rw [show (m : Rat) * 2 ^ e = 0 from le_antisymm (not_lt.1 ‹_›) hx]
        simp
    · exact (roundNat_directed m e two_ne_zero true).trans (if_neg Bool.false_ne_true)
    · exact (roundNat_directed m e three_ne_zero true).trans (if_pos rfl)

theorem lost_eq_zero_iff (m : Nat) (e : Int) : lost m e 0 = 0 ↔ (⌊(m : Rat) * 2 ^ e⌋ : Rat) = m * 2 ^ e := by
  rw [← fraction_eq_zero, floor_kept, kept_add_fraction, Int.cast_natCast, left_eq_add]

theorem roundNat_of_exact {m : Nat} {e : Int} (h : lost m e 0 = 0) (mode : Nat) (neg : Bool) : roundNat m e mode neg = kept m e 0 := by
  refine if_neg fun hup => ?_
  have := (roundsUp_iff mode neg (kept m e 0) (lost m e 0) (0 - e).toNat).1 hup
  have hpos : 0 < 2 ^ (0 - e).toNat := Nat.two_pow_pos _
  split at this
  · omega
  · exact this.2 h

theorem roundInt_exact_iff (mode : Nat) (neg : Bool) (m : Nat) (e : Int) :
    (roundInt mode neg m e).2 = true ↔ ratOf neg m e = (roundInt mode neg m e).1 := by
  have hsigned : ((if neg then -(roundNat m e mode neg : Int) else roundNat m e mode neg : Int) : Rat) = sgn neg * roundNat m e mode neg := by
    cases neg <;> simp [sgn]
  rw [roundInt_eq, ratOf_eq, hsigned, sgn_mul_inj]
  change (lost m e 0 == 0) = true ↔ _
  rw [beq_iff_eq]
  constructor
  · intro h
    rw [roundNat_of_exact h, kept_add_fraction, (fraction_eq_zero m e).2 h, add_zero]
  · intro h
    rw [lost_eq_zero_iff, h, Int.floor_natCast]
    rfl

/-! ### Conversions to an integer (R95) -/

/-- The encodings of the least and the greatest value of an integer format. -/
theorem intBits_bounds {g : Nat} (hg : isIntFmt g = true) : intBits (fmtWidth g) (intMin g) = 2 ^ (fmtWidth g - 1) ∧
    intBits (fmtWidth g) (intMax g) = 2 ^ (fmtWidth g - 1) - 1 := by
  unfold intMin intMax
  rcases intFmt_width hg with h | h <;> rw [h] <;> decide

/-- An integer delivered in an integer format: clamped with NV, or itself, with NX where it is not the exact value. -/
theorem deliverCode_int {g : Nat} (hg : isIntFmt g = true) (c : FCtx) (ops : List FVal) (neg : Bool) (m : Nat) (e : Int) :
    let w := fmtWidth g
    let n := (roundInt c.mode neg m e).1
    deliverCode g c ops (.num neg m e) = if n < -(2 ^ (w - 1)) then (2 ^ (w - 1), fNV)
      else if 2 ^ (w - 1) - 1 < n then (2 ^ (w - 1) - 1, fNV)
      else ((n % 2 ^ w).toNat, if ratOf neg m e = n then 0 else fNX) := by
  intro w n
  have hmin : intMin g = -(2 ^ (w - 1)) := by unfold intMin; push_cast; rfl
  have hmax : intMax g = 2 ^ (w - 1) - 1 := by unfold intMax; push_cast; rfl
  have hpos : (0 : Int) < 2 ^ (w - 1) := pow_pos two_pos _
  obtain ⟨hlow, hhigh⟩ := intBits_bounds hg
  have hdeliver : deliverCode g c ops (.num neg m e) =
      if n < intMin g || n > intMax g then (intBits w (clampInt (intMin g) (intMax g) n), fNV)
      else (intBits w n, if (roundInt c.mode neg m e).2 then 0 else fNX) := by
    rw [deliverCode.eq_def, hg, if_pos rfl]
  rw [hdeliver, ← hmin, ← hmax]
  by_cases hbelow : n < intMin g
  · rw [if_pos hbelow, if_pos (by simp [hbelow]), clampInt, if_pos hbelow, hlow]
  · rw [if_neg hbelow]
    by_cases habove : intMax g < n
    · rw [if_pos habove, if_pos (by simp [habove]), clampInt, if_neg hbelow, if_pos habove, hhigh]
    · rw [if_neg habove, if_neg (by simp [hbelow, habove]), intBits, Nat.cast_pow, Nat.cast_ofNat]
      simp only [roundInt_exact_iff]
      rfl

/-- R95: a finite number is rounded to an integer in the mode, then delivered. -/
theorem float_to_int (c : FCtx) (f g x : Nat) (v : Rat) (hx : (elemValue c f x).rat = some v) (hf : isIntFmt f = false)
    (hg : isIntFmt g = true) :
    let w := fmtWidth g
    ∃ n : Int, (c.mode = 0 → |v - n| ≤ 1 / 2 ∧ (|v - n| = 1 / 2 → n % 2 = 0)) ∧
      (c.mode = 1 → n = if v < 0 then ⌈v⌉ else ⌊v⌋) ∧ (c.mode = 2 → n = ⌈v⌉) ∧ (c.mode = 3 → n = ⌊v⌋) ∧
      convert c f g x = if n < -(2 ^ (w - 1)) then (2 ^ (w - 1), fNV) else if 2 ^ (w - 1) - 1 < n then (2 ^ (w - 1) - 1, fNV)
        else ((n % 2 ^ w).toNat, if v = n then 0 else fNX) := by
  obtain ⟨neg, m, e, rfl, hconvert⟩ := convert_finite hx hf g
  obtain ⟨hnearest, hzero, hup, hdown⟩ := roundInt_spec (mode := c.mode) neg m e
  exact ⟨(roundInt c.mode neg m e).1, hnearest, hzero, hup, hdown, hconvert.trans (deliverCode_int hg c _ neg m e)⟩

/-! ### DQ4 (R88, R297) -/

/-- A signed count of 64ths, scaled. -/
theorem rat_scaledLevel (l : Int) (n : Nat) : (FVal.fin (l < 0) (l.natAbs * n) (-6)).rat = some ((l : Rat) / 64 * n) := by
  have hl := ratOf_natAbs l (-6)
  rw [ratOf_eq] at hl
  have hscaled : ratOf (l < 0) (l.natAbs * n) (-6) = l * 2 ^ (-6 : Int) * n := by
    rw [← hl, ratOf_eq]
    push_cast
    ring
  rw [FVal.rat, hscaled]
  norm_num [zpow_neg, div_eq_mul_inv]

/-- DQ4 rounds level × s × F once, to nearest even. -/
theorem once_dequant (c : FCtx) (k sc x : Nat) (z : Rat) (hz : (c.operand fp32 x).rat = some z)
    (hv : (q4Level k : Rat) / 64 * sc * z ≠ 0) :
    fp32.once { c with mode := 0, sat := false } ((q4Level k : Rat) / 64 * sc * z) (dequant c k sc x) := by
  have hops : ∀ u ∈ [c.operand fp32 x], u.isNan = false := by simpa using FVal.isNan_of_rat hz
  have hdequant : dequant c k sc x = fp32.deliver { c with mode := 0, sat := false } [c.operand fp32 x]
      (mulExact (.fin (q4Level k < 0) ((q4Level k).natAbs * sc) (-6)) (c.operand fp32 x)) := Fmt.apply_of_rat _ _ fp32 _ hops
  rw [hdequant]
  exact Fmt.once_deliver regular_fp32.mb_pos _ _ (rat_mulExact (rat_scaledLevel _ _) hz) hv

/-- The level of an element is read at four bits each. -/
theorem elem_four (x i : Nat) : elem x 4 i = x / 16 ^ i % 16 := by
  rw [elem, pow_mul, show 2 ^ 4 = 16 from rfl]

/-- The place of the level and the scale of DQ4's control word. -/
theorem bits_eight_three (x : Nat) : bitsOf x 8 3 = x / 256 % 8 := by norm_num [bitsOf]

theorem bits_zero_eight (x : Nat) : bitsOf x 0 8 = x % 256 := by norm_num [bitsOf]

/-! ### The instructions -/

/-- Settles O6: one rounding of an exact value for each of DOT4, CVT and DQ4, the integer of each mode, and the instructions, which run
through alu. -/
theorem packedAndConvert : Obligations.PackedAndConvert := by
  refine ⟨once_fDot4, once_convert, fun c f g x v hx hf hg _ => float_to_int c f g x v hx hf hg, convert_int, once_dequant,
    fun _ _ _ e _ => computes_of_facc (fun c x y z => fDot4 c e.toNat x y z) fun _ => rfl,
    fun _ _ _ h _ => computes_of_frr (fun c x y => halves (fun p q _ => fAdd (halfFmt h) c p q) x y 0) fun _ => rfl,
    fun _ _ _ h _ => computes_of_frr (fun c x y => halves (fun p q _ => fMul (halfFmt h) c p q) x y 0) fun _ => rfl,
    fun _ _ _ h _ => computes_of_facc (fun c x y z => halves (fFma (halfFmt h) c) x y z) fun _ => rfl,
    fun _ _ _ h => computes_of_frr (fun c x y => halves (fun p q _ => fMinMax (halfFmt h) c false p q) x y 0) fun _ => rfl,
    fun _ _ _ h => computes_of_frr (fun c x y => halves (fun p q _ => fMinMax (halfFmt h) c true p q) x y 0) fun _ => rfl,
    fun _ _ _ _ _ _ _ => ?_, fun _ _ _ _ => ?_⟩
  · exact computes_of_alu (fun _ => rfl) rfl (fun _ _ => rfl) (fun _ _ _ => mem_flagged) fun _ _ => rfl
  · refine computes_of_alu (fun _ => rfl) rfl (fun _ _ => rfl) (fun _ _ _ => mem_flagged) fun s l => ?_
    simp only [← elem_four, ← bits_eight_three, ← bits_zero_eight]
    rfl

end
end Sys2Proof.Machine
